-- ==== Sys2Proof/Word.lean ====
section
/-! DEFINITION. The word types of the block: 64-bit command and response words (`20_memory.md` R78), the
numeric format `Num` (`00_scope.md` R7) as its 64 bits, and element-addressed memories (R70). -/

namespace Sys2Proof

/-- A word of the command port, of the response port or of an operand (R100). -/
abbrev Word := BitVec 64

/-- A byte: an ASCII character of the song text (R412). -/
abbrev Byte := BitVec 8

/-- A binary32 pattern: an element of `OUTL` or `OUTR` (R41). -/
abbrev Single := BitVec 32

/-- `Num`: one IEEE 754 binary64 value, held as its bit pattern (R7).
A structure, so that the arithmetic of `BitVec` is never taken for the arithmetic of `Num`. -/
structure Num where
  bits : BitVec 64
deriving DecidableEq, Repr, Inhabited

/-- A memory space of elements addressed by index (R70, R71): (index, element) pairs, in the canonical form
that `Memory.wf` of `Machine/Memory.lean` states. -/
abbrev Memory (α : Type) := List (Nat × α)

/-- The five coefficients of a biquad; the denominator's leading coefficient is 1 and is not stored (R150). -/
structure CoefSet where
  a1 : Num
  a2 : Num
  b0 : Num
  b1 : Num
  b2 : Num
deriving DecidableEq, Repr, Inhabited

end Sys2Proof
end

