-- ==== Sys2Proof/SongStore.lean ====
section
/-! DEFINITION. The data model of the song store `SONG` (`10_state.md` R46 to R52): a structured value, not a byte
array. Integer fields are mathematical integers (R6), so that a value outside its legal range can be offered to
`SONG.LOAD` and refused by it. -/

namespace Sys2Proof

/-- "A `(time, interval, expression)` control point within a note" (R9, R49). -/
structure Pin where
  time : Nat
  interval : Int
  expression : Nat
deriving DecidableEq, Repr, Inhabited

/-- A note: start and end in parts, its chord and its pins (R49). [DESIGN CHOICE, assumption 89] -/
structure Note where
  start : Nat
  stop : Nat
  pitches : List Nat
  pins : List Pin
deriving DecidableEq, Repr, Inhabited

/-- "An instrument index ... and an ordered sequence of notes" (R49). -/
structure Pattern where
  instrument : Nat
  notes : List Note
deriving DecidableEq, Repr, Inhabited

/-- A filter control point; `kind` 0 lowpass, 1 highpass, 2 peak (R51). -/
structure FilterPoint where
  kind : Nat
  freq : Nat
  gain : Nat
deriving DecidableEq, Repr, Inhabited

/-- One FM operator's settings (R50). -/
structure Operator where
  frequency : Nat
  amplitude : Nat
  envelope : Nat
deriving DecidableEq, Repr, Inhabited

/-- The configuration record of one instrument (R50). `kind` 0 to 7 in the order of R108; a value above 7 is the
"unknown instrument variant" of R453. `effects` is the bit mask of R52. The numeric fields whose range R50 leaves to
configuration are natural numbers from 0 on. [DESIGN CHOICE, assumption 108] -/
structure Instrument where
  kind : Nat
  volume : Nat
  preset : Nat
  filter : List FilterPoint
  distortionFilter : List FilterPoint
  filterEnvelope : Nat
  transition : Nat
  chord : Nat
  vibrato : Nat
  interval : Nat
  effects : Nat
  distortion : Nat
  bitcrusherFreq : Nat
  bitcrusherQuantization : Nat
  pan : Nat
  reverb : Nat
  chipWave : Nat
  noiseWave : Nat
  operators : List Operator
  algorithm : Nat
  feedbackType : Nat
  feedbackAmplitude : Nat
  feedbackEnvelope : Nat
  spectrumWave : List Nat
  harmonicsWave : List Nat
  pulseWidth : Nat
  pulseEnvelope : Nat
  sustain : Nat
  drumEnvelopes : List Nat
  drumSpectrumWaves : List (List Nat)
deriving DecidableEq, Repr, Inhabited

/-- A channel: "Octave offset, mute flag, a fixed-size list of instruments, a fixed-size list of patterns, and a
sequence of bar-indices" (R48). The spec gives the octave offset no range: here it is a natural number, so that its
lowest value is 0 and none is negative. [DESIGN CHOICE, assumption 71] -/
structure Channel where
  octave : Nat
  muted : Bool
  instruments : List Instrument
  patterns : List Pattern
  bars : List Nat
deriving DecidableEq, Repr, Inhabited

/-- The song (R47); pitch channels stand first in `channels`, noise channels after them. Of `tempo` the rule says only
that it is above 0 and that its range is not in the source: here it is a natural number, so that a fractional number
of beats per minute cannot be offered. [DESIGN CHOICE, assumption 70] -/
structure Song where
  scale : Nat
  key : Nat
  tempo : Nat
  beatsPerBar : Nat
  barCount : Nat
  patternsPerChannel : Nat
  rhythm : Nat
  instrumentsPerChannel : Nat
  loopStart : Nat
  loopLength : Nat
  pitchChannelCount : Nat
  noiseChannelCount : Nat
  channels : List Channel
deriving DecidableEq, Repr, Inhabited

/-- A field of a pin that `SONG.SET` may name (R381, R49). -/
inductive PinEdit where
  | time (v : Nat)
  | interval (v : Int)
  | expression (v : Nat)
deriving DecidableEq, Repr

/-- A field of a note that `SONG.SET` may name. -/
inductive NoteEdit where
  | start (v : Nat)
  | stop (v : Nat)
  | pitches (v : List Nat)
  | pitch (i v : Nat)
  | pins (v : List Pin)
  | pin (i : Nat) (e : PinEdit)
deriving DecidableEq, Repr

/-- A field of a pattern that `SONG.SET` may name. -/
inductive PatternEdit where
  | instrument (v : Nat)
  | notes (v : List Note)
  | note (i : Nat) (e : NoteEdit)
deriving DecidableEq, Repr

/-- A field of a filter control point that `SONG.SET` may name. -/
inductive PointEdit where
  | kind (v : Nat)
  | freq (v : Nat)
  | gain (v : Nat)
deriving DecidableEq, Repr

/-- A field of an FM operator that `SONG.SET` may name. -/
inductive OperatorEdit where
  | frequency (v : Nat)
  | amplitude (v : Nat)
  | envelope (v : Nat)
deriving DecidableEq, Repr

/-- The scalar fields of an instrument (R50). -/
inductive InstrumentField where
  | kind | volume | preset | filterEnvelope | transition | chord | vibrato | interval | effects | distortion
  | bitcrusherFreq | bitcrusherQuantization | pan | reverb | chipWave | noiseWave | algorithm | feedbackType
  | feedbackAmplitude | feedbackEnvelope | pulseWidth | pulseEnvelope | sustain
deriving DecidableEq, Repr

/-- A field of an instrument that `SONG.SET` may name. -/
inductive InstrumentEdit where
  | scalar (f : InstrumentField) (v : Nat)
  | filter (v : List FilterPoint)
  | filterPoint (i : Nat) (e : PointEdit)
  | distortionFilter (v : List FilterPoint)
  | distortionFilterPoint (i : Nat) (e : PointEdit)
  | operators (v : List Operator)
  | operator (i : Nat) (e : OperatorEdit)
  | spectrumWave (v : List Nat)
  | spectrumPoint (i v : Nat)
  | harmonicsWave (v : List Nat)
  | harmonicsPoint (i v : Nat)
  | drumEnvelopes (v : List Nat)
  | drumEnvelope (d v : Nat)
  | drumSpectrumWaves (v : List (List Nat))
  | drumSpectrumWave (d : Nat) (v : List Nat)
  | drumSpectrumPoint (d i v : Nat)
deriving DecidableEq, Repr

/-- A field of a channel that `SONG.SET` may name. -/
inductive ChannelEdit where
  | octave (v : Nat)
  | muted (v : Bool)
  | bars (v : List Nat)
  | bar (i v : Nat)
  | patterns (v : List Pattern)
  | pattern (i : Nat) (v : Pattern)
  | patternField (i : Nat) (e : PatternEdit)
  | instruments (v : List Instrument)
  | instrument (i : Nat) (v : Instrument)
  | instrumentField (i : Nat) (e : InstrumentEdit)
deriving DecidableEq, Repr

/-- "a pair (field path, value)": the path names a field of R47 to R51 (R381), a list, a whole instrument or a whole
pattern; none names one whole channel, note, pin, control point or operator. [DESIGN CHOICE, assumption 79] -/
inductive SongEdit where
  | scale (v : Nat)
  | key (v : Nat)
  | tempo (v : Nat)
  | beatsPerBar (v : Nat)
  | barCount (v : Nat)
  | patternsPerChannel (v : Nat)
  | rhythm (v : Nat)
  | instrumentsPerChannel (v : Nat)
  | loopStart (v : Nat)
  | loopLength (v : Nat)
  | pitchChannelCount (v : Nat)
  | noiseChannelCount (v : Nat)
  | channels (v : List Channel)
  | channel (c : Nat) (e : ChannelEdit)
deriving DecidableEq, Repr

/-- A structured value on the payload port (R370): a whole song for `SONG.LOAD`, an edit for `SONG.SET`. -/
inductive Payload where
  | song (s : Song)
  | edit (e : SongEdit)
deriving DecidableEq, Repr

end Sys2Proof
end

