-- ==== Sys2Proof/Config.lean ====
section
/-! DEFINITION. The configuration record `Cfg` (`00_scope.md` R5, `93_implementation_defined.md` part 2) and the free
values. Everything here is fixed for the machine and is no state (R10).

`Config.cfg` is the configuration of the machine that `exec` and `step` run: an opaque constant with no body, so
that a proof about it holds for every configuration. A field that the spec bounds is read through an accessor of
`Machine/Params.lean`, which keeps the bound for every value of the field, so that the values this record can take,
read so, include every legal configuration.

The constants `Config.free…` below it are the free values: opaque, with no body, applied to plain data of the state. -/

namespace Sys2Proof

/-- A named table that has at least one entry, since "every index lies inside its table" (R50).
[DESIGN CHOICE, assumption 114] -/
structure Table (α : Type) where
  head : α
  tail : List α
deriving Inhabited

/-- A transition bundle (R53); its tick counts are natural numbers. [DESIGN CHOICE, assumption 76] -/
structure Transition where
  attackSeconds : Num
  releaseTicks : Nat
  isSeamless : Bool
  slides : Bool
  slideTicks : Nat
  releases : Bool
deriving DecidableEq, Repr, Inhabited

/-- A chord bundle (R53). -/
structure Chord where
  singleTone : Bool
  arpeggiates : Bool
  customInterval : Bool
  strumParts : Nat
  harmonizes : Bool
deriving DecidableEq, Repr, Inhabited

/-- An envelope table entry; `kind` 0 to 8 in the order of R180, another value is the unknown envelope of R453. -/
structure EnvelopeEntry where
  kind : Nat
  speed : Num
deriving DecidableEq, Repr, Inhabited

/-- A vibrato table entry (R53, R193): one or more periods in seconds. -/
structure Vibrato where
  firstPeriod : Num
  otherPeriods : List Num
  delayTicks : Num
  amplitude : Num
deriving DecidableEq, Repr, Inhabited

/-- An interval table entry, in the names of R53 and R242. -/
structure IntervalEntry where
  spread : Num
  offset : Num
  sign : Num
deriving DecidableEq, Repr, Inhabited

/-- An FM algorithm (R256): for each operator its modulators, and whether it is a carrier. -/
structure Algorithm where
  modulators : Vector (List Nat) 4
  isCarrier : Vector Bool 4
deriving DecidableEq, Repr, Inhabited

/-- The `Numerics` record (R7, R132, R155, R261) before the named properties are imposed: total functions. -/
structure Numerics where
  sin : Num → Num
  cos : Num → Num
  tan : Num → Num
  exp2 : Num → Num
  pow : Num → Num → Num
  log : Num → Num
  ifft : Nat → List Num → List Num
  lp1 : Num → CoefSet
  hp1 : Num → CoefSet
  lp2 : Num → Num → CoefSet
  hp2 : Num → Num → CoefSet
  peak : Num → Num → CoefSet
  hshelf1 : Num → Num → CoefSet
  ap1 : Num → CoefSet
  phaseDelay : CoefSet → Num → Num
deriving Inhabited

/-- Upper ends of the numeric ranges that are configuration because the source gives none (R47, R50); the lower ends
are 0, or 1 where a rule asks for it. [DESIGN CHOICE, assumption 108] -/
structure FieldRanges where
  tempo : Nat
  beatsPerBar : Nat
  barCount : Nat
  patternsPerChannel : Nat
  instrumentsPerChannel : Nat
  pitchChannelCount : Nat
  noiseChannelCount : Nat
  octave : Nat
  volume : Nat
  bitcrusherFreq : Nat
  bitcrusherQuantization : Nat
  operatorFrequency : Nat
  operatorAmplitude : Nat
  feedbackAmplitude : Nat
  spectrumControl : Nat
  harmonicsControl : Nat
  pulseWidth : Nat
  sustain : Nat
  pitchChannelPitch : Nat
  noiseChannelPitch : Nat
  interval : Nat
deriving DecidableEq, Repr, Inhabited

/-- What a payload shape may depend on: "version, c, counts so far, cursor" (R413). -/
structure ShapeContext where
  version : Nat
  pitchChannels : Nat
  noiseChannels : Nat
  instrumentsPerChannel : Nat
  patternsPerChannel : Nat
  barCount : Nat
  cursorChannel : Nat
  cursorInstrument : Nat
  cursorKind : Nat
deriving DecidableEq, Repr, Inhabited

/-- The host codec's configuration `CodecCfg` (`49_song_codec.md`, part 2.6 of file 93). -/
structure CodecCfg where
  /-- `payloadShape` (R413, R414), the reader's side: whether a payload ends with these symbol values, and how many it
  has at most -/
  payloadComplete : ShapeContext → Byte → List Nat → Bool
  payloadLongest : ShapeContext → Byte → Nat
  /-- how the payload's symbol values map to field values, and at which symbol a field stands (R414, R440) -/
  payloadValues : ShapeContext → Byte → List Nat → List Nat
  payloadOffset : ShapeContext → Byte → List Nat → Nat → Nat
  /-- the writer's side of the same shape: field values to symbol values (R414, R441) -/
  payloadSymbols : ShapeContext → Byte → List Nat → List Nat
  /-- the canonical order of the writer's song-level tags and per-instrument tags (R413, R442) -/
  songTagOrder : List Byte
  instrumentTagOrder : List Byte
  /-- which of `P` (1) and `Q` (2) carries the operators' envelopes in a version, another number if neither does; and
  whether `B` carries the feedback envelope (R436) -/
  operatorEnvelopesIn : Nat → Nat
  feedbackEnvelopeInB : Nat → Bool
  /-- whether the latest version's `f` carries `filterEnvelope` behind its points; else the writer writes `z` (R430) -/
  filterEnvelopeInF : Bool
  /-- a drumset's twelve envelopes travel with this tag's payload (R427 leaves the place to `payloadShape`) -/
  drumEnvelopeTag : Byte
  /-- the codeword of a recent-shape index (R421): "any prefix-free code of `0 .. 9`" -/
  writeShapeIndex : Nat → List Bool
  /-- which versions use the legacy part duration (R398) -/
  usesLegacyDuration : Nat → Bool
  initialLastPitch : Bool → Nat → Nat
  initialRecentPitches : Bool → Nat → List Nat
  spectrumControlPointBits : Nat
  harmonicsControlPointBits : Nat
  legacyIsFirstOrder : Nat → Bool
  legacyIsResonant : Nat → Bool
  legacyCutoffHz : Nat → Num
  /-- the open numbers of `legacyFirstOrderPoint` (R432): the remap of the cutoff in radians, the pull of the logarithm -/
  legacyRemap : Num → Num
  legacyPull : Num → Num
  /-- the open numbers of `legacySecondOrderPoint` (R433): the intended peak gain of a resonance, the cutoff curved
  toward a gain, and whether the point keeps the intended gain -/
  legacyPeakGain : Nat → Num
  legacyCurve : Num → Num → Bool → Num
  legacyKeepsPeak : Nat → Bool → Bool
  /-- whether a filter envelope of the `envelopes` table decays (R431) -/
  legacyEnvelopeDecays : Nat → Bool
  legacyEffects : List Nat
  legacyCutoffDefault : Nat
  legacyResonanceDefault : Nat
  /-- the names of the tables, for the JSON form, and the alias map (R438, R439) -/
  scaleNames : List (List Byte)
  keyNames : List (List Byte)
  transitionNames : List (List Byte)
  chordNames : List (List Byte)
  aliases : List (List Byte × List Byte)
  scaleDefault : Nat
  rhythmOfTicksPerBeat : Nat → Nat
  ticksPerBeatOfRhythm : Nat → Nat
  pitchIntervalSignNegative : Bool
  pitchIntervalMinValue : Nat
deriving Inhabited

/-- What a platform does with a command word presented while `busy` (D6). -/
inductive BusyPolicy where
  | stall
  | reject
deriving DecidableEq, Repr, Inhabited

/-- What `RUN` does while paused (D17, part 2.1 of file 93): "refuse, or render silence". -/
inductive PausedRunPolicy where
  | refuse
  | silence
deriving DecidableEq, Repr, Inhabited

/-- The configuration record. Fields are raw: sizes that are powers of two are held as exponents, counts that are at
least 1 as the count less 1 (see `Machine/Params.lean`). -/
structure Cfg where
  numerics : Numerics
  -- sizes (part 2.1)
  workSizeExp : Nat
  toneSlotsLess1 : Nat
  runMaxLess1 : Nat
  outMaxLess1 : Nat
  ticksPerPartLess1 : Nat
  partsPerBeatLess1 : Nat
  ticksPerArpeggioLess1 : Nat
  maxChordSizeLess1 : Nat
  /-- the cap of R347, with no least value. [DESIGN CHOICE, assumption 105] -/
  maximumTonesPerChannel : Nat
  sineWaveExp : Nat
  spectrumWaveExp : Nat
  harmonicsWaveExp : Nat
  chorusDelayBufferExp : Nat
  -- filter (R5, R165 to R169)
  filterFreqRangeLess1 : Nat
  filterGainRangeLess1 : Nat
  filterMaxPointsLess1 : Nat
  filterMaxHz : Num
  filterFreqStep : Num
  /-- the setting of gain 1 (R166), a natural number as every setting is. [DEDUCED, assumption 96] -/
  filterGainCenter : Nat
  filterGainStep : Num
  volComp : Nat → Nat → Nat → Num
  omegaClamp : Num
  -- tables (R53)
  transitions : Table Transition
  chords : Table Chord
  envelopes : Table EnvelopeEntry
  vibratos : Table Vibrato
  intervals : Table IntervalEntry
  algorithms : Table Algorithm
  feedbacks : Table (List Nat)
  chipWaves : Table (List Num)
  noiseWavesLess1 : Nat
  rhythmsLess1 : Nat
  scalesLess1 : Nat
  keysLess1 : Nat
  presetsLess1 : Nat
  arpeggioPattern : Nat → Nat → Nat → Nat
  -- wave builders (part 2.3)
  noiseWaveGen : Nat → List Num
  pitchFilterMult : Nat → Num
  spectrumFill : List Nat → List Num
  harmonicsFill : List Nat → List Num
  impulseWaveGen : List Num
  -- voicing (part 2.2)
  basePitch : Song → Nat → Nat → Num
  operatorAmplitudeCurve : Nat → Num
  feedbackCurve : Nat → Num
  pulseWidthCurve : Nat → Num
  volumeGain : Nat → Num
  chordExpression : Nat → Nat → Num
  baseExpression : Nat → Num
  customIntervalExpression : Int → Num
  fmCarrierExpression : Num → Num
  fmModulatorScale : Num
  sineExpressionBoost : Instrument → Num
  fmFrequencyRatio : Nat → Num
  -- guitar (part 2.5)
  guitarPulseWidthRandomness : Num
  guitarDispersionOmega : Num → Num
  guitarShelfOmega : Num → Num
  guitarShelfGain : Nat → Num → Num
  pluckShape : List Num → Num → Num → Nat → Num
  -- effects (part 2.5)
  distortionBaseVolume : Num
  distortionRangeLess2 : Nat
  bitcrusherPhaseDelta : Nat → Num → Num
  bitcrusherStepSize : Nat → Num
  panMaxLess1 : Nat
  panDelaySecondsMax : Num
  panGainNorm : Num
  chorusOffsets : Vector (Vector Num 3) 2
  chorusPhaseOffsets : Vector (Vector Num 3) 2
  chorusDelayRange : Num
  chorusPeriodSeconds : Num
  reverbRangeLess6 : Nat
  reverbTapOffsets : Nat × Nat × Nat
  reverbMult : Nat → Num
  reverbLowpass : Num
  tailTicks : Instrument → Num → Num → Num
  -- song store
  ranges : FieldRanges
  defaultSong : Song
  -- host codec and platform policies
  codec : CodecCfg
  busyPolicy : BusyPolicy
  pausedRunPolicy : PausedRunPolicy
deriving Inhabited

/-- The machine's configuration: uninterpreted, with no body. [DESIGN CHOICE, assumption 9] -/
opaque Config.cfg : Cfg

/-! Free values. `epoch` is the count of commands accepted (a plain counter of the state, the model's own), and the
list names the place and the index inside one command, so that no two uses of a free value are tied together. -/

/-- An open `Num` (U1 to U4, U15 to U18): any of the 2^64 patterns. -/
opaque Config.freeBits : Nat → List Nat → BitVec 64

/-- An open binary32 pattern (U3). -/
opaque Config.freeSingle : Nat → List Nat → BitVec 32

/-- An open integer: `floor` of a non-finite value, which no rule gives. -/
opaque Config.freeInt : BitVec 64 → Int

/-- Which NaN an operation on these operands gives (U28, R7): any bits, made a NaN pattern by `Num.nanOf`.
[DESIGN CHOICE, assumption 1] -/
opaque Config.nanBits : BitVec 64 → BitVec 64 → BitVec 64

/-- Which NaN pattern a response word or an output element that carries this NaN shows (R7).
[DESIGN CHOICE, assumption 1] -/
opaque Config.nanResponse : BitVec 64 → BitVec 64

/-- Whether `max` and `min` answer their first operand when an operand is a NaN (R192, R321: not defined) or the
operands are two zeros of opposite sign. -/
opaque Config.nanPick : BitVec 64 → BitVec 64 → Bool

/-- Where a phase lands whose subtraction loop (R241) does not bring it back in range.
[DESIGN CHOICE, assumption 19] -/
opaque Config.freeWrap : BitVec 64 → BitVec 64 → BitVec 64

/-- The random source (R61, U26): the raw value of draw number `n` under a seed. [DESIGN CHOICE, assumption 40] -/
opaque Config.rngRaw : BitVec 64 → Nat → BitVec 64

/-- The environment's monotonic time at the acceptance of a command (R17, R377), before it is kept from falling. -/
opaque Config.monoRaw : Nat → BitVec 64

end Sys2Proof
end

