-- ==== Sys2Proof/Syntax.lean ====
section
/-! DEFINITION. The instructions: one constructor per row of the opcode table (`30_encoding.md` R107, R111): the 78
commands of `SBX-CMD`, with their selectors and operand words, and the 42 tags of the song URL, which the host's
codec reads. A selector and a kind `I` operand is an index or a count, a natural number here (its width is a check of
`WellFormed.lean`); a kind `F` operand is a `Num` (R103). The payload of a tag is no operand: its shape depends on
the codec's state (R413). -/

namespace Sys2Proof

inductive Instr where
  /-- `RESET` (opcode 0x01, R480) -/
  | reset
  /-- `PLAY` (opcode 0x02, R374) -/
  | play
  /-- `PAUSE` (opcode 0x03, R375) -/
  | pause
  /-- `LIVE` (opcode 0x04, R376) -/
  | live
  /-- `RUN` (opcode 0x05, R330) -/
  | run (count : Nat)
  /-- `CFGW` (opcode 0x06, R378) -/
  | cfgw (u : Nat) (value : Word)
  /-- `CFGR` (opcode 0x07, R379) -/
  | cfgr (u : Nat)
  /-- `SONG.LOAD` (opcode 0x08, R380) -/
  | songLoad
  /-- `SONG.SET` (opcode 0x09, R381) -/
  | songSet
  /-- `SETR` (opcode 0x0A, R382) -/
  | setr (u : Nat) (value : Num)
  /-- `RDR` (opcode 0x0B, R383) -/
  | rdr (u : Nat)
  /-- `WRW` (opcode 0x0C, R384) -/
  | wrw (index : Nat) (value : Num)
  /-- `RDW` (opcode 0x0D, R386) -/
  | rdw (index : Nat)
  /-- `RDM` (opcode 0x0E, R385) -/
  | rdm (u : Nat) (v : Nat) (w : Nat) (index : Nat)
  /-- `SANITIZE` (opcode 0x0F, R343) -/
  | sanitize
  /-- `IFFT` (opcode 0x20, R131) -/
  | ifft (size : Nat)
  /-- `WAVE.SINE` (opcode 0x21, R134) -/
  | waveSine
  /-- `WAVE.CHIP` (opcode 0x22, R135) -/
  | waveChip (u : Nat)
  /-- `WAVE.NOISE` (opcode 0x23, R136) -/
  | waveNoise (u : Nat)
  /-- `WAVE.SPECTRUM` (opcode 0x24, R137) -/
  | waveSpectrum (u : Nat) (v : Nat)
  /-- `WAVE.HARMONICS` (opcode 0x25, R138) -/
  | waveHarmonics (u : Nat)
  /-- `WAVE.IMPULSE` (opcode 0x26, R139) -/
  | waveImpulse
  /-- `WAVE.INVAL` (opcode 0x27, R140) -/
  | waveInval
  /-- `BQ.LOADGRAD` (opcode 0x30, R151) -/
  | bqLoadgrad (u : Nat) (v : Nat) (w : Nat) (start : CoefSet) (finish : CoefSet) (invN : Num)
  /-- `BQ.STEP` (opcode 0x31, R152) -/
  | bqStep (u : Nat) (v : Nat) (w : Nat) (x : Num)
  /-- `COEF.LP1` (opcode 0x32, R156) -/
  | coefLp1 (omega : Num)
  /-- `COEF.HP1` (opcode 0x33, R157) -/
  | coefHp1 (omega : Num)
  /-- `COEF.LP2` (opcode 0x34, R158) -/
  | coefLp2 (omega : Num) (gain : Num)
  /-- `COEF.HP2` (opcode 0x35, R159) -/
  | coefHp2 (omega : Num) (gain : Num)
  /-- `COEF.PEAK` (opcode 0x36, R160) -/
  | coefPeak (omega : Num) (gain : Num)
  /-- `COEF.HSHELF1` (opcode 0x37, R161) -/
  | coefHshelf1 (omega : Num) (shelfGain : Num)
  /-- `COEF.AP1` (opcode 0x38, R162) -/
  | coefAp1 (omega : Num)
  /-- `COEF.FDAP` (opcode 0x39, R163) -/
  | coefFdap (d : Num)
  /-- `FPT.HZ` (opcode 0x3A, R165) -/
  | fptHz (freq : Nat)
  /-- `FPT.GAIN` (opcode 0x3B, R166) -/
  | fptGain (gain : Nat)
  /-- `VOLCOMP` (opcode 0x3C, R167) -/
  | volcomp (kind : Nat) (freq : Nat) (gain : Nat)
  /-- `ENV.STEADY` (opcode 0x40, R181) -/
  | envSteady (t : Num) (beats : Num) (speed : Num) (noteExpression : Num)
  /-- `ENV.CUSTOM` (opcode 0x41, R182) -/
  | envCustom (t : Num) (beats : Num) (speed : Num) (noteExpression : Num)
  /-- `ENV.TWANG` (opcode 0x42, R183) -/
  | envTwang (t : Num) (beats : Num) (speed : Num) (noteExpression : Num)
  /-- `ENV.SWELL` (opcode 0x43, R184) -/
  | envSwell (t : Num) (beats : Num) (speed : Num) (noteExpression : Num)
  /-- `ENV.TREMOLO` (opcode 0x44, R185) -/
  | envTremolo (t : Num) (beats : Num) (speed : Num) (noteExpression : Num)
  /-- `ENV.TREMOLO2` (opcode 0x45, R186) -/
  | envTremolo2 (t : Num) (beats : Num) (speed : Num) (noteExpression : Num)
  /-- `ENV.PUNCH` (opcode 0x46, R187) -/
  | envPunch (t : Num) (beats : Num) (speed : Num) (noteExpression : Num)
  /-- `ENV.FLARE` (opcode 0x47, R188) -/
  | envFlare (t : Num) (beats : Num) (speed : Num) (noteExpression : Num)
  /-- `ENV.DECAY` (opcode 0x48, R189) -/
  | envDecay (t : Num) (beats : Num) (speed : Num) (noteExpression : Num)
  /-- `LFO` (opcode 0x49, R193) -/
  | lfo (u : Nat) (tau : Num)
  /-- `EXPR` (opcode 0x4A, R196) -/
  | expr (x : Num)
  /-- `RELSCALE` (opcode 0x4B, R197) -/
  | relscale (ticksSinceReleased : Num) (releaseTicks : Num)
  /-- `VIB.RAMP` (opcode 0x4C, R194) -/
  | vibRamp (ticks : Num) (delayTicks : Num)
  /-- `PITCH.HZ` (opcode 0x4D, R198) -/
  | pitchHz (pitch : Num)
  /-- `TONE.NEW` (opcode 0x50, R211) -/
  | toneNew (u : Nat)
  /-- `TONE.COMPUTE` (opcode 0x51, R212) -/
  | toneCompute (u : Nat) (runLength : Nat)
  /-- `TONE.RELEASE` (opcode 0x52, R224) -/
  | toneRelease (u : Nat)
  /-- `TONE.FREE` (opcode 0x53, R225) -/
  | toneFree (u : Nat)
  /-- `ARP.INDEX` (opcode 0x54, R214) -/
  | arpIndex (pitchCount : Nat) (rhythm : Nat) (arpStep : Nat)
  /-- `SYN.CHIP` (opcode 0x60, R242) -/
  | synChip (u : Nat) (runLength : Nat)
  /-- `SYN.FM` (opcode 0x61, R255) -/
  | synFm (u : Nat) (runLength : Nat)
  /-- `SYN.NOISE` (opcode 0x62, R249) -/
  | synNoise (u : Nat) (runLength : Nat)
  /-- `SYN.SPECTRUM` (opcode 0x63, R250) -/
  | synSpectrum (u : Nat) (runLength : Nat)
  /-- `SYN.DRUMSET` (opcode 0x64, R251) -/
  | synDrumset (u : Nat) (runLength : Nat)
  /-- `SYN.HARMONICS` (opcode 0x65, R243) -/
  | synHarmonics (u : Nat) (runLength : Nat)
  /-- `SYN.PWM` (opcode 0x66, R246) -/
  | synPwm (u : Nat) (runLength : Nat)
  /-- `SYN.GUITAR` (opcode 0x67, R260) -/
  | synGuitar (u : Nat) (runLength : Nat)
  /-- `GTR.PLUCK` (opcode 0x68, R262) -/
  | gtrPluck (u : Nat) (v : Nat)
  /-- `FX.DISTORT` (opcode 0x70, R282) -/
  | fxDistort (u : Nat) (x : Num)
  /-- `FX.BITCRUSH` (opcode 0x71, R284) -/
  | fxBitcrush (u : Nat) (x : Num)
  /-- `FX.FILTER` (opcode 0x72, R286) -/
  | fxFilter (u : Nat) (x : Num)
  /-- `FX.PAN` (opcode 0x73, R288) -/
  | fxPan (u : Nat) (x : Num)
  /-- `FX.CHORUS` (opcode 0x74, R292) -/
  | fxChorus (u : Nat) (left : Num) (right : Num)
  /-- `FX.REVERB` (opcode 0x75, R296) -/
  | fxReverb (u : Nat) (left : Num) (right : Num)
  /-- `FX.RUN` (opcode 0x76, R300) -/
  | fxRun (u : Nat) (pos : Nat) (runLength : Nat)
  /-- `FX.TAIL` (opcode 0x77, R310) -/
  | fxTail (u : Nat)
  /-- `LIMIT` (opcode 0x80, R321) -/
  | limit (left : Num) (right : Num)
  /-- `CLK.ADV` (opcode 0x81, R336) -/
  | clkAdv (runLength : Nat)
  /-- `TICK.END` (opcode 0x82, R340) -/
  | tickEnd
  /-- `PART.END` (opcode 0x83, R341) -/
  | partEnd
  /-- `BAR.NEXT` (opcode 0x84, R339) -/
  | barNext
  /-- `SYNC.TONES` (opcode 0x85, R345) -/
  | syncTones (u : Nat)
  /-- URL tag `a` (R412) -/
  | tagBeatsPerBar
  /-- URL tag `b` (R412) -/
  | tagBars
  /-- URL tag `c` (R412) -/
  | tagVibrato
  /-- URL tag `d` (R412) -/
  | tagTransition
  /-- URL tag `e` (R412) -/
  | tagLoopEnd
  /-- URL tag `f` (R412) -/
  | tagFilter
  /-- URL tag `g` (R412) -/
  | tagBarCount
  /-- URL tag `h` (R412) -/
  | tagInterval
  /-- URL tag `i` (R412) -/
  | tagInstrumentCount
  /-- URL tag `j` (R412) -/
  | tagPatternCount
  /-- URL tag `k` (R412) -/
  | tagKey
  /-- URL tag `l` (R412) -/
  | tagLoopStart
  /-- URL tag `m` (R412) -/
  | tagReverb
  /-- URL tag `n` (R412) -/
  | tagChannelCount
  /-- URL tag `o` (R412) -/
  | tagChannelOctave
  /-- URL tag `p` (R412) -/
  | tagPatterns
  /-- URL tag `q` (R412) -/
  | tagEffects
  /-- URL tag `r` (R412) -/
  | tagRhythm
  /-- URL tag `s` (R412) -/
  | tagScale
  /-- URL tag `t` (R412) -/
  | tagTempo
  /-- URL tag `u` (R412) -/
  | tagPreset
  /-- URL tag `v` (R412) -/
  | tagVolume
  /-- URL tag `w` (R412) -/
  | tagWave
  /-- URL tag `y` (R412) -/
  | tagFilterResonance
  /-- URL tag `z` (R412) -/
  | tagFilterEnvelope
  /-- URL tag `A` (R412) -/
  | tagAlgorithm
  /-- URL tag `B` (R412) -/
  | tagFeedbackAmplitude
  /-- URL tag `C` (R412) -/
  | tagChord
  /-- URL tag `D` (R412) -/
  | tagDistortion
  /-- URL tag `E` (R412) -/
  | tagOperatorEnvelopes
  /-- URL tag `F` (R412) -/
  | tagFeedbackType
  /-- URL tag `G` (R412) -/
  | tagDistortionFilter
  /-- URL tag `H` (R412) -/
  | tagHarmonics
  /-- URL tag `L` (R412) -/
  | tagPan
  /-- URL tag `P` (R412) -/
  | tagOperatorAmplitudes
  /-- URL tag `Q` (R412) -/
  | tagOperatorFrequencies
  /-- URL tag `R` (R412) -/
  | tagBitcrusher
  /-- URL tag `S` (R412) -/
  | tagSpectrum
  /-- URL tag `T` (R412) -/
  | tagStartInstrument
  /-- URL tag `U` (R412) -/
  | tagSustain
  /-- URL tag `V` (R412) -/
  | tagFeedbackEnvelope
  /-- URL tag `W` (R412) -/
  | tagPulseWidth
deriving DecidableEq, Repr

end Sys2Proof
end

