-- ==== Sys2Proof/WellFormed.lean ====
section
/-! DEFINITION. Well-formed instructions: every selector fits its 8-bit field and every kind `I` operand fits its 64-bit
word (`30_encoding.md` R101, R103). -/

namespace Sys2Proof

/-- The selectors an instruction uses, in the order `u`, `v`, `w` (R107). -/
def Instr.selectors : Instr → List Nat
  | .cfgw u _ => [u]
  | .cfgr u => [u]
  | .setr u _ => [u]
  | .rdr u => [u]
  | .rdm u v w _ => [u, v, w]
  | .waveChip u => [u]
  | .waveNoise u => [u]
  | .waveSpectrum u v => [u, v]
  | .waveHarmonics u => [u]
  | .bqLoadgrad u v w _ _ _ => [u, v, w]
  | .bqStep u v w _ => [u, v, w]
  | .lfo u _ => [u]
  | .toneNew u => [u]
  | .toneCompute u _ => [u]
  | .toneRelease u => [u]
  | .toneFree u => [u]
  | .synChip u _ => [u]
  | .synFm u _ => [u]
  | .synNoise u _ => [u]
  | .synSpectrum u _ => [u]
  | .synDrumset u _ => [u]
  | .synHarmonics u _ => [u]
  | .synPwm u _ => [u]
  | .synGuitar u _ => [u]
  | .gtrPluck u v => [u, v]
  | .fxDistort u _ => [u]
  | .fxBitcrush u _ => [u]
  | .fxFilter u _ => [u]
  | .fxPan u _ => [u]
  | .fxChorus u _ _ => [u]
  | .fxReverb u _ _ => [u]
  | .fxRun u _ _ => [u]
  | .fxTail u => [u]
  | .syncTones u => [u]
  | .reset => []
  | .play => []
  | .pause => []
  | .live => []
  | .run _ => []
  | .songLoad => []
  | .songSet => []
  | .wrw _ _ => []
  | .rdw _ => []
  | .sanitize => []
  | .ifft _ => []
  | .waveSine => []
  | .waveImpulse => []
  | .waveInval => []
  | .coefLp1 _ => []
  | .coefHp1 _ => []
  | .coefLp2 _ _ => []
  | .coefHp2 _ _ => []
  | .coefPeak _ _ => []
  | .coefHshelf1 _ _ => []
  | .coefAp1 _ => []
  | .coefFdap _ => []
  | .fptHz _ => []
  | .fptGain _ => []
  | .volcomp _ _ _ => []
  | .envSteady _ _ _ _ => []
  | .envCustom _ _ _ _ => []
  | .envTwang _ _ _ _ => []
  | .envSwell _ _ _ _ => []
  | .envTremolo _ _ _ _ => []
  | .envTremolo2 _ _ _ _ => []
  | .envPunch _ _ _ _ => []
  | .envFlare _ _ _ _ => []
  | .envDecay _ _ _ _ => []
  | .expr _ => []
  | .relscale _ _ => []
  | .vibRamp _ _ => []
  | .pitchHz _ => []
  | .arpIndex _ _ _ => []
  | .limit _ _ => []
  | .clkAdv _ => []
  | .tickEnd => []
  | .partEnd => []
  | .barNext => []
  | .tagBeatsPerBar => []
  | .tagBars => []
  | .tagVibrato => []
  | .tagTransition => []
  | .tagLoopEnd => []
  | .tagFilter => []
  | .tagBarCount => []
  | .tagInterval => []
  | .tagInstrumentCount => []
  | .tagPatternCount => []
  | .tagKey => []
  | .tagLoopStart => []
  | .tagReverb => []
  | .tagChannelCount => []
  | .tagChannelOctave => []
  | .tagPatterns => []
  | .tagEffects => []
  | .tagRhythm => []
  | .tagScale => []
  | .tagTempo => []
  | .tagPreset => []
  | .tagVolume => []
  | .tagWave => []
  | .tagFilterResonance => []
  | .tagFilterEnvelope => []
  | .tagAlgorithm => []
  | .tagFeedbackAmplitude => []
  | .tagChord => []
  | .tagDistortion => []
  | .tagOperatorEnvelopes => []
  | .tagFeedbackType => []
  | .tagDistortionFilter => []
  | .tagHarmonics => []
  | .tagPan => []
  | .tagOperatorAmplitudes => []
  | .tagOperatorFrequencies => []
  | .tagBitcrusher => []
  | .tagSpectrum => []
  | .tagStartInstrument => []
  | .tagSustain => []
  | .tagFeedbackEnvelope => []
  | .tagPulseWidth => []

/-- The kind `I` operands of an instruction, in their order (R107). -/
def Instr.indexOperands : Instr → List Nat
  | .reset => []
  | .play => []
  | .pause => []
  | .live => []
  | .run count => [count]
  | .cfgw _ _ => []
  | .cfgr _ => []
  | .songLoad => []
  | .songSet => []
  | .setr _ _ => []
  | .rdr _ => []
  | .wrw index _ => [index]
  | .rdw index => [index]
  | .rdm _ _ _ index => [index]
  | .sanitize => []
  | .ifft size => [size]
  | .waveSine => []
  | .waveChip _ => []
  | .waveNoise _ => []
  | .waveSpectrum _ _ => []
  | .waveHarmonics _ => []
  | .waveImpulse => []
  | .waveInval => []
  | .bqLoadgrad _ _ _ _ _ _ => []
  | .bqStep _ _ _ _ => []
  | .coefLp1 _ => []
  | .coefHp1 _ => []
  | .coefLp2 _ _ => []
  | .coefHp2 _ _ => []
  | .coefPeak _ _ => []
  | .coefHshelf1 _ _ => []
  | .coefAp1 _ => []
  | .coefFdap _ => []
  | .fptHz freq => [freq]
  | .fptGain gain => [gain]
  | .volcomp kind freq gain => [kind, freq, gain]
  | .envSteady _ _ _ _ => []
  | .envCustom _ _ _ _ => []
  | .envTwang _ _ _ _ => []
  | .envSwell _ _ _ _ => []
  | .envTremolo _ _ _ _ => []
  | .envTremolo2 _ _ _ _ => []
  | .envPunch _ _ _ _ => []
  | .envFlare _ _ _ _ => []
  | .envDecay _ _ _ _ => []
  | .lfo _ _ => []
  | .expr _ => []
  | .relscale _ _ => []
  | .vibRamp _ _ => []
  | .pitchHz _ => []
  | .toneNew _ => []
  | .toneCompute _ runLength => [runLength]
  | .toneRelease _ => []
  | .toneFree _ => []
  | .arpIndex pitchCount rhythm arpStep => [pitchCount, rhythm, arpStep]
  | .synChip _ runLength => [runLength]
  | .synFm _ runLength => [runLength]
  | .synNoise _ runLength => [runLength]
  | .synSpectrum _ runLength => [runLength]
  | .synDrumset _ runLength => [runLength]
  | .synHarmonics _ runLength => [runLength]
  | .synPwm _ runLength => [runLength]
  | .synGuitar _ runLength => [runLength]
  | .gtrPluck _ _ => []
  | .fxDistort _ _ => []
  | .fxBitcrush _ _ => []
  | .fxFilter _ _ => []
  | .fxPan _ _ => []
  | .fxChorus _ _ _ => []
  | .fxReverb _ _ _ => []
  | .fxRun _ pos runLength => [pos, runLength]
  | .fxTail _ => []
  | .limit _ _ => []
  | .clkAdv runLength => [runLength]
  | .tickEnd => []
  | .partEnd => []
  | .barNext => []
  | .syncTones _ => []
  | .tagBeatsPerBar => []
  | .tagBars => []
  | .tagVibrato => []
  | .tagTransition => []
  | .tagLoopEnd => []
  | .tagFilter => []
  | .tagBarCount => []
  | .tagInterval => []
  | .tagInstrumentCount => []
  | .tagPatternCount => []
  | .tagKey => []
  | .tagLoopStart => []
  | .tagReverb => []
  | .tagChannelCount => []
  | .tagChannelOctave => []
  | .tagPatterns => []
  | .tagEffects => []
  | .tagRhythm => []
  | .tagScale => []
  | .tagTempo => []
  | .tagPreset => []
  | .tagVolume => []
  | .tagWave => []
  | .tagFilterResonance => []
  | .tagFilterEnvelope => []
  | .tagAlgorithm => []
  | .tagFeedbackAmplitude => []
  | .tagChord => []
  | .tagDistortion => []
  | .tagOperatorEnvelopes => []
  | .tagFeedbackType => []
  | .tagDistortionFilter => []
  | .tagHarmonics => []
  | .tagPan => []
  | .tagOperatorAmplitudes => []
  | .tagOperatorFrequencies => []
  | .tagBitcrusher => []
  | .tagSpectrum => []
  | .tagStartInstrument => []
  | .tagSustain => []
  | .tagFeedbackEnvelope => []
  | .tagPulseWidth => []

/-- Every selector is an unsigned byte (R101, R103). -/
def Instr.selectorsFit (i : Instr) : Bool := i.selectors.all (· < 2 ^ 8)

/-- Every kind `I` operand is an unsigned 64-bit integer (R103). -/
def Instr.operandsFit (i : Instr) : Bool := i.indexOperands.all (· < 2 ^ 64)

/-- The instructions that an encoding stands for. -/
abbrev Instr.WellFormed (i : Instr) : Prop := i.selectorsFit = true ∧ i.operandsFit = true

end Sys2Proof
end

