-- ==== Sys2Proof/Decode.lean ====
section
/-! DEFINITION. Decoding of command words (`30_encoding.md` R100 to R107, `60_exceptions.md` R454) and of tag
characters (`49_song_codec.md` R412), and the encoder written from the same tables. -/

namespace Sys2Proof

/-- Bits `lo + len − 1` down to `lo` of a word, as a number. -/
def wordField (w : Word) (lo len : Nat) : Nat := w.toNat / 2 ^ lo % 2 ^ len

/-! Header fields (R101). -/

def headerOp (h : Word) : Nat := wordField h 56 8
def headerU (h : Word) : Nat := wordField h 48 8
def headerV (h : Word) : Nat := wordField h 40 8
def headerW (h : Word) : Nat := wordField h 32 8
def headerCount (h : Word) : Nat := wordField h 24 8
def headerZero (h : Word) : Nat := wordField h 0 24

/-- `hdr[63:32]`, the detail word of a fault (R453). -/
def headerInfo (h : Word) : BitVec 32 := BitVec.ofNat 32 (h.toNat / 2 ^ 32)

/-- Why words are not a command: the checks of R454 in their order, after the two cases in which the decoder waits
for words (R73). -/
inductive Reject where
  | noWord
  | incomplete
  | unknownOpcode
  | wrongCount
  | nonzeroZero
  | unusedSelector
deriving DecidableEq, Repr

/-- The opcode map (R107): for an opcode, how many selectors it uses (the first ones of `u`, `v`, `w`) and how many
operand words it has. -/
def opcodeShape (op : Nat) : Option (Nat × Nat) :=
  match op with
  | 0x01 => some (0, 0)
  | 0x02 => some (0, 0)
  | 0x03 => some (0, 0)
  | 0x04 => some (0, 0)
  | 0x05 => some (0, 1)
  | 0x06 => some (1, 1)
  | 0x07 => some (1, 0)
  | 0x08 => some (0, 0)
  | 0x09 => some (0, 0)
  | 0x0A => some (1, 1)
  | 0x0B => some (1, 0)
  | 0x0C => some (0, 2)
  | 0x0D => some (0, 1)
  | 0x0E => some (3, 1)
  | 0x0F => some (0, 0)
  | 0x20 => some (0, 1)
  | 0x21 => some (0, 0)
  | 0x22 => some (1, 0)
  | 0x23 => some (1, 0)
  | 0x24 => some (2, 0)
  | 0x25 => some (1, 0)
  | 0x26 => some (0, 0)
  | 0x27 => some (0, 0)
  | 0x30 => some (3, 11)
  | 0x31 => some (3, 1)
  | 0x32 => some (0, 1)
  | 0x33 => some (0, 1)
  | 0x34 => some (0, 2)
  | 0x35 => some (0, 2)
  | 0x36 => some (0, 2)
  | 0x37 => some (0, 2)
  | 0x38 => some (0, 1)
  | 0x39 => some (0, 1)
  | 0x3A => some (0, 1)
  | 0x3B => some (0, 1)
  | 0x3C => some (0, 3)
  | 0x40 => some (0, 4)
  | 0x41 => some (0, 4)
  | 0x42 => some (0, 4)
  | 0x43 => some (0, 4)
  | 0x44 => some (0, 4)
  | 0x45 => some (0, 4)
  | 0x46 => some (0, 4)
  | 0x47 => some (0, 4)
  | 0x48 => some (0, 4)
  | 0x49 => some (1, 1)
  | 0x4A => some (0, 1)
  | 0x4B => some (0, 2)
  | 0x4C => some (0, 2)
  | 0x4D => some (0, 1)
  | 0x50 => some (1, 0)
  | 0x51 => some (1, 1)
  | 0x52 => some (1, 0)
  | 0x53 => some (1, 0)
  | 0x54 => some (0, 3)
  | 0x60 => some (1, 1)
  | 0x61 => some (1, 1)
  | 0x62 => some (1, 1)
  | 0x63 => some (1, 1)
  | 0x64 => some (1, 1)
  | 0x65 => some (1, 1)
  | 0x66 => some (1, 1)
  | 0x67 => some (1, 1)
  | 0x68 => some (2, 0)
  | 0x70 => some (1, 1)
  | 0x71 => some (1, 1)
  | 0x72 => some (1, 1)
  | 0x73 => some (1, 1)
  | 0x74 => some (1, 2)
  | 0x75 => some (1, 2)
  | 0x76 => some (1, 2)
  | 0x77 => some (1, 0)
  | 0x80 => some (0, 2)
  | 0x81 => some (0, 1)
  | 0x82 => some (0, 0)
  | 0x83 => some (0, 0)
  | 0x84 => some (0, 0)
  | 0x85 => some (1, 0)
  | _ => none

/-- Five operand words from `i` on as a coefficient set, in the order a1, a2, b0, b1, b2 (R151). -/
def coefOperand (x : Nat → Word) (i : Nat) : CoefSet := ⟨⟨x i⟩, ⟨x (i + 1)⟩, ⟨x (i + 2)⟩, ⟨x (i + 3)⟩, ⟨x (i + 4)⟩⟩

/-- The instruction of an opcode, its selectors and its operand words `x 0`, `x 1`, … (R103, R107). -/
def buildCommand (op u v w : Nat) (x : Nat → Word) : Option Instr :=
  match op with
  | 0x01 => some .reset
  | 0x02 => some .play
  | 0x03 => some .pause
  | 0x04 => some .live
  | 0x05 => some (.run (x 0).toNat)
  | 0x06 => some (.cfgw u (x 0))
  | 0x07 => some (.cfgr u)
  | 0x08 => some .songLoad
  | 0x09 => some .songSet
  | 0x0A => some (.setr u ⟨x 0⟩)
  | 0x0B => some (.rdr u)
  | 0x0C => some (.wrw (x 0).toNat ⟨x 1⟩)
  | 0x0D => some (.rdw (x 0).toNat)
  | 0x0E => some (.rdm u v w (x 0).toNat)
  | 0x0F => some .sanitize
  | 0x20 => some (.ifft (x 0).toNat)
  | 0x21 => some .waveSine
  | 0x22 => some (.waveChip u)
  | 0x23 => some (.waveNoise u)
  | 0x24 => some (.waveSpectrum u v)
  | 0x25 => some (.waveHarmonics u)
  | 0x26 => some .waveImpulse
  | 0x27 => some .waveInval
  | 0x30 => some (.bqLoadgrad u v w (coefOperand x 0) (coefOperand x 5) ⟨x 10⟩)
  | 0x31 => some (.bqStep u v w ⟨x 0⟩)
  | 0x32 => some (.coefLp1 ⟨x 0⟩)
  | 0x33 => some (.coefHp1 ⟨x 0⟩)
  | 0x34 => some (.coefLp2 ⟨x 0⟩ ⟨x 1⟩)
  | 0x35 => some (.coefHp2 ⟨x 0⟩ ⟨x 1⟩)
  | 0x36 => some (.coefPeak ⟨x 0⟩ ⟨x 1⟩)
  | 0x37 => some (.coefHshelf1 ⟨x 0⟩ ⟨x 1⟩)
  | 0x38 => some (.coefAp1 ⟨x 0⟩)
  | 0x39 => some (.coefFdap ⟨x 0⟩)
  | 0x3A => some (.fptHz (x 0).toNat)
  | 0x3B => some (.fptGain (x 0).toNat)
  | 0x3C => some (.volcomp (x 0).toNat (x 1).toNat (x 2).toNat)
  | 0x40 => some (.envSteady ⟨x 0⟩ ⟨x 1⟩ ⟨x 2⟩ ⟨x 3⟩)
  | 0x41 => some (.envCustom ⟨x 0⟩ ⟨x 1⟩ ⟨x 2⟩ ⟨x 3⟩)
  | 0x42 => some (.envTwang ⟨x 0⟩ ⟨x 1⟩ ⟨x 2⟩ ⟨x 3⟩)
  | 0x43 => some (.envSwell ⟨x 0⟩ ⟨x 1⟩ ⟨x 2⟩ ⟨x 3⟩)
  | 0x44 => some (.envTremolo ⟨x 0⟩ ⟨x 1⟩ ⟨x 2⟩ ⟨x 3⟩)
  | 0x45 => some (.envTremolo2 ⟨x 0⟩ ⟨x 1⟩ ⟨x 2⟩ ⟨x 3⟩)
  | 0x46 => some (.envPunch ⟨x 0⟩ ⟨x 1⟩ ⟨x 2⟩ ⟨x 3⟩)
  | 0x47 => some (.envFlare ⟨x 0⟩ ⟨x 1⟩ ⟨x 2⟩ ⟨x 3⟩)
  | 0x48 => some (.envDecay ⟨x 0⟩ ⟨x 1⟩ ⟨x 2⟩ ⟨x 3⟩)
  | 0x49 => some (.lfo u ⟨x 0⟩)
  | 0x4A => some (.expr ⟨x 0⟩)
  | 0x4B => some (.relscale ⟨x 0⟩ ⟨x 1⟩)
  | 0x4C => some (.vibRamp ⟨x 0⟩ ⟨x 1⟩)
  | 0x4D => some (.pitchHz ⟨x 0⟩)
  | 0x50 => some (.toneNew u)
  | 0x51 => some (.toneCompute u (x 0).toNat)
  | 0x52 => some (.toneRelease u)
  | 0x53 => some (.toneFree u)
  | 0x54 => some (.arpIndex (x 0).toNat (x 1).toNat (x 2).toNat)
  | 0x60 => some (.synChip u (x 0).toNat)
  | 0x61 => some (.synFm u (x 0).toNat)
  | 0x62 => some (.synNoise u (x 0).toNat)
  | 0x63 => some (.synSpectrum u (x 0).toNat)
  | 0x64 => some (.synDrumset u (x 0).toNat)
  | 0x65 => some (.synHarmonics u (x 0).toNat)
  | 0x66 => some (.synPwm u (x 0).toNat)
  | 0x67 => some (.synGuitar u (x 0).toNat)
  | 0x68 => some (.gtrPluck u v)
  | 0x70 => some (.fxDistort u ⟨x 0⟩)
  | 0x71 => some (.fxBitcrush u ⟨x 0⟩)
  | 0x72 => some (.fxFilter u ⟨x 0⟩)
  | 0x73 => some (.fxPan u ⟨x 0⟩)
  | 0x74 => some (.fxChorus u ⟨x 0⟩ ⟨x 1⟩)
  | 0x75 => some (.fxReverb u ⟨x 0⟩ ⟨x 1⟩)
  | 0x76 => some (.fxRun u (x 0).toNat (x 1).toNat)
  | 0x77 => some (.fxTail u)
  | 0x80 => some (.limit ⟨x 0⟩ ⟨x 1⟩)
  | 0x81 => some (.clkAdv (x 0).toNat)
  | 0x82 => some .tickEnd
  | 0x83 => some .partEnd
  | 0x84 => some .barNext
  | 0x85 => some (.syncTones u)
  | _ => none

/-- The checks of R454 on a header, in their order. -/
def checkHeader (h : Word) : Except Reject (Nat × Nat) :=
  match opcodeShape (headerOp h) with
  | none => .error .unknownOpcode
  | some (used, count) =>
    if headerCount h ≠ count then .error .wrongCount
    else if headerZero h ≠ 0 then .error .nonzeroZero
    else if (used < 1 && headerU h != 0) || (used < 2 && headerV h != 0) || (used < 3 && headerW h != 0) then
      .error .unusedSelector
    else .ok (used, count)

/-- The decoder on the words of the command port: an instruction and the words after it, or why there is none. -/
def decodeCommand (words : List Word) : Except Reject (Instr × List Word) :=
  match words with
  | [] => .error .noWord
  | h :: rest =>
    if rest.length < headerCount h then .error .incomplete
    else
      match checkHeader h with
      | .error e => .error e
      | .ok _ =>
        match buildCommand (headerOp h) (headerU h) (headerV h) (headerW h) (fun i => rest.getD i 0#64) with
        | none => .error .unknownOpcode
        | some i => .ok (i, rest.drop (headerCount h))

/-- The words after the descriptor at the head of the port: "the decoder skips exactly the `n` words the header
announced" (R100). -/
def skipDescriptor (words : List Word) : List Word :=
  match words with
  | [] => []
  | h :: rest => rest.drop (headerCount h)

/-- The tag of a character (R412); none of the others is one. -/
def decodeTag (ch : Byte) : Option Instr :=
  match ch.toNat with
  | 0x61 => some .tagBeatsPerBar
  | 0x62 => some .tagBars
  | 0x63 => some .tagVibrato
  | 0x64 => some .tagTransition
  | 0x65 => some .tagLoopEnd
  | 0x66 => some .tagFilter
  | 0x67 => some .tagBarCount
  | 0x68 => some .tagInterval
  | 0x69 => some .tagInstrumentCount
  | 0x6A => some .tagPatternCount
  | 0x6B => some .tagKey
  | 0x6C => some .tagLoopStart
  | 0x6D => some .tagReverb
  | 0x6E => some .tagChannelCount
  | 0x6F => some .tagChannelOctave
  | 0x70 => some .tagPatterns
  | 0x71 => some .tagEffects
  | 0x72 => some .tagRhythm
  | 0x73 => some .tagScale
  | 0x74 => some .tagTempo
  | 0x75 => some .tagPreset
  | 0x76 => some .tagVolume
  | 0x77 => some .tagWave
  | 0x79 => some .tagFilterResonance
  | 0x7A => some .tagFilterEnvelope
  | 0x41 => some .tagAlgorithm
  | 0x42 => some .tagFeedbackAmplitude
  | 0x43 => some .tagChord
  | 0x44 => some .tagDistortion
  | 0x45 => some .tagOperatorEnvelopes
  | 0x46 => some .tagFeedbackType
  | 0x47 => some .tagDistortionFilter
  | 0x48 => some .tagHarmonics
  | 0x4C => some .tagPan
  | 0x50 => some .tagOperatorAmplitudes
  | 0x51 => some .tagOperatorFrequencies
  | 0x52 => some .tagBitcrusher
  | 0x53 => some .tagSpectrum
  | 0x54 => some .tagStartInstrument
  | 0x55 => some .tagSustain
  | 0x56 => some .tagFeedbackEnvelope
  | 0x57 => some .tagPulseWidth
  | _ => none

/-- What the decoder reads from an instruction whose bits are `w`, the first word in the low bits: a tag character
where the table gives 8 bits, else a command descriptor, its further words zero. -/
def decodeTableWord (nbits w : Nat) : Option Instr :=
  if nbits ≤ 8 then decodeTag (BitVec.ofNat 8 w)
  else
    match decodeCommand ((List.range ((nbits + 63) / 64)).map (fun i => BitVec.ofNat 64 (w / 2 ^ (64 * i)))
        ++ List.replicate (headerCount (BitVec.ofNat 64 w)) 0#64) with
    | .ok (i, _) => some i
    | .error _ => none

/-! The encoder. -/

/-- The opcode of a command (R107), none for a tag. -/
def Instr.opcode (i : Instr) : Option Nat :=
  match i with
  | .reset => some 0x01
  | .play => some 0x02
  | .pause => some 0x03
  | .live => some 0x04
  | .run _ => some 0x05
  | .cfgw _ _ => some 0x06
  | .cfgr _ => some 0x07
  | .songLoad => some 0x08
  | .songSet => some 0x09
  | .setr _ _ => some 0x0A
  | .rdr _ => some 0x0B
  | .wrw _ _ => some 0x0C
  | .rdw _ => some 0x0D
  | .rdm _ _ _ _ => some 0x0E
  | .sanitize => some 0x0F
  | .ifft _ => some 0x20
  | .waveSine => some 0x21
  | .waveChip _ => some 0x22
  | .waveNoise _ => some 0x23
  | .waveSpectrum _ _ => some 0x24
  | .waveHarmonics _ => some 0x25
  | .waveImpulse => some 0x26
  | .waveInval => some 0x27
  | .bqLoadgrad _ _ _ _ _ _ => some 0x30
  | .bqStep _ _ _ _ => some 0x31
  | .coefLp1 _ => some 0x32
  | .coefHp1 _ => some 0x33
  | .coefLp2 _ _ => some 0x34
  | .coefHp2 _ _ => some 0x35
  | .coefPeak _ _ => some 0x36
  | .coefHshelf1 _ _ => some 0x37
  | .coefAp1 _ => some 0x38
  | .coefFdap _ => some 0x39
  | .fptHz _ => some 0x3A
  | .fptGain _ => some 0x3B
  | .volcomp _ _ _ => some 0x3C
  | .envSteady _ _ _ _ => some 0x40
  | .envCustom _ _ _ _ => some 0x41
  | .envTwang _ _ _ _ => some 0x42
  | .envSwell _ _ _ _ => some 0x43
  | .envTremolo _ _ _ _ => some 0x44
  | .envTremolo2 _ _ _ _ => some 0x45
  | .envPunch _ _ _ _ => some 0x46
  | .envFlare _ _ _ _ => some 0x47
  | .envDecay _ _ _ _ => some 0x48
  | .lfo _ _ => some 0x49
  | .expr _ => some 0x4A
  | .relscale _ _ => some 0x4B
  | .vibRamp _ _ => some 0x4C
  | .pitchHz _ => some 0x4D
  | .toneNew _ => some 0x50
  | .toneCompute _ _ => some 0x51
  | .toneRelease _ => some 0x52
  | .toneFree _ => some 0x53
  | .arpIndex _ _ _ => some 0x54
  | .synChip _ _ => some 0x60
  | .synFm _ _ => some 0x61
  | .synNoise _ _ => some 0x62
  | .synSpectrum _ _ => some 0x63
  | .synDrumset _ _ => some 0x64
  | .synHarmonics _ _ => some 0x65
  | .synPwm _ _ => some 0x66
  | .synGuitar _ _ => some 0x67
  | .gtrPluck _ _ => some 0x68
  | .fxDistort _ _ => some 0x70
  | .fxBitcrush _ _ => some 0x71
  | .fxFilter _ _ => some 0x72
  | .fxPan _ _ => some 0x73
  | .fxChorus _ _ _ => some 0x74
  | .fxReverb _ _ _ => some 0x75
  | .fxRun _ _ _ => some 0x76
  | .fxTail _ => some 0x77
  | .limit _ _ => some 0x80
  | .clkAdv _ => some 0x81
  | .tickEnd => some 0x82
  | .partEnd => some 0x83
  | .barNext => some 0x84
  | .syncTones _ => some 0x85
  | .tagBeatsPerBar => none
  | .tagBars => none
  | .tagVibrato => none
  | .tagTransition => none
  | .tagLoopEnd => none
  | .tagFilter => none
  | .tagBarCount => none
  | .tagInterval => none
  | .tagInstrumentCount => none
  | .tagPatternCount => none
  | .tagKey => none
  | .tagLoopStart => none
  | .tagReverb => none
  | .tagChannelCount => none
  | .tagChannelOctave => none
  | .tagPatterns => none
  | .tagEffects => none
  | .tagRhythm => none
  | .tagScale => none
  | .tagTempo => none
  | .tagPreset => none
  | .tagVolume => none
  | .tagWave => none
  | .tagFilterResonance => none
  | .tagFilterEnvelope => none
  | .tagAlgorithm => none
  | .tagFeedbackAmplitude => none
  | .tagChord => none
  | .tagDistortion => none
  | .tagOperatorEnvelopes => none
  | .tagFeedbackType => none
  | .tagDistortionFilter => none
  | .tagHarmonics => none
  | .tagPan => none
  | .tagOperatorAmplitudes => none
  | .tagOperatorFrequencies => none
  | .tagBitcrusher => none
  | .tagSpectrum => none
  | .tagStartInstrument => none
  | .tagSustain => none
  | .tagFeedbackEnvelope => none
  | .tagPulseWidth => none

/-- The character of a tag (R412), none for a command. -/
def Instr.tagCode (i : Instr) : Option Nat :=
  match i with
  | .reset => none
  | .play => none
  | .pause => none
  | .live => none
  | .run _ => none
  | .cfgw _ _ => none
  | .cfgr _ => none
  | .songLoad => none
  | .songSet => none
  | .setr _ _ => none
  | .rdr _ => none
  | .wrw _ _ => none
  | .rdw _ => none
  | .rdm _ _ _ _ => none
  | .sanitize => none
  | .ifft _ => none
  | .waveSine => none
  | .waveChip _ => none
  | .waveNoise _ => none
  | .waveSpectrum _ _ => none
  | .waveHarmonics _ => none
  | .waveImpulse => none
  | .waveInval => none
  | .bqLoadgrad _ _ _ _ _ _ => none
  | .bqStep _ _ _ _ => none
  | .coefLp1 _ => none
  | .coefHp1 _ => none
  | .coefLp2 _ _ => none
  | .coefHp2 _ _ => none
  | .coefPeak _ _ => none
  | .coefHshelf1 _ _ => none
  | .coefAp1 _ => none
  | .coefFdap _ => none
  | .fptHz _ => none
  | .fptGain _ => none
  | .volcomp _ _ _ => none
  | .envSteady _ _ _ _ => none
  | .envCustom _ _ _ _ => none
  | .envTwang _ _ _ _ => none
  | .envSwell _ _ _ _ => none
  | .envTremolo _ _ _ _ => none
  | .envTremolo2 _ _ _ _ => none
  | .envPunch _ _ _ _ => none
  | .envFlare _ _ _ _ => none
  | .envDecay _ _ _ _ => none
  | .lfo _ _ => none
  | .expr _ => none
  | .relscale _ _ => none
  | .vibRamp _ _ => none
  | .pitchHz _ => none
  | .toneNew _ => none
  | .toneCompute _ _ => none
  | .toneRelease _ => none
  | .toneFree _ => none
  | .arpIndex _ _ _ => none
  | .synChip _ _ => none
  | .synFm _ _ => none
  | .synNoise _ _ => none
  | .synSpectrum _ _ => none
  | .synDrumset _ _ => none
  | .synHarmonics _ _ => none
  | .synPwm _ _ => none
  | .synGuitar _ _ => none
  | .gtrPluck _ _ => none
  | .fxDistort _ _ => none
  | .fxBitcrush _ _ => none
  | .fxFilter _ _ => none
  | .fxPan _ _ => none
  | .fxChorus _ _ _ => none
  | .fxReverb _ _ _ => none
  | .fxRun _ _ _ => none
  | .fxTail _ => none
  | .limit _ _ => none
  | .clkAdv _ => none
  | .tickEnd => none
  | .partEnd => none
  | .barNext => none
  | .syncTones _ => none
  | .tagBeatsPerBar => some 0x61
  | .tagBars => some 0x62
  | .tagVibrato => some 0x63
  | .tagTransition => some 0x64
  | .tagLoopEnd => some 0x65
  | .tagFilter => some 0x66
  | .tagBarCount => some 0x67
  | .tagInterval => some 0x68
  | .tagInstrumentCount => some 0x69
  | .tagPatternCount => some 0x6A
  | .tagKey => some 0x6B
  | .tagLoopStart => some 0x6C
  | .tagReverb => some 0x6D
  | .tagChannelCount => some 0x6E
  | .tagChannelOctave => some 0x6F
  | .tagPatterns => some 0x70
  | .tagEffects => some 0x71
  | .tagRhythm => some 0x72
  | .tagScale => some 0x73
  | .tagTempo => some 0x74
  | .tagPreset => some 0x75
  | .tagVolume => some 0x76
  | .tagWave => some 0x77
  | .tagFilterResonance => some 0x79
  | .tagFilterEnvelope => some 0x7A
  | .tagAlgorithm => some 0x41
  | .tagFeedbackAmplitude => some 0x42
  | .tagChord => some 0x43
  | .tagDistortion => some 0x44
  | .tagOperatorEnvelopes => some 0x45
  | .tagFeedbackType => some 0x46
  | .tagDistortionFilter => some 0x47
  | .tagHarmonics => some 0x48
  | .tagPan => some 0x4C
  | .tagOperatorAmplitudes => some 0x50
  | .tagOperatorFrequencies => some 0x51
  | .tagBitcrusher => some 0x52
  | .tagSpectrum => some 0x53
  | .tagStartInstrument => some 0x54
  | .tagSustain => some 0x55
  | .tagFeedbackEnvelope => some 0x56
  | .tagPulseWidth => some 0x57

/-- The operand words of a coefficient set. -/
def coefWords (k : CoefSet) : List Word := [k.a1.bits, k.a2.bits, k.b0.bits, k.b1.bits, k.b2.bits]

/-- The operand words of a command, in their order (R103, R107). -/
def Instr.operandWords (i : Instr) : List Word :=
  match i with
  | .reset => []
  | .play => []
  | .pause => []
  | .live => []
  | .run count => [BitVec.ofNat 64 count]
  | .cfgw _ value => [value]
  | .cfgr _ => []
  | .songLoad => []
  | .songSet => []
  | .setr _ value => [value.bits]
  | .rdr _ => []
  | .wrw index value => [BitVec.ofNat 64 index, value.bits]
  | .rdw index => [BitVec.ofNat 64 index]
  | .rdm _ _ _ index => [BitVec.ofNat 64 index]
  | .sanitize => []
  | .ifft size => [BitVec.ofNat 64 size]
  | .waveSine => []
  | .waveChip _ => []
  | .waveNoise _ => []
  | .waveSpectrum _ _ => []
  | .waveHarmonics _ => []
  | .waveImpulse => []
  | .waveInval => []
  | .bqLoadgrad _ _ _ start finish invN => coefWords start ++ coefWords finish ++ [invN.bits]
  | .bqStep _ _ _ x => [x.bits]
  | .coefLp1 omega => [omega.bits]
  | .coefHp1 omega => [omega.bits]
  | .coefLp2 omega gain => [omega.bits, gain.bits]
  | .coefHp2 omega gain => [omega.bits, gain.bits]
  | .coefPeak omega gain => [omega.bits, gain.bits]
  | .coefHshelf1 omega shelfGain => [omega.bits, shelfGain.bits]
  | .coefAp1 omega => [omega.bits]
  | .coefFdap d => [d.bits]
  | .fptHz freq => [BitVec.ofNat 64 freq]
  | .fptGain gain => [BitVec.ofNat 64 gain]
  | .volcomp kind freq gain => [BitVec.ofNat 64 kind, BitVec.ofNat 64 freq, BitVec.ofNat 64 gain]
  | .envSteady t beats speed noteExpression => [t.bits, beats.bits, speed.bits, noteExpression.bits]
  | .envCustom t beats speed noteExpression => [t.bits, beats.bits, speed.bits, noteExpression.bits]
  | .envTwang t beats speed noteExpression => [t.bits, beats.bits, speed.bits, noteExpression.bits]
  | .envSwell t beats speed noteExpression => [t.bits, beats.bits, speed.bits, noteExpression.bits]
  | .envTremolo t beats speed noteExpression => [t.bits, beats.bits, speed.bits, noteExpression.bits]
  | .envTremolo2 t beats speed noteExpression => [t.bits, beats.bits, speed.bits, noteExpression.bits]
  | .envPunch t beats speed noteExpression => [t.bits, beats.bits, speed.bits, noteExpression.bits]
  | .envFlare t beats speed noteExpression => [t.bits, beats.bits, speed.bits, noteExpression.bits]
  | .envDecay t beats speed noteExpression => [t.bits, beats.bits, speed.bits, noteExpression.bits]
  | .lfo _ tau => [tau.bits]
  | .expr x => [x.bits]
  | .relscale ticksSinceReleased releaseTicks => [ticksSinceReleased.bits, releaseTicks.bits]
  | .vibRamp ticks delayTicks => [ticks.bits, delayTicks.bits]
  | .pitchHz pitch => [pitch.bits]
  | .toneNew _ => []
  | .toneCompute _ runLength => [BitVec.ofNat 64 runLength]
  | .toneRelease _ => []
  | .toneFree _ => []
  | .arpIndex pitchCount rhythm arpStep => [BitVec.ofNat 64 pitchCount, BitVec.ofNat 64 rhythm, BitVec.ofNat 64 arpStep]
  | .synChip _ runLength => [BitVec.ofNat 64 runLength]
  | .synFm _ runLength => [BitVec.ofNat 64 runLength]
  | .synNoise _ runLength => [BitVec.ofNat 64 runLength]
  | .synSpectrum _ runLength => [BitVec.ofNat 64 runLength]
  | .synDrumset _ runLength => [BitVec.ofNat 64 runLength]
  | .synHarmonics _ runLength => [BitVec.ofNat 64 runLength]
  | .synPwm _ runLength => [BitVec.ofNat 64 runLength]
  | .synGuitar _ runLength => [BitVec.ofNat 64 runLength]
  | .gtrPluck _ _ => []
  | .fxDistort _ x => [x.bits]
  | .fxBitcrush _ x => [x.bits]
  | .fxFilter _ x => [x.bits]
  | .fxPan _ x => [x.bits]
  | .fxChorus _ left right => [left.bits, right.bits]
  | .fxReverb _ left right => [left.bits, right.bits]
  | .fxRun _ pos runLength => [BitVec.ofNat 64 pos, BitVec.ofNat 64 runLength]
  | .fxTail _ => []
  | .limit left right => [left.bits, right.bits]
  | .clkAdv runLength => [BitVec.ofNat 64 runLength]
  | .tickEnd => []
  | .partEnd => []
  | .barNext => []
  | .syncTones _ => []
  | .tagBeatsPerBar => []
  | .tagBars => []
  | .tagVibrato => []
  | .tagTransition => []
  | .tagLoopEnd => []
  | .tagFilter => []
  | .tagBarCount => []
  | .tagInterval => []
  | .tagInstrumentCount => []
  | .tagPatternCount => []
  | .tagKey => []
  | .tagLoopStart => []
  | .tagReverb => []
  | .tagChannelCount => []
  | .tagChannelOctave => []
  | .tagPatterns => []
  | .tagEffects => []
  | .tagRhythm => []
  | .tagScale => []
  | .tagTempo => []
  | .tagPreset => []
  | .tagVolume => []
  | .tagWave => []
  | .tagFilterResonance => []
  | .tagFilterEnvelope => []
  | .tagAlgorithm => []
  | .tagFeedbackAmplitude => []
  | .tagChord => []
  | .tagDistortion => []
  | .tagOperatorEnvelopes => []
  | .tagFeedbackType => []
  | .tagDistortionFilter => []
  | .tagHarmonics => []
  | .tagPan => []
  | .tagOperatorAmplitudes => []
  | .tagOperatorFrequencies => []
  | .tagBitcrusher => []
  | .tagSpectrum => []
  | .tagStartInstrument => []
  | .tagSustain => []
  | .tagFeedbackEnvelope => []
  | .tagPulseWidth => []

/-- A header word (R101). -/
def headerWord (op u v w n : Nat) : Word :=
  BitVec.ofNat 64 (op * 2 ^ 56 + u * 2 ^ 48 + v * 2 ^ 40 + w * 2 ^ 32 + n * 2 ^ 24)

/-- The header of a command; of a tag, which has none, zero. -/
def Instr.header (i : Instr) : Word :=
  match i.opcode with
  | none => 0#64
  | some op => headerWord op (i.selectors.getD 0 0) (i.selectors.getD 1 0) (i.selectors.getD 2 0) i.operandWords.length

/-- The words of a command: its header and its operand words; of a tag, one word that holds its character. -/
def encode (i : Instr) : List Word :=
  match i.tagCode with
  | some ch => [BitVec.ofNat 64 ch]
  | none => i.header :: i.operandWords

end Sys2Proof
end

