-- ==== Sys2Proof/Machine/Float.lean ====
section
/-! DEFINITION. The arithmetic of `Num` (`00_scope.md` R7): IEEE 754 binary64 with round-to-nearest-even on the bit
patterns, computed exactly in integers and narrowed once at the end. A NaN result is a NaN of open sign and payload
(`Config.nanBits`), because "which NaN (sign and payload) is unspecified". -/

namespace Sys2Proof

/-- Any NaN pattern, one for each `w` (every NaN pattern is the image of itself). [DESIGN CHOICE, assumption 1] -/
def nanPattern (w : BitVec 64) : BitVec 64 :=
  let x := w ||| 0x7FF0000000000000#64
  if x.toNat % 2 ^ 52 = 0 then x ||| 0x0008000000000000#64 else x

/-- The NaN that an operation on the patterns `a` and `b` gives (R7, U28). [DESIGN CHOICE, assumption 1] -/
def Num.nanOf (a b : BitVec 64) : Num := ⟨nanPattern (Config.nanBits a b)⟩

def Num.sign (x : Num) : Bool := decide (2 ^ 63 ≤ x.bits.toNat)

def Num.expField (x : Num) : Nat := x.bits.toNat / 2 ^ 52 % 2 ^ 11

def Num.fracField (x : Num) : Nat := x.bits.toNat % 2 ^ 52

def Num.isNaN (x : Num) : Bool := x.expField == 2047 && x.fracField != 0

def Num.isInf (x : Num) : Bool := x.expField == 2047 && x.fracField == 0

def Num.isFinite (x : Num) : Bool := x.expField != 2047

/-- The integer significand of a finite `Num`: its value is `± mant * 2 ^ scale`. -/
def Num.mant (x : Num) : Nat := if x.expField = 0 then x.fracField else x.fracField + 2 ^ 52

def Num.scale (x : Num) : Int := (max x.expField 1 : Nat) - 1075

/-- The significand with its sign. -/
def Num.signedMant (x : Num) : Int := if x.sign then -(x.mant : Int) else x.mant

/-- `2 ^ e` as a natural number, 1 for a negative `e`. -/
def pow2 (e : Int) : Nat := 2 ^ e.toNat

/-- A finite `Num` in units of `2^−1074`. -/
def Num.units (x : Num) : Int := x.signedMant * pow2 (x.scale + 1074)

/-- `m / 2 ^ k` rounded to the nearest integer, ties to even. -/
def roundShift (m k : Nat) : Nat :=
  let q := m / 2 ^ k
  let r := 2 * (m % 2 ^ k)
  if r > 2 ^ k then q + 1 else if r = 2 ^ k then q + q % 2 else q

/-- The magnitude bits of `m * 2 ^ e` rounded to nearest-even: `prec` bits of significand, least unit `2 ^ qmin`,
infinity at the pattern `top`. -/
def roundMag (prec : Nat) (qmin : Int) (top : Nat) (m : Nat) (e : Int) : Nat :=
  if m = 0 then 0
  else
    let q := max (e + (Nat.log2 m + 1 : Nat) - (prec : Int)) qmin
    let r := if q ≤ e then m * pow2 (e - q) else roundShift m (q - e).toNat
    min ((q - qmin).toNat * 2 ^ (prec - 1) + r) top

/-- `± m * 2 ^ e` rounded to `Num`. -/
def Num.round (sign : Bool) (m : Nat) (e : Int) : Num :=
  ⟨BitVec.ofNat 64 ((if sign then 2 ^ 63 else 0) + roundMag 53 (-1074) 0x7FF0000000000000 m e)⟩

/-- Zero with a sign. -/
def Num.zeroOf (sign : Bool) : Num := ⟨if sign then 0x8000000000000000#64 else 0#64⟩

def Num.infOf (sign : Bool) : Num := ⟨if sign then 0xFFF0000000000000#64 else 0x7FF0000000000000#64⟩

/-- The greatest finite `Num` with a sign. -/
def Num.largest (sign : Bool) : Num := ⟨if sign then 0xFFEFFFFFFFFFFFFF#64 else 0x7FEFFFFFFFFFFFFF#64⟩

def Num.zero : Num := ⟨0#64⟩

def Num.one : Num := ⟨0x3FF0000000000000#64⟩

def Num.two : Num := ⟨0x4000000000000000#64⟩

def Num.half : Num := ⟨0x3FE0000000000000#64⟩

/-- An integer as a `Num` (rounded where it has more than 53 bits). -/
def Num.ofInt (i : Int) : Num := Num.round (decide (i < 0)) i.natAbs 0

def Num.ofNat (n : Nat) : Num := Num.round false n 0

/-- The `Num` nearest to `n / d`: a decimal literal of a rule, or a fraction of two constants. -/
def Num.ofRat (n : Int) (d : Nat) : Num :=
  let k := Nat.log2 d + 130
  let m := n.natAbs * 2 ^ k
  Num.round (decide (n < 0)) (2 * (m / d) + (if m % d = 0 then 0 else 1)) (-(k : Int) - 1)

def Num.neg (x : Num) : Num := if x.isNaN then Num.nanOf x.bits x.bits else ⟨x.bits ^^^ 0x8000000000000000#64⟩

def Num.abs (x : Num) : Num := if x.isNaN then Num.nanOf x.bits x.bits else ⟨x.bits &&& 0x7FFFFFFFFFFFFFFF#64⟩

def Num.add (x y : Num) : Num :=
  if x.isNaN || y.isNaN then Num.nanOf x.bits y.bits
  else if x.isInf then (if y.isInf && (x.sign != y.sign) then Num.nanOf x.bits y.bits else x)
  else if y.isInf then y
  else
    let e := min x.scale y.scale
    let v := x.signedMant * pow2 (x.scale - e) + y.signedMant * pow2 (y.scale - e)
    if v = 0 then Num.zeroOf (x.sign && y.sign) else Num.round (decide (v < 0)) v.natAbs e

def Num.sub (x y : Num) : Num :=
  if x.isNaN || y.isNaN then Num.nanOf x.bits y.bits else Num.add x y.neg

def Num.mul (x y : Num) : Num :=
  if x.isNaN || y.isNaN then Num.nanOf x.bits y.bits
  else if x.isInf || y.isInf then
    (if (x.isFinite && x.mant == 0) || (y.isFinite && y.mant == 0) then Num.nanOf x.bits y.bits
     else Num.infOf (x.sign != y.sign))
  else Num.round (x.sign != y.sign) (x.mant * y.mant) (x.scale + y.scale)

def Num.div (x y : Num) : Num :=
  if x.isNaN || y.isNaN then Num.nanOf x.bits y.bits
  else if x.isInf then (if y.isInf then Num.nanOf x.bits y.bits else Num.infOf (x.sign != y.sign))
  else if y.isInf then Num.zeroOf (x.sign != y.sign)
  else if y.mant = 0 then (if x.mant = 0 then Num.nanOf x.bits y.bits else Num.infOf (x.sign != y.sign))
  else
    let m := x.mant * 2 ^ 120
    Num.round (x.sign != y.sign) (2 * (m / y.mant) + (if m % y.mant = 0 then 0 else 1)) (x.scale - y.scale - 121)

/-- The integer square root, one bit of the answer at a time. -/
def isqrtFrom (n : Nat) : Nat → Nat → Nat
  | 0, r => r
  | b + 1, r => isqrtFrom n b (if (r + 2 ^ b) * (r + 2 ^ b) ≤ n then r + 2 ^ b else r)

def isqrt (n : Nat) : Nat := isqrtFrom n (Nat.log2 n / 2 + 1) 0

def Num.sqrt (x : Num) : Num :=
  if x.isNaN then Num.nanOf x.bits x.bits
  else if x.isFinite && x.mant == 0 then x
  else if x.sign then Num.nanOf x.bits x.bits
  else if x.isInf then x
  else
    let odd := x.scale % 2
    let m := x.mant * 2 ^ (120 + odd.toNat)
    let r := isqrt m
    Num.round false (2 * r + (if r * r = m then 0 else 1)) ((x.scale - odd) / 2 - 61)

/-- The place of a value that is no NaN on the number line; the two zeros stand at one place. -/
def Num.key (x : Num) : Int := if x.sign then -((x.bits.toNat % 2 ^ 63 : Nat) : Int) else (x.bits.toNat % 2 ^ 63 : Nat)

def Num.lt (x y : Num) : Bool := !x.isNaN && !y.isNaN && decide (x.key < y.key)

def Num.le (x y : Num) : Bool := !x.isNaN && !y.isNaN && decide (x.key ≤ y.key)

def Num.eq (x y : Num) : Bool := !x.isNaN && !y.isNaN && decide (x.key = y.key)

/-- `max`; of a NaN operand or of two zeros of opposite sign the operand answered is open.
[DESIGN CHOICE, assumption 17] -/
def Num.max (x y : Num) : Num :=
  if x.lt y then y else if y.lt x then x
  else if x.bits = y.bits then x else if Config.nanPick x.bits y.bits then x else y

def Num.min (x y : Num) : Num :=
  if x.lt y then x else if y.lt x then y
  else if x.bits = y.bits then x else if Config.nanPick x.bits y.bits then x else y

/-- `clamp(lo, hi, v) = max(lo, min(hi, v))` (R6). [DESIGN CHOICE, assumption 17] -/
def Num.clamp (lo hi v : Num) : Num := Num.max lo (Num.min hi v)

/-- `floor` as an integer; of a NaN or an infinity it is open. [DESIGN CHOICE, assumption 16] -/
def Num.floorInt (x : Num) : Int :=
  if x.isFinite then
    (if 0 ≤ x.scale then x.signedMant * pow2 x.scale else x.signedMant / (pow2 (-x.scale) : Int))
  else Config.freeInt x.bits

/-- `ceil` as an integer. [DESIGN CHOICE, assumption 16] -/
def Num.ceilInt (x : Num) : Int := if x.isFinite then -(Num.floorInt ⟨x.bits ^^^ 0x8000000000000000#64⟩)
  else Config.freeInt x.bits

/-- `floor` as a `Num`: exact, keeps the sign of a zero and passes infinities. [DESIGN CHOICE, assumption 16] -/
def Num.floor (x : Num) : Num :=
  if x.isNaN then Num.nanOf x.bits x.bits
  else if x.isInf || x.mant == 0 then x
  else
    let i := x.floorInt
    if i = 0 then Num.zeroOf x.sign else Num.ofInt i

/-- `x − floor(x)`. -/
def Num.fract (x : Num) : Num := x.sub x.floor

/-- `round32`: to binary32, nearest-even; keeps subnormals, overflow to infinity, a NaN to some NaN (R7).
[DESIGN CHOICE, assumption 1] -/
def Num.round32 (x : Num) : Single :=
  let s : Nat := if x.sign then 2 ^ 31 else 0
  if x.isNaN then
    let n := (Config.nanBits x.bits x.bits).toNat % 2 ^ 32 ||| 0x7F800000
    BitVec.ofNat 32 (if n % 2 ^ 23 = 0 then n ||| 0x400000 else n)
  else if x.isInf then BitVec.ofNat 32 (s + 0x7F800000)
  else BitVec.ofNat 32 (s + roundMag 24 (-149) 0x7F800000 x.mant x.scale)

/-- The pattern that a response word carries for a value: "a response word that carries a NaN may carry any NaN
pattern" (R7). [DESIGN CHOICE, assumption 1] -/
def Num.response (x : Num) : Word := if x.isNaN then nanPattern (Config.nanResponse x.bits) else x.bits

/-- Whether a bit pattern is plus zero, the element that the zeroed memories do not list. -/
def Num.isPlusZero (x : Num) : Bool := x.bits == 0#64

end Sys2Proof
end

