-- ==== Sys2Proof/Machine/Memory.lean ====
section
/-! DEFINITION. Element-addressed memory (`20_memory.md` R70, R71): a list of (index, element) pairs with indices
strictly rising. `dflt` is what an unlisted element reads as: `some v` for a space that the spec zeroes (rings and
`SCRATCH`, R33, R40), where no entry equals `v`; `none` for a space whose unwritten elements the spec leaves
unspecified (`WORK`, the mix and output buffers, U2, U3), where every written element is listed and an unlisted one
reads as a free value. -/

namespace Sys2Proof

def Memory.find {α : Type} (m : Memory α) (i : Nat) : Option α :=
  match m with
  | [] => none
  | (j, v) :: t => if i = j then some v else if i < j then none else Memory.find t i

/-- The memory with element `i` unlisted. -/
def Memory.drop {α : Type} (m : Memory α) (i : Nat) : Memory α :=
  match m with
  | [] => []
  | (j, v) :: t => if i = j then t else if i < j then (j, v) :: t else (j, v) :: Memory.drop t i

/-- The memory with element `i` listed as `v`. -/
def Memory.put {α : Type} (m : Memory α) (i : Nat) (v : α) : Memory α :=
  match m with
  | [] => [(i, v)]
  | (j, w) :: t => if i = j then (j, v) :: t else if i < j then (i, v) :: (j, w) :: t else (j, w) :: Memory.put t i v

/-- A write of one element; writing what an unlisted element reads as removes the entry.
[DESIGN CHOICE, assumption 2] -/
def Memory.write {α : Type} [DecidableEq α] (dflt : Option α) (m : Memory α) (i : Nat) (v : α) : Memory α :=
  if dflt = some v then Memory.drop m i else Memory.put m i v

/-- Every index of `m` is at least `lo`, and the indices rise. -/
def Memory.sortedFrom {α : Type} (lo : Nat) (m : Memory α) : Bool :=
  match m with
  | [] => true
  | (j, _) :: t => decide (lo ≤ j) && Memory.sortedFrom (j + 1) t

/-- The canonical form. [DESIGN CHOICE, assumption 2] -/
def Memory.wf {α : Type} [DecidableEq α] (dflt : Option α) (m : Memory α) : Bool :=
  Memory.sortedFrom 0 m && m.all (fun p => decide (dflt ≠ some p.2))

/-- The memory that lists exactly the elements of a list, from index `i` on. -/
def Memory.ofListFrom {α : Type} [DecidableEq α] (dflt : Option α) (i : Nat) (l : List α) : Memory α :=
  match l with
  | [] => []
  | v :: t => if dflt = some v then Memory.ofListFrom dflt (i + 1) t
      else (i, v) :: Memory.ofListFrom dflt (i + 1) t

/-- `ring[i & (Z − 1)]` for any integer `i` (R74): `Z` is a power of two, so the mask is the remainder. -/
def ringIndex (size : Nat) (i : Int) : Nat := (i % (size : Int)).toNat

/-- A zeroed space of `Num` (a ring, `SCRATCH`): unlisted elements read as +0. [DESIGN CHOICE, assumption 2] -/
def Memory.getNum (m : Memory Num) (i : Nat) : Num := (Memory.find m i).getD Num.zero

def Memory.setNum (m : Memory Num) (i : Nat) (v : Num) : Memory Num := Memory.write (some Num.zero) m i v

/-- The canonical form of a zeroed space. -/
def Memory.numWf (m : Memory Num) : Bool := Memory.wf (some Num.zero) m

/-- A ring element at an integer index, masked. -/
def ringGet (m : Memory Num) (size : Nat) (i : Int) : Num := Memory.getNum m (ringIndex size i)

def ringSet (m : Memory Num) (size : Nat) (i : Int) (v : Num) : Memory Num := Memory.setNum m (ringIndex size i) v

/-- A fractional tap by linear interpolation (R76). -/
def fractionalTap (m : Memory Num) (size : Nat) (p : Num) : Num :=
  let i := p.floorInt
  let f := p.sub p.floor
  let x := ringGet m size i
  let y := ringGet m size (i + 1)
  x.add ((y.sub x).mul f)

/-- Table reads (R77) on a wave of length `L` with `L + 1` stored elements. -/
def tableIndex (length : Nat) (p : Num) : Nat := (p.floorInt % (length : Int)).toNat

/-- A non-finite phase names no element: the read is a NaN, which "propagates into `SCRATCH`" (R266).
[DESIGN CHOICE, assumption 16] -/
def nearestRead (data : List Num) (length : Nat) (p : Num) : Num :=
  if p.isFinite then data.getD (tableIndex length p) Num.zero else Num.nanOf p.bits p.bits

def interpolatedRead (data : List Num) (length : Nat) (p : Num) : Num :=
  let i := tableIndex length p
  let f := p.sub p.floor
  let x := data.getD i Num.zero
  let y := data.getD (i + 1) Num.zero
  x.add ((y.sub x).mul f)

end Sys2Proof
end

