-- ==== Sys2Proof/Machine/RealFunctions.lean ====
section
/-! DEFINITION. The real value that a library function of `Numerics` has to lie next to: "each result lies within one
unit in the last place of the real value" (`00_scope.md` R7). The real value is enclosed in integers: `m * 2 ^ e` with
an error far below one unit in the last place, so that a value of the configuration is kept when it is near enough and
replaced by the enclosed value, rounded, when it is not. [DESIGN CHOICE, assumption 11] -/

namespace Sys2Proof

/-- How many bits stand after the point of an enclosure. -/
def realBits : Nat := 1300

/-- How many of them the constant π has: enough to bring every finite `Num` into one period. -/
def piBits : Nat := 2600

/-- The error, in the last bits of an enclosure, that is granted to it. -/
def realSlack : Nat := 2 ^ 160

/-- `Σ ± 2 ^ bits / (k × n ^ k)` over the odd `k`: `power` is `2 ^ bits / n ^ k`. -/
def arcSeries (n : Nat) (alternate : Bool) : Nat → Nat → Nat → Int → Int
  | 0, _, _, acc => acc
  | fuel + 1, power, k, acc =>
    let t : Int := (power / k : Nat)
    arcSeries n alternate fuel (power / (n * n)) (k + 2) (if alternate && k % 4 == 3 then acc - t else acc + t)

/-- The arc tangent (or, not alternating, the area tangent) of `1 / n`, with `bits` bits. -/
def arcOf (n : Nat) (alternate : Bool) (bits : Nat) : Int :=
  arcSeries n alternate bits (2 ^ bits / n) 1 0

/-- π by Machin's formula. -/
def realPi : Nat := (16 * arcOf 5 true piBits - 4 * arcOf 239 true piBits).toNat

/-- `ln 2`. -/
def realLn2 : Int := 2 * arcOf 3 false realBits

/-- `x` times `y` in fixed point. -/
def realMul (x y : Int) : Int := x * y / 2 ^ realBits

/-- `Σ ± z ^ k / k!` over every `step`-th `k`: `term` is the term reached. -/
def powerSeries (z : Int) (step : Nat) (alternate : Bool) : Nat → Int → Nat → Int → Int
  | 0, _, _, acc => acc
  | fuel + 1, term, k, acc =>
    let next := if step = 2 then realMul (realMul term z) z / (((k + 1) * (k + 2) : Nat) : Int)
      else realMul term z / ((k + 1 : Nat) : Int)
    powerSeries z step alternate fuel (if alternate then -next else next) (k + step) (acc + term)

/-- A finite magnitude brought into `[0, 2π)`. -/
def reduceAngle (x : Num) : Int :=
  let whole := x.mant * 2 ^ (x.scale + (piBits : Int)).toNat
  ((whole % (2 * realPi) / 2 ^ (piBits - realBits) : Nat) : Int)

def realSin (x : Num) : Int :=
  let z := reduceAngle x
  let s := powerSeries z 2 true 220 z 1 0
  if x.sign then -s else s

def realCos (x : Num) : Int := powerSeries (reduceAngle x) 2 true 220 (2 ^ realBits) 0 0

/-- `2 ^ (x / 2 ^ realBits)` for an exponent below `2 ^ 12` in magnitude. -/
def realExp2 (x : Int) : Int × Int :=
  let whole := x / 2 ^ realBits
  let z := realMul (x % 2 ^ realBits) realLn2
  (powerSeries z 1 false 300 (2 ^ realBits) 0 0, whole - realBits)

/-- `Σ u ^ k / k` over the odd `k`. -/
def areaSeries (uu : Int) : Nat → Int → Nat → Int → Int
  | 0, _, _, acc => acc
  | fuel + 1, power, k, acc => areaSeries uu fuel (realMul power uu) (k + 2) (acc + power / (k : Int))

/-- The natural logarithm of a positive finite `Num`. -/
def realLn (x : Num) : Int :=
  let top := Nat.log2 x.mant
  let m : Int := x.mant * 2 ^ (realBits - top)
  let u := (m - 2 ^ realBits) * 2 ^ realBits / (m + 2 ^ realBits)
  2 * areaSeries (realMul u u) 430 u 1 0 + (x.scale + (top : Int)) * realLn2

/-- The arc tangent of `t ≥ 0`, halved `n` times before the series and doubled back after it. -/
def realArcTan : Nat → Int → Int
  | 0, t => areaSeries (-realMul t t) 430 t 1 0
  | n + 1, t => 2 * realArcTan n (t * 2 ^ realBits / (2 ^ realBits + (isqrt (2 ^ (2 * realBits) + t * t).toNat : Nat)))

/-- The argument, in `(−π, π]`, of the complex number `x + i y`; neither is needed in a particular scale. -/
def realAngle (y x : Int) : Int :=
  let pi : Int := (realPi / 2 ^ (piBits - realBits) : Nat)
  let sharp : Int := realArcTan 4 ((min y.natAbs x.natAbs : Nat) * 2 ^ realBits / (max y.natAbs x.natAbs : Nat))
  let acute := if y.natAbs ≤ x.natAbs then sharp else pi / 2 - sharp
  let upper := if 0 ≤ x then acute else pi - acute
  if y < 0 then -upper else upper

/-- A finite `Num` as an integer multiple of `2 ^ -bits`, rounded down. -/
def Num.fixed (bits : Nat) (x : Num) : Int :=
  if 0 ≤ x.scale + (bits : Int) then x.signedMant * pow2 (x.scale + bits) else x.signedMant / pow2 (-(x.scale + bits))

/-- `x * 2 ^ realBits` for a finite `Num`, exact above `2 ^ -realBits`. -/
def realOf (x : Num) : Int := x.fixed realBits

/-- One unit in the last place at `m * 2 ^ e`, as a power of two. -/
def ulpExponent (m : Int) (e : Int) : Int := max ((Nat.log2 m.natAbs : Int) + e - 52) (-1074)

/-- Whether `y` lies within one unit in the last place of the real value `m * 2 ^ e`; an infinity stands for `2 ^ 1024`,
one unit above the greatest finite `Num`. [DESIGN CHOICE, assumption 11] -/
def nearReal (y : Num) (m e : Int) : Bool :=
  let q := min e (-1074)
  let real := m * pow2 (e - q)
  let slack := realSlack * pow2 (e - q)
  if y.isNaN then false
  else if y.isInf then (y.sign == decide (m < 0)) && decide ((2 ^ 53 - 1) * 2 ^ 971 * pow2 (-q) ≤ real.natAbs + slack)
  else
    decide ((y.signedMant * pow2 (y.scale - q) - real).natAbs ≤ pow2 (ulpExponent m e - q) + slack)

/-- `y` where it is near enough, the real value rounded where it is not. [DESIGN CHOICE, assumption 11] -/
def Num.within (y : Num) (m e : Int) : Num := if nearReal y m e then y else Num.round (decide (m < 0)) m.natAbs e

/-- `y` kept within one unit in the last place of `2 ^ (x / 2 ^ realBits)`. Beyond the range of `Num` the value is an
infinity, or 0 or the least positive `Num`. [DESIGN CHOICE, assumption 11] -/
def Num.withinExp2 (y : Num) (x : Int) : Num :=
  let least := Num.mk 1#64
  if (1100 : Int) * 2 ^ realBits ≤ x then Num.infOf false
  else if x ≤ (-1100 : Int) * 2 ^ realBits then (if y.eq .zero || y.bits = least.bits then y else .zero)
  else
    let v := realExp2 x
    if Num.zero.le y then y.within v.1 v.2 else Num.round false v.1.natAbs v.2

/-- Whether a finite `Num` is an integer. -/
def Num.isInteger (x : Num) : Bool := x.isFinite && x.floor.eq x

/-- Whether an integer `Num` is odd. -/
def Num.isOdd (x : Num) : Bool := x.floorInt % 2 == 1

/-- `y × log2(x)` in fixed point, for a positive finite `x` and a finite `y`. -/
def realPowExponent (x y : Num) : Int :=
  let l := realLn x * 2 ^ realBits / realLn2
  if 0 ≤ y.scale then l * y.signedMant * pow2 y.scale else l * y.signedMant / pow2 (-y.scale)

/-! `Numerics` functions with the named properties of R7, each over the value `y` that the configuration gives. -/

def sinKept (x y : Num) : Num :=
  if x.isNaN then Num.nanOf x.bits x.bits
  else if x.isInf then y
  else if x.eq .zero then (if y.eq .zero then y else .zero)
  else y.within (realSin x) (-realBits)

def cosKept (x y : Num) : Num :=
  if x.isNaN then Num.nanOf x.bits x.bits
  else if x.isInf then y
  else if x.eq .zero then .one
  else y.within (realCos x) (-realBits)

def tanKept (x y : Num) : Num :=
  if x.isNaN then Num.nanOf x.bits x.bits
  else if x.isInf then y
  else if x.eq .zero then (if y.eq .zero then y else .zero)
  else y.within (realSin x * 2 ^ realBits / realCos x) (-realBits)

def exp2Kept (x y : Num) : Num :=
  if x.isNaN then Num.nanOf x.bits x.bits
  else if x.isInf then (if Num.zero.le y then y else if x.sign then .zero else Num.infOf false)
  else if x.eq .zero then .one
  else y.withinExp2 (realOf x)

/-- `log`: the natural logarithm; of 0 and of an infinity no real value is given, of a negative number there is none.
[DESIGN CHOICE, assumption 11] -/
def logKept (x y : Num) : Num :=
  if x.isNaN then Num.nanOf x.bits x.bits
  else if Num.zero.lt x && x.isFinite then (if x.eq .one then (if y.eq .zero then y else .zero) else y.within (realLn x) (-realBits))
  else y

/-- `pow(x, y)`: the named points first, then the real value; of a negative `x` only an integer `y` is in the domain,
and of an infinite operand no real value is given. [DESIGN CHOICE, assumption 11] -/
def powKept (x y z : Num) : Num :=
  if y.eq .zero || x.eq .one then .one
  else if x.isNaN || y.isNaN then Num.nanOf x.bits y.bits
  else if x.eq .zero && Num.zero.lt y then (if z.eq .zero then z else .zero)
  else if Num.zero.le x then
    (if x.isFinite && y.isFinite && Num.zero.lt x then z.withinExp2 (realPowExponent x y)
     else if Num.zero.le z then z else Num.infOf false)
  else if x.isFinite && y.isInteger then
    (if y.isOdd then (z.neg.withinExp2 (realPowExponent x.abs y)).neg else z.withinExp2 (realPowExponent x.abs y))
  else z

end Sys2Proof
end

