-- ==== Sys2Proof/Machine/Params.lean ====
section
/-! DEFINITION. The parameters of `00_scope.md` R5 and `93_implementation_defined.md` part 2 as the rules read them.
A constant that the source gives stands as its value. A parameter that the source leaves open is read from `Cfg`
through an accessor that keeps the constraint the spec states for it: a raw value that breaks the constraint is
replaced by one that meets it, so that every value of `Cfg` stands for a legal configuration and every legal
configuration is some value of `Cfg`. -/

namespace Sys2Proof

/-! Constants of the source (R5). -/

def operatorCount : Nat := 4
def spectrumPoints : Nat := 30
def harmonicsPoints : Nat := 28
def drumCount : Nat := 12
def guitarBasePitch : Nat := 12
def reverbRingSize : Nat := 16384
def expressionMax : Nat := 3
def chorusTaps : Nat := 6
def reverbTaps : Nat := 4
def vibratoRampTicks : Nat := 2
def recentShapes : Nat := 10
def recentPitches : Nat := 8
def latestVersion : Nat := 9
def oldestVersion : Nat := 2
def legacyCutoffMax : Nat := 10
def legacyResonanceMax : Nat := 7
def legacyGlobalReverbMax : Nat := 4
def limitRiseNum : Num := Num.ofNat 4000
def limitDecayNum : Num := Num.ofNat 4
def prefilterCap : Num := Num.ofNat 3
def sanitizeMax : Num := Num.ofNat 100

/-- The binary64 nearest to 1e-24. -/
def sanitizeMin : Num := ⟨0x3AF357C299A88EA7#64⟩

/-- "1/256 of full scale". -/
def tailThreshold : Num := ⟨0x3F70000000000000#64⟩

/-- 48000, the reference rate of the legacy filter. -/
def legacyRefSampleRate : Num := Num.ofNat 48000

/-- 44100, the output rate "by default". -/
def defaultSampleRate : Num := Num.ofNat 44100

/-- 10, the live-input deadline. -/
def liveInputDeadlineSeconds : Num := Num.ofNat 10

/-- The rows of R5's table whose value the source states: the fields of `Cfg` that no configuration changes. -/
structure SourceValues where
  sampleRate : Num
  legacyRefSampleRate : Num
  operatorCount : Nat
  spectrumPoints : Nat
  harmonicsPoints : Nat
  drumCount : Nat
  prefilterCap : Num
  expressionMax : Nat
  guitarBasePitch : Nat
  chorusTaps : Nat
  reverbDelayBufferSize : Nat
  reverbTaps : Nat
  tailThreshold : Num
  limitRiseNum : Num
  limitDecayNum : Num
  liveInputDeadlineSeconds : Num
  sanitizeMax : Num
  sanitizeMin : Num
  vibratoRampTicks : Nat
  recentShapes : Nat
  recentPitches : Nat
  latestVersion : Nat
  oldestVersion : Nat
  legacyCutoffMax : Nat
  legacyResonanceMax : Nat
  legacyGlobalReverbMax : Nat
deriving DecidableEq, Repr

/-- The source's values as part of every configuration (R5). The rules read each by its own name below `Sys2Proof`. -/
def Cfg.source (_ : Cfg) : SourceValues where
  sampleRate := defaultSampleRate
  legacyRefSampleRate := Sys2Proof.legacyRefSampleRate
  operatorCount := Sys2Proof.operatorCount
  spectrumPoints := Sys2Proof.spectrumPoints
  harmonicsPoints := Sys2Proof.harmonicsPoints
  drumCount := Sys2Proof.drumCount
  prefilterCap := Sys2Proof.prefilterCap
  expressionMax := Sys2Proof.expressionMax
  guitarBasePitch := Sys2Proof.guitarBasePitch
  chorusTaps := Sys2Proof.chorusTaps
  reverbDelayBufferSize := reverbRingSize
  reverbTaps := Sys2Proof.reverbTaps
  tailThreshold := Sys2Proof.tailThreshold
  limitRiseNum := Sys2Proof.limitRiseNum
  limitDecayNum := Sys2Proof.limitDecayNum
  liveInputDeadlineSeconds := Sys2Proof.liveInputDeadlineSeconds
  sanitizeMax := Sys2Proof.sanitizeMax
  sanitizeMin := Sys2Proof.sanitizeMin
  vibratoRampTicks := Sys2Proof.vibratoRampTicks
  recentShapes := Sys2Proof.recentShapes
  recentPitches := Sys2Proof.recentPitches
  latestVersion := Sys2Proof.latestVersion
  oldestVersion := Sys2Proof.oldestVersion
  legacyCutoffMax := Sys2Proof.legacyCutoffMax
  legacyResonanceMax := Sys2Proof.legacyResonanceMax
  legacyGlobalReverbMax := Sys2Proof.legacyGlobalReverbMax

/-- The binary64 nearest to π (R185). -/
def Num.pi : Num := ⟨0x400921FB54442D18#64⟩

def Num.twoPi : Num := ⟨0x401921FB54442D18#64⟩

/-- `(2 × π) × x`. -/
def twoPiTimes (x : Num) : Num := Num.twoPi.mul x

def threeHalves : Num := ⟨0x3FF8000000000000#64⟩

/-- The least power of two not below `n`. -/
def powerOfTwoFrom (n : Nat) : Nat := if n ≤ 1 then 1 else 2 ^ (Nat.log2 (n - 1) + 1)

def isPowerOfTwo (n : Nat) : Bool := n != 0 && 2 ^ Nat.log2 n == n

/-! Tables (R53). -/

def Table.length {α : Type} (t : Table α) : Nat := t.tail.length + 1

def Table.get? {α : Type} (t : Table α) (i : Nat) : Option α :=
  match i with
  | 0 => some t.head
  | j + 1 => t.tail[j]?

/-- The entry of an index that the song store keeps inside the table (R50). -/
def Table.get {α : Type} (t : Table α) (i : Nat) : α := (t.get? i).getD t.head

/-! Value constraints. -/

def finiteOr (dflt x : Num) : Num := if x.isFinite then x else dflt

def nonNegativeOr (dflt x : Num) : Num := if Num.zero.le x then x else dflt

def positiveOr (dflt x : Num) : Num := if x.isFinite && Num.zero.lt x then x else dflt

/-! Sizes and limits (part 2.1). -/

def Cfg.toneSlots (c : Cfg) : Nat := c.toneSlotsLess1 + 1
/-- The configured `runMax`; what it is beside the clock, `Engine.runMax` says (R40). -/
def Cfg.runMaxLeast (c : Cfg) : Nat := c.runMaxLess1 + 1
def Cfg.outMax (c : Cfg) : Nat := c.outMaxLess1 + 1
def Cfg.ticksPerPart (c : Cfg) : Nat := c.ticksPerPartLess1 + 1
def Cfg.partsPerBeat (c : Cfg) : Nat := c.partsPerBeatLess1 + 1
/-- `ticksPerArpeggio`, at least 1. [DESIGN CHOICE, assumption 114] -/
def Cfg.ticksPerArpeggio (c : Cfg) : Nat := c.ticksPerArpeggioLess1 + 1
/-- `maxChordSize`, at most the eight entries of the recent-pitch list: with more pitches a chord's first pitch could
leave the list, and "a repeated pitch is always in the recent-pitch list" (R399); and at least 1.
[DEDUCED, assumption 72; DESIGN CHOICE, assumption 114] -/
def Cfg.maxChordSize (c : Cfg) : Nat := min recentPitches (c.maxChordSizeLess1 + 1)

/-- `filterFreqRange`, at least 1. [DESIGN CHOICE, assumption 97] -/
def Cfg.filterFreqRange (c : Cfg) : Nat := c.filterFreqRangeLess1 + 1

/-- `filterGainRange`, at least 1. [DESIGN CHOICE, assumption 97] -/
def Cfg.filterGainRange (c : Cfg) : Nat := c.filterGainRangeLess1 + 1

/-- `filterMaxPoints`, at least 1. [DESIGN CHOICE, assumption 97] -/
def Cfg.filterMaxPoints (c : Cfg) : Nat := c.filterMaxPointsLess1 + 1

/-- The entries of `noiseWaves`, at least 1. [DESIGN CHOICE, assumption 114] -/
def Cfg.noiseWaveCount (c : Cfg) : Nat := c.noiseWavesLess1 + 1
/-- The entries of `rhythms`, at least 1. [DESIGN CHOICE, assumption 114] -/
def Cfg.rhythmCount (c : Cfg) : Nat := c.rhythmsLess1 + 1
/-- The entries of `scales`, at least 1. [DESIGN CHOICE, assumption 114] -/
def Cfg.scaleCount (c : Cfg) : Nat := c.scalesLess1 + 1
/-- The entries of `keys`, at least 1. [DESIGN CHOICE, assumption 114] -/
def Cfg.keyCount (c : Cfg) : Nat := c.keysLess1 + 1
/-- The entries of `presets`, at least 1. [DESIGN CHOICE, assumption 114] -/
def Cfg.presetCount (c : Cfg) : Nat := c.presetsLess1 + 1
/-- `distortionRange`, at least 2, since R282 divides by one less. [DESIGN CHOICE, assumption 114] -/
def Cfg.distortionRange (c : Cfg) : Nat := c.distortionRangeLess2 + 2
/-- `panMax`, at least 1. [DESIGN CHOICE, assumption 97] -/
def Cfg.panMax (c : Cfg) : Nat := c.panMaxLess1 + 1

/-- "the modern range is 0..reverbRange−1 (larger)" than 0..4 (R434). -/
def Cfg.reverbRange (c : Cfg) : Nat := c.reverbRangeLess6 + 6

def Cfg.sineWaveLength (c : Cfg) : Nat := 2 ^ c.sineWaveExp
def Cfg.spectrumWaveLength (c : Cfg) : Nat := 2 ^ (c.spectrumWaveExp + 1)
def Cfg.harmonicsWaveLength (c : Cfg) : Nat := 2 ^ (c.harmonicsWaveExp + 1)

/-! Waves (part 2.3). -/

/-- "every element is finite; the length is at least 1" (R136). -/
def Cfg.noiseSamples (c : Cfg) (u : Nat) : List Num :=
  match (c.noiseWaveGen u).map (finiteOr .zero) with
  | [] => [.zero]
  | l => l

/-- "pure, finite" (R139): the samples as they are, with no closing element of R77. [DESIGN CHOICE, assumption 109] -/
def Cfg.impulseSamples (c : Cfg) : List Num := c.impulseWaveGen.map (finiteOr .zero)

/-- `l` cut or filled with zeros to `n` elements. -/
def fitTo (n : Nat) (l : List Num) : List Num := l.take n ++ List.replicate (n - l.length) .zero

/-- "all-zero controls give an all-zero spectrum" (R137). -/
def Cfg.spectrumBins (c : Cfg) (controls : List Nat) : List Num :=
  if controls.all (· == 0) then List.replicate c.spectrumWaveLength .zero
  else fitTo c.spectrumWaveLength (c.spectrumFill controls)

/-- "all-zero controls give all zeros, and the constant term `C[0]` is 0" (R138). -/
def Cfg.harmonicsBins (c : Cfg) (controls : List Nat) : List Num :=
  if controls.all (· == 0) then List.replicate c.harmonicsWaveLength .zero
  else Num.zero :: (fitTo c.harmonicsWaveLength (c.harmonicsFill controls)).tail

/-- The exact sum of finite values, in units of `2^−1074`. -/
def unitSum (l : List Num) : Int := l.foldl (fun a v => a + v.units) 0

/-- The raw samples of a chip wave, at least one: they "must have zero mean" (R135), and the mean of samples that are
not all finite is not 0. [DESIGN CHOICE, assumption 58] -/
def Cfg.chipSamples (c : Cfg) (u : Nat) : List Num :=
  match c.chipWaves.get u with
  | [] => [.zero]
  | l => if l.all Num.isFinite && unitSum l == 0 then l else List.replicate l.length .zero

/-- The longest wave that a builder makes (R13). -/
def Cfg.longestWave (c : Cfg) : Nat :=
  let chips := (List.range c.chipWaves.length).map (fun u => (c.chipSamples u).length)
  let noises := (List.range c.noiseWaveCount).map (fun u => (c.noiseSamples u).length)
  (c.sineWaveLength :: c.spectrumWaveLength :: c.harmonicsWaveLength :: c.impulseSamples.length
    :: (chips ++ noises)).foldl max 0

/-- `workSize`: a power of two, at least the largest wave length + 1 and at least 2 (R13, R131).
[DESIGN CHOICE, assumption 10] -/
def Cfg.workSize (c : Cfg) : Nat := max (2 ^ (c.workSizeExp + 1)) (powerOfTwoFrom (c.longestWave + 1))

/-! Filter (R165 to R169). -/

/-- `volComp`: "finite and `> 0`" (R167). Part 2.2 of file 93 adds "1 for a flat filter" and does not say what is flat:
the model reads it as the filter without points (R168: "an empty filter gives 1.0") and leaves the value of every
point, one of gain 1 included, open. [DESIGN CHOICE, assumption 60] -/
def Cfg.volCompOf (c : Cfg) (kind freq gain : Nat) : Num := positiveOr .one (c.volComp kind freq gain)

/-- The corner that a corner at or above π is clamped to, "just below π; the clamp value is not in the source" (R169):
any configured value between 0 and π, else the greatest binary64 below π. [DESIGN CHOICE, assumption 61] -/
def Cfg.omegaLimit (c : Cfg) : Num :=
  if Num.zero.lt c.omegaClamp && c.omegaClamp.lt Num.pi then c.omegaClamp else ⟨0x400921FB54442D17#64⟩

/-! Voicing (part 2.2). -/

def Cfg.arpeggioIndex (c : Cfg) (pitchCount rhythm arpStep : Nat) : Nat :=
  c.arpeggioPattern pitchCount rhythm arpStep % pitchCount

def Cfg.basePitchOf (c : Cfg) (song : Song) (channel pitch : Nat) : Num := finiteOr .zero (c.basePitch song channel pitch)
def Cfg.operatorAmplitude (c : Cfg) (a : Nat) : Num :=
  if a = 0 then .zero else nonNegativeOr .zero (c.operatorAmplitudeCurve a)
def Cfg.feedbackGain (c : Cfg) (a : Nat) : Num := if a = 0 then .zero else nonNegativeOr .zero (c.feedbackCurve a)
def Cfg.pulseWidthOf (c : Cfg) (w : Nat) : Num :=
  let x := c.pulseWidthCurve w
  if Num.zero.lt x && x.lt .one then x else .half
def Cfg.volumeGainOf (c : Cfg) (v : Nat) : Num := nonNegativeOr .zero (c.volumeGain v)
def Cfg.chordExpressionOf (c : Cfg) (chord size : Nat) : Num := positiveOr .one (c.chordExpression chord size)
def Cfg.baseExpressionOf (c : Cfg) (kind : Nat) : Num := positiveOr .one (c.baseExpression kind)
def Cfg.customIntervalExpressionOf (c : Cfg) (i : Int) : Num := positiveOr .one (c.customIntervalExpression i)
def Cfg.fmCarrierExpressionOf (c : Cfg) (pitch : Num) : Num := positiveOr .one (c.fmCarrierExpression pitch)
def Cfg.fmModulatorScaleOf (c : Cfg) : Num := positiveOr .one c.fmModulatorScale
def Cfg.sineExpressionBoostOf (c : Cfg) (ins : Instrument) : Num := positiveOr .one (c.sineExpressionBoost ins)
def Cfg.fmFrequencyRatioOf (c : Cfg) (f : Nat) : Num := positiveOr .one (c.fmFrequencyRatio f)
def Cfg.pitchFilterMultOf (c : Cfg) (u : Nat) : Num := positiveOr .one (c.pitchFilterMult u)

/-! Guitar and effects (part 2.5). -/

/-- "`guitarShelfGain ≤ 1` so that the loop does not grow" (R261). -/
def Cfg.guitarShelfGainOf (c : Cfg) (sustain : Nat) (omega : Num) : Num :=
  let x := c.guitarShelfGain sustain omega
  if x.le .one then x else .one

def Cfg.pluckShapeOf (c : Cfg) (impulse : List Num) (period off : Num) (j : Nat) : Num :=
  finiteOr .zero (c.pluckShape impulse period off j)

/-- R284's `step`, "`0 < step ≤ 1`", a function of the sample rate as in R284 and not of a pitch as in part 2.5.
[DESIGN CHOICE, assumption 77] -/
def Cfg.crushStep (c : Cfg) (freq : Nat) (sampleRate : Num) : Num :=
  let x := c.bitcrusherPhaseDelta freq sampleRate
  if Num.zero.lt x && x.le .one then x else .one

def Cfg.crushQuantum (c : Cfg) (quantization : Nat) : Num := positiveOr .one (c.bitcrusherStepSize quantization)

/-- `panDelaySecondsMax`, without an upper bound: the pan ring may be larger than the chorus and the reverb ring, which
R312's derivation takes to be larger. [DESIGN CHOICE, assumption 78] -/
def Cfg.panDelayMax (c : Cfg) : Num := finiteOr .zero (nonNegativeOr .zero c.panDelaySecondsMax)

/-- `chorusDelayRange`, finite and not negative. [DESIGN CHOICE, assumption 111] -/
def Cfg.chorusRange (c : Cfg) : Num := finiteOr .zero (nonNegativeOr .zero c.chorusDelayRange)

/-- "every `chorusOffsets[side][k] ≥ chorusDelayRange`" (R292). -/
def Cfg.chorusOffset (c : Cfg) (side : Fin 2) (k : Fin 3) : Num :=
  let x := c.chorusOffsets[side][k]
  if x.isFinite && c.chorusRange.le x then x else c.chorusRange
/-- The greatest of the six chorus offsets. -/
def Cfg.chorusOffsetMax (c : Cfg) : Num :=
  [c.chorusOffset 0 1, c.chorusOffset 0 2, c.chorusOffset 1 0, c.chorusOffset 1 1, c.chorusOffset 1 2].foldl
    (fun a b => if a.lt b then b else a) (c.chorusOffset 0 0)

/-- `chorusDelayBufferSize`: a power of two with "`(max offset + chorusDelayRange) × sampleRate + 1 <
chorusDelayBufferSize`" (R292), the configured one where it is large enough. [DESIGN CHOICE, assumption 59] -/
def Cfg.chorusRingSize (c : Cfg) (sampleRate : Num) : Nat :=
  max (2 ^ c.chorusDelayBufferExp)
    (powerOfTwoFrom ((((c.chorusOffsetMax.add c.chorusRange).mul sampleRate).add .one).floorInt.toNat + 1))

/-- `chorusPeriodSeconds`, finite and above 0. [DESIGN CHOICE, assumption 111] -/
def Cfg.chorusPeriod (c : Cfg) : Num := positiveOr .one c.chorusPeriodSeconds

/-- "`0 ≤ m < 0.5`, which the spec requires of `reverbMult`" (R296). -/
def Cfg.reverbFeedback (c : Cfg) (r : Nat) : Num :=
  let x := c.reverbMult r
  if Num.zero.le x && x.lt .half then x else .zero

/-- "`0 < c ≤ 1`" (R296). -/
def Cfg.reverbSmoothing (c : Cfg) : Num :=
  if Num.zero.lt c.reverbLowpass && c.reverbLowpass.le .one then c.reverbLowpass else .half

/-- "`o1 < o2 < o3` the configuration's `reverbTapOffsets`" (R296). -/
def Cfg.reverbTaps (c : Cfg) : Nat × Nat × Nat :=
  let t := c.reverbTapOffsets
  if t.1 < t.2.1 ∧ t.2.1 < t.2.2 then t else (1, 2, 3)

/-- "finite and positive" (R311). -/
def Cfg.tailTicksOf (c : Cfg) (ins : Instrument) (sampleRate samplesPerTick : Num) : Num :=
  positiveOr .one (c.tailTicks ins sampleRate samplesPerTick)

/-! Ring sizes (R25, R32). -/

/-- `ceil(x)` as a count, 0 where it is negative. -/
def ceilCount (x : Num) : Nat := x.ceilInt.toNat

/-- "the least power of two not below `panDelaySecondsMax × sampleRate + 1`" (R32). -/
def Cfg.panRingSize (c : Cfg) (sampleRate : Num) : Nat :=
  powerOfTwoFrom (ceilCount ((c.panDelayMax.mul sampleRate).add .one))

/-! `Numerics` with the named properties of R7. -/

def Cfg.sinOf (c : Cfg) (x : Num) : Num := sinKept x (c.numerics.sin x)
def Cfg.cosOf (c : Cfg) (x : Num) : Num := cosKept x (c.numerics.cos x)
def Cfg.tanOf (c : Cfg) (x : Num) : Num := tanKept x (c.numerics.tan x)
def Cfg.exp2Of (c : Cfg) (x : Num) : Num := exp2Kept x (c.numerics.exp2 x)
def Cfg.logOf (c : Cfg) (x : Num) : Num := logKept x (c.numerics.log x)
def Cfg.powOf (c : Cfg) (x y : Num) : Num := powKept x y (c.numerics.pow x y)

/-! Coefficient helpers (part 2.4). Inside the stated domain a set keeps the properties of its rule: the poles as the
rule's inequalities say, the gains up to the rounding of the five coefficients. A set of the configuration that breaks
one is replaced by a set that has them all. Outside the domain "an unspecified coefficient set" (R155, U15). -/

def inOmegaDomain (omega : Num) : Bool := Num.zero.lt omega && omega.lt Num.pi

/-- "`|a1| < 1`". -/
def poleInside1 (a1 : Num) : Bool := a1.abs.lt .one

/-- "both poles inside the unit circle (`|a2| < 1` and `|a1| < 1 + a2`)". -/
def CoefSet.stable (k : CoefSet) : Bool := k.a2.abs.lt .one && k.a1.abs.lt (Num.one.add k.a2)

/-- The set with its poles inside the unit circle: its own, or both at 0. -/
def polesInside2 (k : CoefSet) : CoefSet := if k.stable then k else { k with a1 := .zero, a2 := .zero }

/-- Bits after the point in the gain checks. -/
def gainBits : Nat := 256

/-- The numbers `1`, `a1`, `a2` and `b0`, `b1`, `b2` in fixed point. -/
def CoefSet.bottom (bits : Nat) (k : CoefSet) : Int × Int × Int := (2 ^ bits, k.a1.fixed bits, k.a2.fixed bits)

def CoefSet.top (bits : Nat) (k : CoefSet) : Int × Int × Int := (k.b0.fixed bits, k.b1.fixed bits, k.b2.fixed bits)

/-- The same numbers as the gain checks take them. -/
def CoefSet.lower (k : CoefSet) : Int × Int × Int := k.bottom gainBits

def CoefSet.upper (k : CoefSet) : Int × Int × Int := k.top gainBits

def tripleSize (t : Int × Int × Int) : Int := t.1.natAbs + t.2.1.natAbs + t.2.2.natAbs

def CoefSet.isFinite (k : CoefSet) : Bool :=
  k.a1.isFinite && k.a2.isFinite && k.b0.isFinite && k.b1.isFinite && k.b2.isFinite

/-- Whether `top = gain × bottom` up to `2^−44` of the coefficients' sizes (R156 to R161 name the gain of the real
filter and leave the rounding of its coefficients open). [DESIGN CHOICE, assumption 12] -/
def gainNear (k : CoefSet) (gain : Num) (top bottom : Int) : Bool :=
  let g := gain.fixed gainBits
  k.isFinite && gain.isFinite &&
    decide (((top * 2 ^ gainBits - g * bottom).natAbs : Int) * 2 ^ 44
      ≤ tripleSize k.upper * 2 ^ gainBits + g.natAbs * tripleSize k.lower)

/-- Gain at zero frequency. -/
def CoefSet.gainAtZero (k : CoefSet) (gain : Num) : Bool :=
  let a := k.lower
  let b := k.upper
  gainNear k gain (b.1 + b.2.1 + b.2.2) (a.1 + a.2.1 + a.2.2)

/-- Gain at the Nyquist frequency. -/
def CoefSet.gainAtNyquist (k : CoefSet) (gain : Num) : Bool :=
  let a := k.lower
  let b := k.upper
  gainNear k gain (b.1 - b.2.1 + b.2.2) (a.1 - a.2.1 + a.2.2)

/-- `t.1 + t.2.1 z⁻¹ + t.2.2 z⁻²` on the unit circle, times `one`: `p` is the cosine and the sine of the angle. -/
def polynomialAt (one : Int) (p : Int × Int) (t : Int × Int × Int) : Int × Int :=
  (t.1 * one + t.2.1 * p.1 + t.2.2 * ((2 * p.1 * p.1 - one * one) / one),
    -(t.2.1 * p.2 + t.2.2 * (2 * p.1 * p.2 / one)))

/-- The magnitude of that value. -/
def magnitudeAt (p : Int × Int) (t : Int × Int × Int) : Int :=
  let one : Int := 2 ^ gainBits
  let v := polynomialAt one p t
  (isqrt (v.1 * v.1 + v.2 * v.2).toNat : Nat) / one

/-- Gain at the corner `omega` (R160). -/
def CoefSet.gainAtCorner (k : CoefSet) (omega gain : Num) : Bool :=
  let p := (realCos omega / 2 ^ (realBits - gainBits), realSin omega / 2 ^ (realBits - gainBits))
  gainNear k gain (magnitudeAt p k.upper) (magnitudeAt p k.lower)

/-- A first-order set: `a2 = b2 = 0`. -/
def firstOrder (a1 b0 b1 : Num) : CoefSet := ⟨a1, .zero, b0, b1, .zero⟩

/-- `1/4`. -/
def quarter : Num := ⟨0x3FD0000000000000#64⟩

/-- R156: "unit gain at zero frequency", "`b0 = b1`", "`|a1| < 1`". [DESIGN CHOICE, assumption 12] -/
def Cfg.lp1Of (c : Cfg) (omega : Num) : CoefSet :=
  let k := c.numerics.lp1 omega
  let p := firstOrder k.a1 k.b0 k.b0
  if inOmegaDomain omega then (if poleInside1 p.a1 && p.gainAtZero .one then p else firstOrder .zero .half .half) else k

/-- R157: "zero gain at zero frequency", "unit gain at Nyquist", "`|a1| < 1`". [DESIGN CHOICE, assumption 12] -/
def Cfg.hp1Of (c : Cfg) (omega : Num) : CoefSet :=
  let k := c.numerics.hp1 omega
  let p := firstOrder k.a1 k.b0 k.b0.neg
  if inOmegaDomain omega then
    (if poleInside1 p.a1 && p.gainAtNyquist .one then p else firstOrder .zero .half Num.half.neg)
  else k

/-- R158. [DESIGN CHOICE, assumption 12] -/
def Cfg.lp2Of (c : Cfg) (omega gain : Num) : CoefSet :=
  let k := c.numerics.lp2 omega gain
  if inOmegaDomain omega && Num.zero.lt gain then
    (if k.stable && k.gainAtZero .one && k.gainAtNyquist .zero then k else ⟨.zero, .zero, quarter, .half, quarter⟩)
  else k

/-- R159. [DESIGN CHOICE, assumption 12] -/
def Cfg.hp2Of (c : Cfg) (omega gain : Num) : CoefSet :=
  let k := c.numerics.hp2 omega gain
  if inOmegaDomain omega && Num.zero.lt gain then
    (if k.stable && k.gainAtZero .zero && k.gainAtNyquist .one then k else ⟨.zero, .zero, quarter, Num.half.neg, quarter⟩)
  else k

/-- `1 − 2^−50`. -/
def nearlyOne : Num := ⟨0x3FEFFFFFFFFFFFF8#64⟩

/-- A peak filter with poles of radius `√½`, which stands where the configuration's set breaks R160: `b1 = a1` and
`b0 + b2 = 1 + a2` give unit gain at both ends. A cosine that rounds to 1 or −1 is kept inside, so that
`|a1| < 1 + a2`. [DESIGN CHOICE, assumption 12] -/
def plainPeak (c : Cfg) (omega gain : Num) : CoefSet :=
  let cosine := c.cosOf omega
  let inner := if nearlyOne.lt cosine then nearlyOne else if cosine.lt nearlyOne.neg then nearlyOne.neg else cosine
  let a1 := (threeHalves.mul inner).neg
  let b0 := Num.one.add ((gain.sub .one).mul quarter)
  let k : CoefSet := ⟨a1, .half, b0, a1, threeHalves.sub b0⟩
  if k.stable then k else ⟨.zero, .half, b0, .zero, threeHalves.sub b0⟩

/-- R160: unit gain at both ends, `gain` at the corner, and "`gain = 1` gives the identity filter (`b0 = 1`, `b1 = a1`,
`b2 = a2`)". [DESIGN CHOICE, assumption 12] -/
def Cfg.peakOf (c : Cfg) (omega gain : Num) : CoefSet :=
  let k := c.numerics.peak omega gain
  if inOmegaDomain omega && Num.zero.lt gain then
    (let p := if k.stable && k.gainAtZero .one && k.gainAtNyquist .one && k.gainAtCorner omega gain then k
      else plainPeak c omega gain
     if gain.eq .one then { p with b0 := .one, b1 := p.a1, b2 := p.a2 } else p)
  else k

/-- R161: "unit gain at zero frequency; gain `shelfGain` at Nyquist; `|a1| < 1`", for a `shelfGain` above 0; for any
other the set is free, as of an operand outside the domain (U15).
[DESIGN CHOICE, assumption 12; DESIGN CHOICE, assumption 110] -/
def Cfg.hshelf1Of (c : Cfg) (omega shelfGain : Num) : CoefSet :=
  let k := c.numerics.hshelf1 omega shelfGain
  let p := firstOrder k.a1 k.b0 k.b1
  if inOmegaDomain omega && Num.zero.lt shelfGain then
    (if poleInside1 p.a1 && p.gainAtZero .one && p.gainAtNyquist shelfGain then p
     else firstOrder .zero ((Num.one.add shelfGain).mul .half) ((Num.one.sub shelfGain).mul .half))
  else k

/-- "magnitude 1 at every frequency (`b0 = a1`, `b1 = 1` up to a common sign)" (R162).
[DESIGN CHOICE, assumption 12] -/
def Cfg.ap1Of (c : Cfg) (omega : Num) : CoefSet :=
  let k := c.numerics.ap1 omega
  if inOmegaDomain omega then
    (let a := if poleInside1 k.a1 then k.a1 else .zero
     if k.b1.sign then firstOrder a a.neg Num.one.neg else firstOrder a a .one)
  else k

/-- `PhaseDelay(set, ω) = −arg(H(e^{iω})) / ω` (R261): the configuration's value where it lies within one unit in the
last place of the formula's, the formula's rounded where it does not; the configuration's own where the formula has no
value (ω = 0, a number that is not finite, `H` zero or without a value there). [DEDUCED, assumption 84] -/
def Cfg.phaseDelayOf (c : Cfg) (k : CoefSet) (omega : Num) : Num :=
  let y := c.numerics.phaseDelay k omega
  let p := (realCos omega, realSin omega)
  let t := polynomialAt (2 ^ realBits) p (k.top realBits)
  let b := polynomialAt (2 ^ realBits) p (k.bottom realBits)
  let w := realOf omega
  if k.isFinite && omega.isFinite && w != 0 && t != (0, 0) && b != (0, 0) then
    y.within (-(realAngle (t.2 * b.1 - t.1 * b.2) (t.1 * b.1 + t.2 * b.2)) * 2 ^ realBits / w) (-realBits)
  else y

/-- "`440 × 2^((pitch − 69) / 12)`" (R198). -/
def Cfg.pitchHz (c : Cfg) (pitch : Num) : Num :=
  (Num.ofNat 440).mul (c.exp2Of ((pitch.sub (Num.ofNat 69)).div (Num.ofNat 12)))

/-- The size of a string's ring: "the least power of two not below `sampleRate / frequency(guitarBasePitch)`" (R25). -/
def Cfg.stringRingSize (c : Cfg) (sampleRate : Num) : Nat :=
  powerOfTwoFrom (ceilCount (sampleRate.div (c.pitchHz (Num.ofNat guitarBasePitch))))

/-- `samplesPerTick`, "evaluated in that order in `Num`" (R337). -/
def Cfg.samplesPerTickOf (c : Cfg) (sampleRate : Num) (tempo : Nat) : Num :=
  sampleRate.div ((((Num.ofNat c.ticksPerPart).mul (Num.ofNat c.partsPerBeat)).mul (Num.ofNat tempo)).div (Num.ofNat 60))

/-- How many channels and instrument slots a song has (R30, R47). -/
def Song.channelCount (s : Song) : Nat := s.channels.length

def Song.slotCount (s : Song) : Nat := s.channels.length * s.instrumentsPerChannel

end Sys2Proof
end

