-- ==== Sys2Proof/Machine/SongRules.lean ====
section
/-! DEFINITION. The invariants of the song store that `SONG.LOAD` and `SONG.SET` check (`10_state.md` R47 to R52,
`44_synth.md` R256), and the song that reset loads (R46). -/

namespace Sys2Proof

/-- Upper ends of ranges that the source leaves open; at least 1 where the rules ask for a value of at least 1. -/
def Cfg.tempoMax (c : Cfg) : Nat := max 1 c.ranges.tempo
def Cfg.beatsPerBarMax (c : Cfg) : Nat := max 1 c.ranges.beatsPerBar
def Cfg.barCountMax (c : Cfg) : Nat := max 1 c.ranges.barCount

/-- A filter control point: type 0 to 2, `freq` and `gain` inside their ranges (R51). -/
def pointLegal (c : Cfg) (p : FilterPoint) : Bool :=
  p.kind < 3 && p.freq < c.filterFreqRange && p.gain < c.filterGainRange

/-- "A filter is a list of at most `filterMaxPoints` points, possibly empty" (R51). -/
def filterLegal (c : Cfg) (f : List FilterPoint) : Bool := f.length ≤ c.filterMaxPoints && f.all (pointLegal c)

/-- FM descriptors (R256): "every `j ∈ modulators[k]` to satisfy `j > k`" and "at least one carrier".
[DEDUCED, assumption 32] -/
def algorithmLegal (a : Algorithm) : Bool :=
  (List.range 4).all (fun k => (a.modulators.toList.getD k []).all (fun j => decide (k < j) && decide (j < 4)))
    && a.isCarrier.toList.any id

/-- An index into `envelopes` that names one of the nine types (R50, R53): "`SONG.LOAD` checks every `kind` and every
envelope index", so that `UnknownEnvelope` cannot occur in a `RUN` on a loaded song (R451).
[DESIGN CHOICE, assumption 63] -/
def envelopeLegal (c : Cfg) (i : Nat) : Bool := i < c.envelopes.length && (c.envelopes.get i).kind < 9

def operatorLegal (c : Cfg) (o : Operator) : Bool :=
  o.frequency ≤ c.ranges.operatorFrequency && o.amplitude ≤ c.ranges.operatorAmplitude
    && envelopeLegal c o.envelope

def controlsLegal (count top : Nat) (l : List Nat) : Bool := l.length == count && l.all (· ≤ top)

/-- An instrument record (R50, R52). [DEDUCED, assumption 32] -/
def instrumentLegal (c : Cfg) (i : Instrument) : Bool :=
  i.kind < 8 && i.volume ≤ c.ranges.volume && i.preset < c.presetCount
    && filterLegal c i.filter && filterLegal c i.distortionFilter
    && envelopeLegal c i.filterEnvelope && i.transition < c.transitions.length && i.chord < c.chords.length
    && i.vibrato < c.vibratos.length && i.interval < c.intervals.length && i.effects < 2 ^ 5
    && i.distortion < c.distortionRange && i.bitcrusherFreq ≤ c.ranges.bitcrusherFreq
    && i.bitcrusherQuantization ≤ c.ranges.bitcrusherQuantization && i.pan ≤ c.panMax && i.reverb < c.reverbRange
    && i.chipWave < c.chipWaves.length && i.noiseWave < c.noiseWaveCount
    && i.operators.length == operatorCount && i.operators.all (operatorLegal c)
    && i.algorithm < c.algorithms.length && algorithmLegal (c.algorithms.get i.algorithm)
    && i.feedbackType < c.feedbacks.length && i.feedbackAmplitude ≤ c.ranges.feedbackAmplitude
    && envelopeLegal c i.feedbackEnvelope
    && controlsLegal spectrumPoints c.ranges.spectrumControl i.spectrumWave
    && controlsLegal harmonicsPoints c.ranges.harmonicsControl i.harmonicsWave
    && i.pulseWidth ≤ c.ranges.pulseWidth && envelopeLegal c i.pulseEnvelope && i.sustain ≤ c.ranges.sustain
    && i.drumEnvelopes.length == drumCount && i.drumEnvelopes.all (envelopeLegal c)
    && i.drumSpectrumWaves.length == drumCount
    && i.drumSpectrumWaves.all (controlsLegal spectrumPoints c.ranges.spectrumControl)

/-- Pins "are strictly time-increasing" (R49). -/
def pinsRise : List Pin → Bool
  | [] => true
  | [_] => true
  | p :: q :: t => decide (p.time < q.time) && pinsRise (q :: t)

/-- A pin's interval inside its range, and the pitch that it bends to a pitch of the channel: `pitches[0] + interval`
travels as a pitch (R424), so that the round trip of R441 needs it in the channel's range.
[DEDUCED, assumption 83] -/
def bendLegal (c : Cfg) (top base : Nat) (interval : Int) : Bool :=
  interval.natAbs ≤ c.ranges.interval && 0 ≤ (base : Int) + interval && (base : Int) + interval ≤ top

/-- A note of a channel whose highest pitch is `top`, in a bar of `barParts` parts (R49): the chord is a list, in
which a pitch may stand twice. [DESIGN CHOICE, assumption 89] -/
def noteLegal (c : Cfg) (top barParts : Nat) (n : Note) : Bool :=
  n.start < n.stop && n.stop ≤ barParts
    && 1 ≤ n.pitches.length && n.pitches.length ≤ c.maxChordSize && n.pitches.all (· ≤ top)
    && pinsRise n.pins && n.pins.all (fun p => decide (p.expression ≤ expressionMax)
        && bendLegal c top (n.pitches.headD 0) p.interval)
    && (match n.pins.head?, n.pins.getLast? with
        | some p, some q => p.time == 0 && p.interval == 0 && q.time == n.stop - n.start
        | _, _ => false)

/-- "sorted by start, non-overlapping within a pattern" (R49). -/
def notesApart : List Note → Bool
  | [] => true
  | [_] => true
  | m :: n :: t => decide (m.stop ≤ n.start) && notesApart (n :: t)

def patternLegal (c : Cfg) (instruments top barParts : Nat) (p : Pattern) : Bool :=
  p.instrument < instruments && notesApart p.notes && p.notes.all (noteLegal c top barParts)

/-- A channel of a song (R48); `top` is the highest pitch of its kind of channel. -/
def channelLegal (c : Cfg) (s : Song) (top : Nat) (ch : Channel) : Bool :=
  ch.octave ≤ c.ranges.octave
    && ch.instruments.length == s.instrumentsPerChannel && ch.instruments.all (instrumentLegal c)
    && ch.patterns.length == s.patternsPerChannel
    && ch.patterns.all (patternLegal c s.instrumentsPerChannel top (s.beatsPerBar * c.partsPerBeat))
    && ch.bars.length == s.barCount && ch.bars.all (· ≤ s.patternsPerChannel)

/-- The song-level fields (R47). -/
def globalsLegal (c : Cfg) (s : Song) : Bool :=
  s.scale < c.scaleCount && s.key < c.keyCount && s.rhythm < c.rhythmCount
    && 1 ≤ s.tempo && s.tempo ≤ c.tempoMax && 1 ≤ s.beatsPerBar && s.beatsPerBar ≤ c.beatsPerBarMax
    && 1 ≤ s.barCount && s.barCount ≤ c.barCountMax && s.patternsPerChannel ≤ c.ranges.patternsPerChannel
    && s.instrumentsPerChannel ≤ c.ranges.instrumentsPerChannel
    && 1 ≤ s.loopLength && s.loopStart + s.loopLength ≤ s.barCount
    && s.pitchChannelCount ≤ c.ranges.pitchChannelCount && s.noiseChannelCount ≤ c.ranges.noiseChannelCount
    && s.channels.length == s.pitchChannelCount + s.noiseChannelCount

/-- Every invariant that `SONG.LOAD` checks (R380 step 1). [DESIGN CHOICE, assumption 8] -/
def songLegal (c : Cfg) (s : Song) : Bool :=
  globalsLegal c s
    && (s.channels.take s.pitchChannelCount).all (channelLegal c s c.ranges.pitchChannelPitch)
    && (s.channels.drop s.pitchChannelCount).all (channelLegal c s c.ranges.noiseChannelPitch)

/-- Every FM descriptor of the `algorithms` table keeps R256, named by an instrument or not. -/
def algorithmsLegal (c : Cfg) : Bool := algorithmLegal c.algorithms.head && c.algorithms.tail.all algorithmLegal

/-- What `SONG.LOAD` and `SONG.SET` accept: a song with every invariant, under a table of FM descriptors that are all
legal: "a table that breaks this makes `SONG.LOAD` raise `BadConfig`" (R256, R380).
[DEDUCED, assumption 32] -/
def songAccepted (c : Cfg) (s : Song) : Bool := songLegal c s && algorithmsLegal c

/-- A song with no channels, which is legal under every configuration: it stands in for a raw `defaultSong` that
breaks the constraint "a valid song" (part 2.1). [DESIGN CHOICE, assumption 8] -/
def emptySong : Song where
  scale := 0
  key := 0
  tempo := 1
  beatsPerBar := 1
  barCount := 1
  patternsPerChannel := 0
  rhythm := 0
  instrumentsPerChannel := 0
  loopStart := 0
  loopLength := 1
  pitchChannelCount := 0
  noiseChannelCount := 0
  channels := []

/-- `defaultSong` (R46). [DESIGN CHOICE, assumption 8] -/
def Cfg.initialSong (c : Cfg) : Song := if songLegal c c.defaultSong then c.defaultSong else emptySong

end Sys2Proof
end

