-- ==== Sys2Proof/Machine/State.lean ====
section
/-! DEFINITION. The machine's state: every piece of state that `10_state.md` gives the block, the ports of
`47_system.md` R370, and the state of the host's codec (`49_song_codec.md`), as plain data; the reasons a step stops;
and the state after reset (R64, R480). -/

namespace Sys2Proof.Machine

/-- The reasons of a machine fault: there is none. Every block fault of R453 is a latch that the machine takes and
goes on from (R452), so it is a next state. -/
inductive Fault
deriving DecidableEq, Repr

/-- The reasons a step is refused. -/
inductive Refusal where
  /-- `exec` answers it for an instruction that has no meaning yet: raised by no arm of the finished model. Safe. -/
  | notModelled (mnemonic : String)
  /-- `RUN` answers it while `playing = false` and the configuration's `pausedRunPolicy` is `refuse`
  (R332, D17, U13: "a model refuses the step"). Safe. -/
  | runWhilePaused
deriving DecidableEq, Repr

/-- The state of a tone slot (R21). -/
inductive ToneState where
  | free
  | active
  | released
deriving DecidableEq, Repr

/-- A note of the tone's channel: its pattern and its index there (R21), and the bar it was started in, counted as
`Clock.barsPassed` counts, because "notes in different bars are never joined" (R346). [DEDUCED, assumption 94] -/
structure NoteRef where
  pattern : Nat
  note : Nat
  bar : Nat
deriving DecidableEq, Repr

/-- A dynamic biquad: fourteen registers (R24). -/
structure Biquad where
  a1 : Num
  a2 : Num
  b0 : Num
  b1 : Num
  b2 : Num
  a1Delta : Num
  a2Delta : Num
  b0Delta : Num
  b1Delta : Num
  b2Delta : Num
  in1 : Num
  in2 : Num
  out1 : Num
  out2 : Num
deriving DecidableEq, Repr

/-- Every register 0 (R64). -/
def Biquad.zero : Biquad :=
  ⟨.zero, .zero, .zero, .zero, .zero, .zero, .zero, .zero, .zero, .zero, .zero, .zero, .zero, .zero⟩

/-- A guitar string (R25). -/
structure StringState where
  ring : Memory Num
  delayIndex : Nat
  delayLength : Num
  delayLengthDelta : Num
  fracG : Num
  fracIn1 : Num
  fracOut1 : Num
  dispersion : Biquad
  shelf : Biquad
  pluckedPitch : Option Nat
deriving DecidableEq, Repr

/-- A string of the reset tone (R28). -/
def StringState.zero : StringState :=
  ⟨[], 0, .zero, .zero, .zero, .zero, .zero, .zero, .zero, none⟩

/-- A tone slot (R21 to R23, R25). `pitchCount` is the length of `pitches`. `carried` is the model's own: whether the
tone was carried over seamlessly (R226 asks it). -/
structure Tone where
  state : ToneState
  channel : Nat
  instrument : Nat
  note : Option NoteRef
  prevNote : Option NoteRef
  nextNote : Option NoteRef
  pitches : List Nat
  chordSize : Nat
  noteStartPart : Nat
  noteEndPart : Nat
  ticksSinceReleased : Nat
  liveInput : Bool
  isLastTick : Bool
  fadeOutFast : Bool
  atNoteStart : Bool
  carried : Bool
  phases : Vector Num 4
  phaseDeltas : Vector Num 4
  phaseDeltaScale : Num
  expressionStarts : Vector Num 4
  expressionDeltas : Vector Num 4
  intervalMult : Num
  intervalExpressionMult : Num
  pulseWidth : Num
  pulseWidthDelta : Num
  feedbackMult : Num
  feedbackDelta : Num
  feedbackOutputs : Vector Num 4
  noiseSample : Num
  prevIntegralA : Num
  prevIntegralB : Num
  drumsetPitch : Nat
  filters : List Biquad
  filterCount : Nat
  strings : List StringState
deriving DecidableEq, Repr

/-- Four zeros. -/
def zeros4 : Vector Num 4 := #v[.zero, .zero, .zero, .zero]

/-- The reset tone (R28): every value 0, every reference none, every flag false except `atNoteStart`.
[DESIGN CHOICE, assumption 56] -/
def Tone.zero (c : Cfg) : Tone where
  state := .free
  channel := 0
  instrument := 0
  note := none
  prevNote := none
  nextNote := none
  pitches := []
  chordSize := 0
  noteStartPart := 0
  noteEndPart := 0
  ticksSinceReleased := 0
  liveInput := false
  isLastTick := false
  fadeOutFast := false
  atNoteStart := true
  carried := false
  phases := zeros4
  phaseDeltas := zeros4
  phaseDeltaScale := .zero
  expressionStarts := zeros4
  expressionDeltas := zeros4
  intervalMult := .zero
  intervalExpressionMult := .zero
  pulseWidth := .zero
  pulseWidthDelta := .zero
  feedbackMult := .zero
  feedbackDelta := .zero
  feedbackOutputs := zeros4
  noiseSample := .zero
  prevIntegralA := .zero
  prevIntegralB := .zero
  drumsetPitch := 0
  filters := List.replicate c.filterMaxPoints .zero
  filterCount := 0
  strings := List.replicate c.maxChordSize .zero

/-- An instrument slot (R31, R32). -/
structure Slot where
  awake : Bool
  flushing : Bool
  deactivateAfterThisTick : Bool
  attenuationProgress : Num
  flushedSamples : Num
  delayInputMult : Num
  tonesThisTick : Nat
  crushPhase : Num
  crushHold : Num
  fxFilters : List Biquad
  fxFilterCount : Nat
  panRing : Memory Num
  panPos : Nat
  chorusRingL : Memory Num
  chorusRingR : Memory Num
  chorusPos : Nat
  chorusPhase : Num
  reverbRing : Memory Num
  reverbPos : Nat
  reverbLP : Vector Num 4
deriving DecidableEq, Repr

/-- An instrument slot after reset (R64). [DESIGN CHOICE, assumption 56] -/
def Slot.zero (c : Cfg) : Slot where
  awake := false
  flushing := false
  deactivateAfterThisTick := false
  attenuationProgress := .zero
  flushedSamples := .zero
  delayInputMult := .one
  tonesThisTick := 0
  crushPhase := .zero
  crushHold := .zero
  fxFilters := List.replicate c.filterMaxPoints .zero
  fxFilterCount := 0
  panRing := []
  panPos := 0
  chorusRingL := []
  chorusRingR := []
  chorusPos := 0
  chorusPhase := .zero
  reverbRing := []
  reverbPos := 0
  reverbLP := zeros4

/-- The name of a wave cache entry (R60); `slot` is an instrument slot, `drum` one of the twelve. -/
inductive WaveKey where
  | sine
  | chip (id : Nat)
  | noise (id : Nat)
  | spectrum (slot : Nat)
  | harmonics (slot : Nat)
  | drum (slot drum : Nat)
  | impulse
deriving DecidableEq, Repr

/-- A wave cache entry (R60): its elements and its `valid` flag (`W.valid`, R18). -/
structure WaveEntry where
  key : WaveKey
  data : List Num
  valid : Bool
deriving DecidableEq, Repr

/-- The song clock (R15). `samplesPerTick` is the length of the current tick: the value that R337 computes "at `PLAY`
and at every tick boundary" stands until the next one, because an edit of `tempo` "takes effect at the next tick
boundary" (R381). `countdownSet` is false while `tickSampleCountdown` is unspecified (R374). `barsPassed` is the model's own: how
many bars the clock has moved on, which tells a note from the same note of a repeated pattern (R346).
[DEDUCED, assumption 94] -/
structure Clock where
  bar : Nat
  beat : Nat
  part : Nat
  tick : Nat
  tickSampleCountdown : Num
  countdownSet : Bool
  samplesPerTick : Num
  barsPassed : Nat
deriving DecidableEq, Repr

/-- The random source (R61): what it was seeded with, and how many values were drawn since. -/
structure Rng where
  seed : BitVec 64
  drawn : Nat
deriving DecidableEq, Repr

/-- What the datapath owns: the state that the sequencer and the direct-mode unit operations work on. A memory with an
`…Epoch` beside it is unspecified where nothing is listed (U2, U3): the number picks the free values. -/
structure Engine where
  work : Memory Num
  workEpoch : Nat
  scratch : Memory Num
  mixL : Memory Num
  mixR : Memory Num
  mixEpoch : Nat
  outL : Memory Single
  outR : Memory Single
  outEpoch : Nat
  limit : Num
  clock : Clock
  tones : List Tone
  activeTones : List (List Nat)
  releasedTones : List (List Nat)
  slots : List Slot
  waves : List WaveEntry
  rng : Rng
deriving DecidableEq, Repr

/-- The step of the schedule that the sequencer is at (R14, R330). -/
inductive Stage where
  | sync
  | voices
  | limiter
  | clock
deriving DecidableEq, Repr

/-- The sequencer's place (R14). -/
inductive Seq where
  | idle
  | run (pos : Nat) (stage : Stage)
deriving DecidableEq, Repr

/-- What the codec does next (R410, R411): `encoding` writes the URL form of its song, `exporting` the JSON form.
`failed` is `CodecError` (R440): the tag being read, none for "version" or for text that is not JSON, and the
position. -/
inductive CodecStatus where
  | idle
  | framing
  | records
  | done
  | failed (tag : Option Byte) (position : Nat)
  | encoding
  | exporting
deriving DecidableEq, Repr

/-- The legacy filter settings of one instrument, kept until the translator runs (R430). -/
structure LegacyFilter where
  channel : Nat
  instrument : Nat
  cutoff : Option Nat
  resonance : Option Nat
  envelope : Option Nat
deriving DecidableEq, Repr

/-- The state of the host's song codec (`49_song_codec.md`). -/
structure Codec where
  text : List Byte
  pos : Nat
  status : CodecStatus
  version : Nat
  song : Song
  cursor : Option (Nat × Nat)
  legacy : List LegacyFilter
  legacyReverb : Option Nat
  output : List Byte
deriving DecidableEq, Repr

/-- Whose turn it is: the agents of R10 that this machine holds. -/
inductive Agent where
  | engine
  | codec
deriving DecidableEq, Repr

/-- The machine's state. -/
structure State where
  /-- the result registers `r[0..15]` (R12) -/
  r : Vector Num 16
  eng : Engine
  /-- control registers 0 to 3 (R44) -/
  sampleRate : Num
  volume : Num
  liveDeadlineSeconds : Num
  rngSeed : BitVec 64
  song : Song
  /-- flags (R18) -/
  playing : Bool
  busy : Bool
  fault : Bool
  audioActive : Bool
  faultCode : BitVec 8
  faultInfo : BitVec 32
  liveDeadline : Option Num
  monoTime : Num
  seq : Seq
  /-- the command port, the payload port and the response port (R370) -/
  port : List Word
  payload : List Payload
  responses : List Word
  /-- the platform's reset line (R482) -/
  resetPin : Bool
  /-- whose step is next, and the codec -/
  turn : Agent
  codec : Codec
  /-- the model's own: how many commands were accepted; it names the free values -/
  epoch : Nat
deriving DecidableEq, Repr

/-- The names of the places where free values stand: the first number of the list given to `Config.freeBits`. -/
inductive Place where
  | register
  | countdown
  | work
  | mixLeft
  | mixRight
  | outLeft
  | outRight
  | result
  | voice
  | sample
  | wreck
  | transform
deriving DecidableEq, Repr

def Place.number : Place → Nat
  | .register => 0
  | .countdown => 1
  | .work => 2
  | .mixLeft => 3
  | .mixRight => 4
  | .outLeft => 5
  | .outRight => 6
  | .result => 7
  | .voice => 8
  | .sample => 9
  | .wreck => 10
  | .transform => 11

/-- The free value of a place. [DESIGN CHOICE, assumption 3] -/
def freeNum (epoch : Nat) (p : Place) (key : List Nat) : Num := ⟨Config.freeBits epoch (p.number :: key)⟩

/-- The free output element of a place. [DESIGN CHOICE, assumption 3] -/
def freeOut (epoch : Nat) (p : Place) (key : List Nat) : Single := Config.freeSingle epoch (p.number :: key)

/-- The result registers with free contents (U1). [DESIGN CHOICE, assumption 4] -/
def freeRegisters (epoch : Nat) : Vector Num 16 := Vector.ofFn (fun i => freeNum epoch .register [i.val])

/-- The clock after reset (R64); its countdown is unspecified (U4).
[DESIGN CHOICE, assumption 5; DESIGN CHOICE, assumption 56] -/
def Clock.fresh (c : Cfg) (sampleRate : Num) (song : Song) (epoch : Nat) : Clock where
  bar := 0
  beat := 0
  part := 0
  tick := 0
  tickSampleCountdown := freeNum epoch .countdown []
  countdownSet := false
  samplesPerTick := c.samplesPerTickOf sampleRate song.tempo
  barsPassed := 0

/-- The engine after reset, for a song: every tone slot free, every queue empty, every slot at its reset state.
[DESIGN CHOICE, assumption 56] -/
def Engine.fresh (c : Cfg) (sampleRate : Num) (song : Song) (epoch : Nat) : Engine where
  work := []
  workEpoch := epoch
  scratch := []
  mixL := []
  mixR := []
  mixEpoch := epoch
  outL := []
  outR := []
  outEpoch := epoch
  limit := .zero
  clock := Clock.fresh c sampleRate song epoch
  tones := List.replicate c.toneSlots (Tone.zero c)
  activeTones := List.replicate song.channelCount []
  releasedTones := List.replicate song.slotCount []
  slots := List.replicate song.slotCount (Slot.zero c)
  waves := []
  rng := ⟨0#64, 0⟩

/-- 44100, the reset value of `SAMPLE_RATE` (R44). -/
def resetSampleRate : Num := ⟨0x40E5888000000000#64⟩

/-- 10, the reset value of `LIVE_DEADLINE` (R44). -/
def resetLiveDeadline : Num := ⟨0x4024000000000000#64⟩

/-- The codec with nothing to do. [DESIGN CHOICE, assumption 56] -/
def Codec.fresh (song : Song) : Codec := ⟨[], 0, .idle, 9, song, none, [], none, []⟩

/-- The machine after reset under a configuration (R64, R480).
[DESIGN CHOICE, assumption 4; DESIGN CHOICE, assumption 6] -/
def resetWith (c : Cfg) : State where
  r := freeRegisters 0
  eng := Engine.fresh c resetSampleRate c.initialSong 0
  sampleRate := resetSampleRate
  volume := .one
  liveDeadlineSeconds := resetLiveDeadline
  rngSeed := 0#64
  song := c.initialSong
  playing := false
  busy := false
  fault := false
  audioActive := false
  faultCode := 0#8
  faultInfo := 0#32
  liveDeadline := none
  monoTime := .zero
  seq := .idle
  port := []
  payload := []
  responses := []
  resetPin := false
  turn := .engine
  codec := Codec.fresh c.initialSong
  epoch := 0

/-- The machine right after reset. -/
def State.reset : State := resetWith Config.cfg

end Sys2Proof.Machine
end

