-- ==== Sys2Proof/Machine/Operands.lean ====
section
/-! DEFINITION. Operand forms: what a selector names (`30_encoding.md` R104) and the ranges of kind `I` operands
(R103), and what an operation may read besides its operands. -/

namespace Sys2Proof.Machine

/-- What a fault records (R452): its kind and its detail word. -/
inductive FaultKind where
  | illegalCommand
  | badIndex
  | badConfig
  | badOperand
  | unknownInstrument
  | unknownEnvelope
  | toneOverflow
deriving DecidableEq, Repr

/-- Fault codes (R453). -/
def FaultKind.code : FaultKind → BitVec 8
  | .illegalCommand => 1#8
  | .badIndex => 2#8
  | .badConfig => 3#8
  | .badOperand => 4#8
  | .unknownInstrument => 5#8
  | .unknownEnvelope => 6#8
  | .toneOverflow => 7#8

/-- A raise: the fault and its `faultInfo`. -/
structure Raise where
  kind : FaultKind
  info : BitVec 32
deriving DecidableEq, Repr

/-- What an operation of the engine reads: configuration, control registers, song, the header bits of the command
being executed (`info`), the number that names its free values, and the sample position inside a `RUN`. -/
structure Ctx where
  cfg : Cfg
  sampleRate : Num
  volume : Num
  song : Song
  info : BitVec 32
  epoch : Nat
  pos : Nat

/-- A free value of the operation. [DESIGN CHOICE, assumption 7] -/
def Ctx.free (x : Ctx) (p : Place) (key : List Nat) : Num := freeNum x.epoch p (x.pos :: key)

def Ctx.badIndex (x : Ctx) : Raise := ⟨.badIndex, x.info⟩

def Ctx.badOperand (x : Ctx) : Raise := ⟨.badOperand, x.info⟩

/-- The operation's value, or a fault where there is none. -/
def orRaise {α : Type} (o : Option α) (r : Raise) : Except Raise α :=
  match o with
  | some a => .ok a
  | none => .error r

/-- The check of a condition that a command needs. -/
def need (b : Bool) (r : Raise) : Except Raise Unit := if b then .ok () else .error r

/-- The configuration record of an instrument slot: `islot = channel × instrumentsPerChannel + instrument` (R104). -/
def slotInstrument (song : Song) (islot : Nat) : Option Instrument :=
  if islot < song.slotCount then
    match song.channels[islot / song.instrumentsPerChannel]? with
    | some ch => ch.instruments[islot % song.instrumentsPerChannel]?
    | none => none
  else none

/-- The channel of an instrument slot. -/
def slotChannel (song : Song) (islot : Nat) : Nat := islot / song.instrumentsPerChannel

/-- Tone slot `u`, whatever its state: `BadIndex` where it does not exist. -/
def toneAt (x : Ctx) (e : Engine) (u : Nat) : Except Raise Tone := orRaise e.tones[u]? x.badIndex

/-- Tone slot `u` in use: "a tone operation on a `Free` slot" raises `BadIndex` (R453). -/
def liveTone (x : Ctx) (e : Engine) (u : Nat) : Except Raise Tone :=
  match e.tones[u]? with
  | some t => if t.state = .free then .error x.badIndex else .ok t
  | none => .error x.badIndex

/-- Instrument slot `u` with its configuration record: a bad `u` raises `BadIndex` (`45_effects.md`). -/
def slotAt (x : Ctx) (e : Engine) (u : Nat) : Except Raise (Slot × Instrument) :=
  match e.slots[u]?, slotInstrument x.song u with
  | some i, some ins => .ok (i, ins)
  | _, _ => .error x.badIndex

/-- `runMax`, the length of `SCRATCH`: "grown on demand" and "at least `ceil(samplesPerTick)`" (R40), the configured
length where it is enough. [DESIGN CHOICE, assumption 57] -/
def Engine.runMax (c : Cfg) (e : Engine) : Nat := max c.runMaxLeast (ceilCount e.clock.samplesPerTick)

/-- The length of the mix buffers: a `RUN` of `outMax` samples and an `FX.RUN` of `runMax` samples both fit (R41,
R300, part 2.1). [DESIGN CHOICE, assumption 10] -/
def Engine.mixSize (c : Cfg) (e : Engine) : Nat := max (e.runMax c) c.outMax

/-- `1 ≤ runLength ≤ runMax` (R212, R240), else `BadOperand`. -/
def runLengthLegal (c : Cfg) (e : Engine) (n : Nat) : Bool := decide (1 ≤ n) && decide (n ≤ e.runMax c)

def Engine.setTone (e : Engine) (u : Nat) (t : Tone) : Engine := { e with tones := e.tones.set u t }

def Engine.setSlot (e : Engine) (u : Nat) (i : Slot) : Engine := { e with slots := e.slots.set u i }

/-- The biquad that `BQ.*` selectors name: bank, slot, stage (R104). A tone slot's biquads exist whatever the slot's
state is. [DEDUCED, assumption 36] -/
def biquadAt (e : Engine) (u v w : Nat) : Option Biquad :=
  match u with
  | 0 => (e.tones[v]?).bind (fun t => t.filters[w]?)
  | 1 => (e.slots[v]?).bind (fun i => i.fxFilters[w]?)
  | 2 => (e.tones[v]?).bind (fun t => (t.strings[w]?).map StringState.dispersion)
  | 3 => (e.tones[v]?).bind (fun t => (t.strings[w]?).map StringState.shelf)
  | _ => none

/-- The tone whose string `w` is changed. -/
def Tone.modifyString (t : Tone) (w : Nat) (f : StringState → StringState) : Tone :=
  { t with strings := t.strings.modify w f }

/-- A write of the biquad that the selectors name. -/
def Engine.setBiquad (e : Engine) (u v w : Nat) (f : Biquad) : Engine :=
  match u with
  | 0 => { e with tones := e.tones.modify v (fun t => { t with filters := t.filters.set w f }) }
  | 1 => { e with slots := e.slots.modify v (fun i => { i with fxFilters := i.fxFilters.set w f }) }
  | 2 => { e with tones := e.tones.modify v (fun t => t.modifyString w (fun st => { st with dispersion := f })) }
  | 3 => { e with tones := e.tones.modify v (fun t => t.modifyString w (fun st => { st with shelf := f })) }
  | _ => e

/-- A write of element `i` of a four-element register group. -/
def set4 (v : Vector Num 4) (i : Nat) (x : Num) : Vector Num 4 := v.setIfInBounds i x

def get4 (v : Vector Num 4) (i : Nat) : Num := v.toArray.getD i .zero

end Sys2Proof.Machine
end

