-- ==== Sys2Proof/Machine/Flags.lean ====
section
/-! DEFINITION. Flags (`10_state.md` R18, R19): there are no arithmetic condition codes, and "no operation sets a flag
as a by-product of arithmetic". What is here: the status word, the wake-up flags of an instrument slot, and the
`valid` flags of the wave caches. -/

namespace Sys2Proof.Machine

/-- A flag as a bit. -/
def flagBit (b : Bool) (i : Nat) : Word := BitVec.ofNat 64 (if b then 2 ^ i else 0)

/-- `STATUS` (R44): bit 0 `busy`, bit 1 `playing`, bit 2 `fault`, bit 3 `audioActive`. A read executes "not busy at
the time the read executes" (R480), so the caller gives `busy`. [DEDUCED, assumption 42] -/
def statusWord (busy playing fault audioActive : Bool) : Word :=
  flagBit busy 0 ||| flagBit playing 1 ||| flagBit fault 2 ||| flagBit audioActive 3

/-- "a new tone arrives" (R310). -/
def Slot.wake (i : Slot) : Slot :=
  { i with
    awake := true
    flushing := false
    deactivateAfterThisTick := false
    attenuationProgress := .zero
    flushedSamples := .zero
    delayInputMult := .one }

/-- The valid entry of a key. -/
def findWave (l : List WaveEntry) (k : WaveKey) : Option (List Num) :=
  match l with
  | [] => none
  | w :: t => if w.key = k && w.valid then some w.data else findWave t k

/-- A builder's result: the entry is filled and its flag set (R89). -/
def setWave (l : List WaveEntry) (k : WaveKey) (data : List Num) : List WaveEntry :=
  match l with
  | [] => [⟨k, data, true⟩]
  | w :: t => if w.key = k then ⟨k, data, true⟩ :: t else w :: setWave t k data

/-- The flags of the entries that `p` names fall. -/
def invalidateWaves (l : List WaveEntry) (p : WaveKey → Bool) : List WaveEntry :=
  l.map (fun w => if p w.key then { w with valid := false } else w)

end Sys2Proof.Machine
end

