-- ==== Sys2Proof/Machine/Ops.lean ====
section
/-! DEFINITION. Shared operations: raising a fault (`60_exceptions.md` R452), how a command ends, the result
registers, the memory spaces as they are read, and the tone pool. -/

namespace Sys2Proof.Machine

/-! Taking a fault (R452) and, beside it, the only way back (R457: `RESET`, in `SystemOps.lean`). -/

/-- `raise`: only the first fault since reset is recorded (R456); the sequencer goes idle and `busy` falls.
[DEDUCED, assumption 44] -/
def raise (f : Raise) (s : State) : State :=
  if s.fault then { s with seq := .idle, busy := false }
  else
    { s with
      fault := true
      faultCode := f.kind.code
      faultInfo := f.info
      seq := .idle
      busy := false }

/-- A command whose checks come before its writes: its result, or the fault taken in the state before it (R452,
"a direct-mode fault is *precise*"). [DEDUCED, assumption 44] -/
def settle (s : State) (r : Except Raise State) : State :=
  match r with
  | .ok s' => s'
  | .error f => raise f s

/-- A command that is ignored while `fault` is set (R457). [DEDUCED, assumption 44] -/
def command (s : State) (r : Except Raise State) : State := if s.fault then s else settle s r

/-- A read command: it executes while `fault` is set, and one that would itself raise then "returns no response word
and the latch keeps the first fault" (R457). [DEDUCED, assumption 44] -/
def readCommand (s : State) (r : Except Raise Word) : State :=
  match r with
  | .ok w => { s with responses := s.responses ++ [w] }
  | .error f => if s.fault then s else raise f s

/-- `hdr[63:32]` of an instruction's header (R453). -/
def commandInfo (i : Instr) : BitVec 32 := headerInfo i.header

/-- What the operations of a command read. -/
def State.ctx (s : State) (c : Cfg) (i : Instr) : Ctx := ⟨c, s.sampleRate, s.volume, s.song, commandInfo i, s.epoch, 0⟩

/-- A command that works on the engine alone. -/
def onEngine (s : State) (r : Except Raise Engine) : State :=
  command s (r.map (fun e => { s with eng := e }))

/-! Result registers (R12). -/

def State.setResult (s : State) (i : Nat) (v : Num) : State := { s with r := s.r.setIfInBounds i v }

/-- Results in `r[i]`, `r[i + 1]`, …. -/
def setResults (r : Vector Num 16) (i : Nat) (l : List Num) : Vector Num 16 :=
  match l with
  | [] => r
  | v :: t => setResults (r.setIfInBounds i v) (i + 1) t

/-- A command that only leaves results from `r[0]` on. -/
def answer (s : State) (l : List Num) : State := { s with r := setResults s.r 0 l }

/-! Memory spaces whose unwritten elements are unspecified (U2, U3). -/

def Engine.readWork (e : Engine) (i : Nat) : Num := (Memory.find e.work i).getD (freeNum e.workEpoch .work [i])

def Engine.writeWork (e : Engine) (i : Nat) (v : Num) : Engine := { e with work := Memory.write none e.work i v }

/-- The first `n` elements of `WORK`. -/
def Engine.workPrefix (e : Engine) (n : Nat) : List Num := (List.range n).map e.readWork

/-- `WORK[0 .. n−1]` replaced by the elements of a list. -/
def Engine.fillWork (e : Engine) (l : List Num) : Engine :=
  { e with work := (l.zipIdx).foldl (fun m p => Memory.write none m p.2 p.1) e.work }

def Engine.readMixL (e : Engine) (i : Nat) : Num := (Memory.find e.mixL i).getD (freeNum e.mixEpoch .mixLeft [i])
def Engine.readMixR (e : Engine) (i : Nat) : Num := (Memory.find e.mixR i).getD (freeNum e.mixEpoch .mixRight [i])
def Engine.readOutL (e : Engine) (i : Nat) : Single := (Memory.find e.outL i).getD (freeOut e.outEpoch .outLeft [i])
def Engine.readOutR (e : Engine) (i : Nat) : Single := (Memory.find e.outR i).getD (freeOut e.outEpoch .outRight [i])

/-- Adds to one element of both mix buffers. -/
def Engine.addMix (e : Engine) (i : Nat) (l r : Num) : Engine :=
  { e with
    mixL := Memory.write none e.mixL i ((e.readMixL i).add l)
    mixR := Memory.write none e.mixR i ((e.readMixR i).add r) }

/-! Random source (R61). -/

/-- `draw(0, 1)`: a value of `[0, 1)` (R8). [DESIGN CHOICE, assumption 40] -/
def drawUnit (g : Rng) : Num × Rng :=
  let x : Num := ⟨Config.rngRaw g.seed g.drawn⟩
  (if Num.zero.le x && x.lt .one then x else .zero, { g with drawn := g.drawn + 1 })

/-! Tone pool and queues (R27, R28). -/

/-- The lowest-numbered `Free` slot (R28). -/
def freeSlotFrom (i : Nat) (l : List Tone) : Option Nat :=
  match l with
  | [] => none
  | t :: rest => if t.state = .free then some i else freeSlotFrom (i + 1) rest

/-- Removes a slot from every queue. -/
def unqueue (queues : List (List Nat)) (u : Nat) : List (List Nat) := queues.map (fun q => q.filter (· != u))

/-- "Removes tone slot `u` from whichever queue holds it and sets `T.state <- Free`" (R225). -/
def freeTone (e : Engine) (u : Nat) : Engine :=
  { e with
    tones := e.tones.modify u (fun t => { t with state := .free })
    activeTones := unqueue e.activeTones u
    releasedTones := unqueue e.releasedTones u }

/-- "Moves tone slot `u` from `activeTones[T.channel]` to the end of `releasedTones[T.instrument]`" (R224). -/
def releaseTone (e : Engine) (u : Nat) (t : Tone) : Engine :=
  { e with
    tones := e.tones.set u { t with state := .released, ticksSinceReleased := 0 }
    activeTones := unqueue e.activeTones u
    releasedTones := e.releasedTones.modify t.instrument (fun q => q ++ [u]) }

/-- Wake-up of an instrument slot (R310). -/
def wakeSlot (e : Engine) (islot : Nat) : Engine := { e with slots := e.slots.modify islot Slot.wake }

/-- `newTone()` (R28) as a tone of instrument slot `islot`, put at position `k` of its channel's queue; the slot
wakes. `asker` is "the channel or instrument slot asking" (R453). [DEDUCED, assumption 35] -/
def newTone (x : Ctx) (e : Engine) (islot k asker : Nat) : Except Raise (Nat × Engine) :=
  match freeSlotFrom 0 e.tones with
  | none => .error ⟨.toneOverflow, BitVec.ofNat 32 (asker % 2 ^ 16)⟩
  | some u =>
    let channel := slotChannel x.song islot
    let t := { Tone.zero x.cfg with state := .active, channel := channel, instrument := islot }
    .ok (u, wakeSlot { e with
      tones := e.tones.set u t
      activeTones := e.activeTones.modify channel (fun q => q.take k ++ u :: q.drop k) } islot)

/-- Every tone slot at the reset tone and every queue empty: the part of a reset that `CFGW BAR` performs (R378).
[DEDUCED, assumption 31] -/
def clearTones (c : Cfg) (song : Song) (e : Engine) : Engine :=
  { e with
    tones := List.replicate c.toneSlots (Tone.zero c)
    activeTones := List.replicate song.channelCount []
    releasedTones := List.replicate song.slotCount [] }

/-- Every tone and instrument slot, queue and ring reset, sized for a song (R45, R380 steps 3 and 4).
[DEDUCED, assumption 31] -/
def clearSlots (c : Cfg) (song : Song) (e : Engine) : Engine :=
  { clearTones c song e with slots := List.replicate song.slotCount (Slot.zero c) }

end Sys2Proof.Machine
end

