-- ==== Sys2Proof/Machine/Filter.lean ====
section
/-! DEFINITION. The filter kit (`41_filter.md`): the dynamic biquad, the cascade, the coefficient helpers and the filter
control points; and the meanings of `BQ.*`, `COEF.*`, `FPT.*` and `VOLCOMP`. -/

namespace Sys2Proof.Machine

/-- `loadCoefficientsWithGradient` (R151): the coefficients become `start`, each delta `(end − start) × invN`; the
history is not touched. -/
def loadGradient (f : Biquad) (start finish : CoefSet) (invN : Num) : Biquad :=
  { f with
    a1 := start.a1
    a2 := start.a2
    b0 := start.b0
    b1 := start.b1
    b2 := start.b2
    a1Delta := (finish.a1.sub start.a1).mul invN
    a2Delta := (finish.a2.sub start.a2).mul invN
    b0Delta := (finish.b0.sub start.b0).mul invN
    b1Delta := (finish.b1.sub start.b1).mul invN
    b2Delta := (finish.b2.sub start.b2).mul invN }

/-- The output of Direct Form I, "summed left to right as written" (R152). -/
def biquadOutput (f : Biquad) (x : Num) : Num :=
  ((((f.b0.mul x).add (f.b1.mul f.in1)).add (f.b2.mul f.in2)).sub (f.a1.mul f.out1)).sub (f.a2.mul f.out2)

/-- One sample through a biquad (R152): the output, and the registers after it. -/
def biquadStep (f : Biquad) (x : Num) : Num × Biquad :=
  let y := biquadOutput f x
  (y, { f with
    in2 := f.in1
    in1 := x
    out2 := f.out1
    out1 := y
    a1 := f.a1.add f.a1Delta
    a2 := f.a2.add f.a2Delta
    b0 := f.b0.add f.b0Delta
    b1 := f.b1.add f.b1Delta
    b2 := f.b2.add f.b2Delta })

/-- A cascade of the first `n` biquads of a list (R154). -/
def cascade (n : Nat) (fs : List Biquad) (x : Num) : Num × List Biquad :=
  match n, fs with
  | 0, fs => (x, fs)
  | _ + 1, [] => (x, [])
  | n + 1, f :: t =>
    let a := biquadStep f x
    let b := cascade n t a.1
    (b.1, a.2 :: b.2)

/-- The fractional-delay all-pass as a coefficient set (R163). [DEDUCED, assumption 13] -/
def fdapOf (d : Num) : CoefSet :=
  let g := (Num.one.sub d).div (Num.one.add d)
  ⟨g, .zero, g, .one, .zero⟩

/-- `Hz = maxHz · 2^((freq − (range−1)) · step)`, for a fractional `freq` too (R165). -/
def pointHz (c : Cfg) (freq : Num) : Num :=
  c.filterMaxHz.mul (c.exp2Of ((freq.sub (Num.ofNat (c.filterFreqRange - 1))).mul c.filterFreqStep))

/-- `linearGain = 2^((gain − center) · gainStep)` (R166). -/
def pointGain (c : Cfg) (gain : Nat) : Num :=
  c.exp2Of (((Num.ofNat gain).sub (Num.ofNat c.filterGainCenter)).mul c.filterGainStep)

/-- `ω = 2π × Hz / sampleRate`, "clamped just below π" (R165, R169). -/
def pointOmega (c : Cfg) (sampleRate freq : Num) : Num :=
  let omega := (twoPiTimes (pointHz c freq)).div sampleRate
  if Num.pi.le omega then c.omegaLimit else omega

/-- The coefficient set of a control point (R169). "For every legal `(freq, gain, type)` on every filter type, the static
biquad's poles lie inside the unit circle" (R164): this holds for a corner or a gain that leaves the helpers' domain
too (a gain that underflows to 0). [DESIGN CHOICE, assumption 12] -/
def pointCoefs (c : Cfg) (sampleRate : Num) (kind : Nat) (freq : Num) (gain : Nat) : CoefSet :=
  let omega := pointOmega c sampleRate freq
  let g := pointGain c gain
  polesInside2 (if kind = 0 then c.lp2Of omega g else if kind = 1 then c.hp2Of omega g else c.peakOf omega g)

/-- "the product, capped at 3.0", in point order from 1.0 (R168). -/
def prefilterMult (c : Cfg) (points : List FilterPoint) : Num :=
  Num.min prefilterCap (points.foldl (fun m p => m.mul (c.volCompOf p.kind p.freq p.gain)) .one)

/-- What a coefficient helper returns: the five coefficients and the order (R155). -/
def coefAnswer (k : CoefSet) (order : Nat) : List Num := [k.a1, k.a2, k.b0, k.b1, k.b2, Num.ofNat order]

/-! Meanings. -/

def bqLoadgradWith (x : Ctx) (s : State) (u v w : Nat) (start finish : CoefSet) (invN : Num) : State :=
  onEngine s ((orRaise (biquadAt s.eng u v w) x.badIndex).map
    (fun f => s.eng.setBiquad u v w (loadGradient f start finish invN)))

def bqStepWith (x : Ctx) (s : State) (u v w : Nat) (sample : Num) : State :=
  command s ((orRaise (biquadAt s.eng u v w) x.badIndex).map
    (fun f => answer { s with eng := s.eng.setBiquad u v w (biquadStep f sample).2 } [(biquadStep f sample).1]))

def fptHzWith (x : Ctx) (s : State) (freq : Nat) : State :=
  command s ((need (decide (freq < x.cfg.filterFreqRange)) x.badOperand).map
    (fun _ => answer s [pointHz x.cfg (Num.ofNat freq)]))

def fptGainWith (x : Ctx) (s : State) (gain : Nat) : State :=
  command s ((need (decide (gain < x.cfg.filterGainRange)) x.badOperand).map
    (fun _ => answer s [pointGain x.cfg gain]))

def volcompWith (x : Ctx) (s : State) (kind freq gain : Nat) : State :=
  command s ((need (decide (kind ≤ 2) && decide (freq < x.cfg.filterFreqRange)
      && decide (gain < x.cfg.filterGainRange)) x.badOperand).map
    (fun _ => answer s [x.cfg.volCompOf kind freq gain]))

/-- The set of `COEF.FDAP`: the formula from its limit `d = −1` up, any values below it (R155, R163).
[DEDUCED, assumption 13] -/
def fdapAnswer (x : Ctx) (d : Num) : CoefSet :=
  if d.lt Num.one.neg then
    ⟨x.free .result [0], x.free .result [1], x.free .result [2], x.free .result [3], x.free .result [4]⟩
  else fdapOf d

/-- `BQ.LOADGRAD` (R151). -/
def execBqLoadgrad (u v w : Nat) (start finish : CoefSet) (invN : Num) (s : State) :
    Host.Outcome State Fault Refusal :=
  .next (bqLoadgradWith (s.ctx Config.cfg (.bqLoadgrad u v w start finish invN)) s u v w start finish invN)

/-- `BQ.STEP` (R152). -/
def execBqStep (u v w : Nat) (x : Num) (s : State) : Host.Outcome State Fault Refusal :=
  .next (bqStepWith (s.ctx Config.cfg (.bqStep u v w x)) s u v w x)

/-- `COEF.LP1` (R156). -/
def execCoefLp1 (omega : Num) (s : State) : Host.Outcome State Fault Refusal :=
  .next (command s (.ok (answer s (coefAnswer (Config.cfg.lp1Of omega) 1))))

/-- `COEF.HP1` (R157). -/
def execCoefHp1 (omega : Num) (s : State) : Host.Outcome State Fault Refusal :=
  .next (command s (.ok (answer s (coefAnswer (Config.cfg.hp1Of omega) 1))))

/-- `COEF.LP2` (R158). -/
def execCoefLp2 (omega gain : Num) (s : State) : Host.Outcome State Fault Refusal :=
  .next (command s (.ok (answer s (coefAnswer (Config.cfg.lp2Of omega gain) 2))))

/-- `COEF.HP2` (R159). -/
def execCoefHp2 (omega gain : Num) (s : State) : Host.Outcome State Fault Refusal :=
  .next (command s (.ok (answer s (coefAnswer (Config.cfg.hp2Of omega gain) 2))))

/-- `COEF.PEAK` (R160). -/
def execCoefPeak (omega gain : Num) (s : State) : Host.Outcome State Fault Refusal :=
  .next (command s (.ok (answer s (coefAnswer (Config.cfg.peakOf omega gain) 2))))

/-- `COEF.HSHELF1` (R161). -/
def execCoefHshelf1 (omega shelfGain : Num) (s : State) : Host.Outcome State Fault Refusal :=
  .next (command s (.ok (answer s (coefAnswer (Config.cfg.hshelf1Of omega shelfGain) 1))))

/-- `COEF.AP1` (R162). -/
def execCoefAp1 (omega : Num) (s : State) : Host.Outcome State Fault Refusal :=
  .next (command s (.ok (answer s (coefAnswer (Config.cfg.ap1Of omega) 1))))

/-- `COEF.FDAP` (R163). -/
def execCoefFdap (d : Num) (s : State) : Host.Outcome State Fault Refusal :=
  .next (command s (.ok (answer s (coefAnswer (fdapAnswer (s.ctx Config.cfg (.coefFdap d)) d) 1))))

/-- `FPT.HZ` (R165). -/
def execFptHz (freq : Nat) (s : State) : Host.Outcome State Fault Refusal :=
  .next (fptHzWith (s.ctx Config.cfg (.fptHz freq)) s freq)

/-- `FPT.GAIN` (R166). -/
def execFptGain (gain : Nat) (s : State) : Host.Outcome State Fault Refusal :=
  .next (fptGainWith (s.ctx Config.cfg (.fptGain gain)) s gain)

/-- `VOLCOMP` (R167). -/
def execVolcomp (kind freq gain : Nat) (s : State) : Host.Outcome State Fault Refusal :=
  .next (volcompWith (s.ctx Config.cfg (.volcomp kind freq gain)) s kind freq gain)

end Sys2Proof.Machine
end

