-- ==== Sys2Proof/Machine/Envelope.lean ====
section
/-! DEFINITION. Envelope curves, the vibrato LFO and the scalar helpers (`42_envelope_lfo.md`), and the meanings of
`ENV.*`, `LFO`, `VIB.RAMP`, `EXPR`, `RELSCALE` and `PITCH.HZ`. `open` below stands for the free value of an operand
outside its domain (R192, R196, U16). -/

namespace Sys2Proof.Machine

/-- An operand outside the domain that the rules state: negative, or a NaN (U16). [DESIGN CHOICE, assumption 15] -/
def outOfDomain (x : Num) : Bool := x.isNaN || x.lt .zero

/-- `1 / (1 + t × s)` (R183). -/
def twangCurve (t s : Num) : Num := Num.one.div (Num.one.add (t.mul s))

/-- `1 − 1 / (1 + t × s)` (R184). -/
def swellCurve (t s : Num) : Num := Num.one.sub (twangCurve t s)

/-- `cos(((2 × π) × beats) × s)` (R185). -/
def tremoloCos (c : Cfg) (beats s : Num) : Num := c.cosOf ((twoPiTimes beats).mul s)

def threeQuarters : Num := ⟨0x3FE8000000000000#64⟩

/-- `max(1, 2 − 10 × t)` (R187). -/
def punchCurve (t : Num) : Num := Num.max .one (Num.two.sub ((Num.ofNat 10).mul t))

/-- `attack`, then the ramp and the fall of `flare` (R188); a speed of −0 follows the IEEE quotient.
[DESIGN CHOICE, assumption 85] -/
def flareCurve (t s : Num) : Num :=
  let attack := quarter.div s.sqrt
  if t.lt attack then t.div attack else Num.one.div (Num.one.add ((t.sub attack).mul s))

/-- `exp2(−(s × t))` (R189). -/
def decayCurve (c : Cfg) (t s : Num) : Num := c.exp2Of (s.mul t).neg

/-- The nine curves by their number (R180), none for another number. [DESIGN CHOICE, assumption 15] -/
def envelopeCurve (c : Cfg) (kind : Nat) (t beats s noteExpression openValue : Num) : Option Num :=
  match kind with
  | 0 => some .one
  | 1 => some noteExpression
  | 2 => some (if outOfDomain t || outOfDomain s then openValue else twangCurve t s)
  | 3 => some (if outOfDomain t || outOfDomain s then openValue else swellCurve t s)
  | 4 => some (if outOfDomain beats || outOfDomain s then openValue
      else Num.half.sub (Num.half.mul (tremoloCos c beats s)))
  | 5 => some (if outOfDomain beats || outOfDomain s then openValue
      else threeQuarters.sub (quarter.mul (tremoloCos c beats s)))
  | 6 => some (if outOfDomain t then openValue else punchCurve t)
  | 7 => some (if outOfDomain t || outOfDomain s then openValue else flareCurve t s)
  | 8 => some (if outOfDomain t || outOfDomain s then openValue else decayCurve c t s)
  | _ => none

/-- A vibrato's periods, "one or more positive `Num`" (R193). [DESIGN CHOICE, assumption 9] -/
def vibratoPeriods (v : Vibrato) : List Num :=
  (v.firstPeriod :: v.otherPeriods).map (fun p => if Num.zero.lt p then p else .one)

/-- The LFO: `Σ sin(2π × τ / period)` "summed in list order from 0.0" (R193). -/
def lfoSum (c : Cfg) (v : Vibrato) (tau : Num) : Num :=
  (vibratoPeriods v).foldl (fun a p => a.add (c.sinOf ((twoPiTimes tau).div p))) .zero

/-- `clamp(0, 1, (ticks − delayTicks) / vibratoRampTicks)` (R194). -/
def vibRampOf (ticks delayTicks : Num) : Num :=
  Num.clamp .zero .one ((ticks.sub delayTicks).div (Num.ofNat vibratoRampTicks))

/-- `pow(x / 3, 1.5)` for `0 ≤ x ≤ 3` (R196). [DESIGN CHOICE, assumption 15] -/
def exprOf (c : Cfg) (x openValue : Num) : Num :=
  if outOfDomain x || (Num.ofNat expressionMax).lt x then openValue
  else c.powOf (x.div (Num.ofNat expressionMax)) threeHalves

/-- The release scale (R197): 0 where `releaseTicks ≤ 0`. [DESIGN CHOICE, assumption 15] -/
def relscaleOf (c : Cfg) (ticksSinceReleased releaseTicks openValue : Num) : Num :=
  if releaseTicks.le .zero then .zero
  else if outOfDomain ticksSinceReleased || releaseTicks.isNaN then openValue
  else c.powOf (Num.max .zero (Num.one.sub (ticksSinceReleased.div releaseTicks))) threeHalves

/-! Meanings. -/

def envWith (x : Ctx) (s : State) (kind : Nat) (t beats speed noteExpression : Num) : State :=
  command s (.ok (answer s
    ((envelopeCurve x.cfg kind t beats speed noteExpression (x.free .result [0])).toList)))

def lfoWith (x : Ctx) (s : State) (u : Nat) (tau : Num) : State :=
  command s ((orRaise (x.cfg.vibratos.get? u) x.badIndex).map (fun v => answer s [lfoSum x.cfg v tau]))

/-- `ENV.STEADY` (R181). -/
def execEnvSteady (t beats speed noteExpression : Num) (s : State) : Host.Outcome State Fault Refusal :=
  .next (envWith (s.ctx Config.cfg (.envSteady t beats speed noteExpression)) s 0 t beats speed noteExpression)

/-- `ENV.CUSTOM` (R182). -/
def execEnvCustom (t beats speed noteExpression : Num) (s : State) : Host.Outcome State Fault Refusal :=
  .next (envWith (s.ctx Config.cfg (.envCustom t beats speed noteExpression)) s 1 t beats speed noteExpression)

/-- `ENV.TWANG` (R183). -/
def execEnvTwang (t beats speed noteExpression : Num) (s : State) : Host.Outcome State Fault Refusal :=
  .next (envWith (s.ctx Config.cfg (.envTwang t beats speed noteExpression)) s 2 t beats speed noteExpression)

/-- `ENV.SWELL` (R184). -/
def execEnvSwell (t beats speed noteExpression : Num) (s : State) : Host.Outcome State Fault Refusal :=
  .next (envWith (s.ctx Config.cfg (.envSwell t beats speed noteExpression)) s 3 t beats speed noteExpression)

/-- `ENV.TREMOLO` (R185). -/
def execEnvTremolo (t beats speed noteExpression : Num) (s : State) : Host.Outcome State Fault Refusal :=
  .next (envWith (s.ctx Config.cfg (.envTremolo t beats speed noteExpression)) s 4 t beats speed noteExpression)

/-- `ENV.TREMOLO2` (R186). -/
def execEnvTremolo2 (t beats speed noteExpression : Num) (s : State) : Host.Outcome State Fault Refusal :=
  .next (envWith (s.ctx Config.cfg (.envTremolo2 t beats speed noteExpression)) s 5 t beats speed noteExpression)

/-- `ENV.PUNCH` (R187). -/
def execEnvPunch (t beats speed noteExpression : Num) (s : State) : Host.Outcome State Fault Refusal :=
  .next (envWith (s.ctx Config.cfg (.envPunch t beats speed noteExpression)) s 6 t beats speed noteExpression)

/-- `ENV.FLARE` (R188). -/
def execEnvFlare (t beats speed noteExpression : Num) (s : State) : Host.Outcome State Fault Refusal :=
  .next (envWith (s.ctx Config.cfg (.envFlare t beats speed noteExpression)) s 7 t beats speed noteExpression)

/-- `ENV.DECAY` (R189). -/
def execEnvDecay (t beats speed noteExpression : Num) (s : State) : Host.Outcome State Fault Refusal :=
  .next (envWith (s.ctx Config.cfg (.envDecay t beats speed noteExpression)) s 8 t beats speed noteExpression)

/-- `LFO` (R193). -/
def execLfo (u : Nat) (tau : Num) (s : State) : Host.Outcome State Fault Refusal :=
  .next (lfoWith (s.ctx Config.cfg (.lfo u tau)) s u tau)

/-- `EXPR` (R196). -/
def execExpr (x : Num) (s : State) : Host.Outcome State Fault Refusal :=
  .next (command s (.ok (answer s [exprOf Config.cfg x ((s.ctx Config.cfg (.expr x)).free .result [0])])))

/-- `RELSCALE` (R197). -/
def execRelscale (ticksSinceReleased releaseTicks : Num) (s : State) : Host.Outcome State Fault Refusal :=
  .next (command s (.ok (answer s [relscaleOf Config.cfg ticksSinceReleased releaseTicks
    ((s.ctx Config.cfg (.relscale ticksSinceReleased releaseTicks)).free .result [0])])))

/-- `VIB.RAMP` (R194). -/
def execVibRamp (ticks delayTicks : Num) (s : State) : Host.Outcome State Fault Refusal :=
  .next (command s (.ok (answer s [vibRampOf ticks delayTicks])))

/-- `PITCH.HZ` (R198). -/
def execPitchHz (pitch : Num) (s : State) : Host.Outcome State Fault Refusal :=
  .next (command s (.ok (answer s [Config.cfg.pitchHz pitch])))

end Sys2Proof.Machine
end

