-- ==== Sys2Proof/Machine/Fft.lean ====
section
/-! DEFINITION. The inverse real transform (`40_fft_wave.md` R131 to R133) and the meaning of `IFFT`. The definition is
over the real numbers; what the hardware computes is the configuration's `ifft`, "within
`8 × log2(N) × 2^−53 × Σ|in|` of the exact sum" (R132). Here the exact sum is enclosed in integers (fixed-point sines
and cosines of 256 bits); a value of the configuration's transform inside the bound is taken as it is, another one is
replaced by the enclosed sum rounded once. -/

namespace Sys2Proof.Machine

/-- Fraction bits of the fixed-point sines and cosines. -/
def twiddleBits : Nat := 256

def twiddleOne : Int := 2 ^ 256

/-- `(cos, sin)` of `2π / 2^m` in fixed point, by halving the angle. -/
def unitAngle : Nat → Int × Int
  | 0 => (twiddleOne, 0)
  | 1 => (-twiddleOne, 0)
  | 2 => (0, twiddleOne)
  | m + 3 =>
    let p := unitAngle (m + 2)
    let c : Int := isqrt (((twiddleOne + p.1) * 2 ^ 255).toNat)
    (c, if c = 0 then 0 else p.2 * 2 ^ 255 / c)

/-- The next point of the circle. -/
def rotate (a b : Int × Int) : Int × Int :=
  ((a.1 * b.1 - a.2 * b.2) / twiddleOne, (a.1 * b.2 + a.2 * b.1) / twiddleOne)

/-- `n` points of the circle from `p` on. -/
def circleFrom (unit p : Int × Int) : Nat → List (Int × Int)
  | 0 => []
  | n + 1 => p :: circleFrom unit (rotate p unit) n

/-- `(cos(2π i / N), sin(2π i / N))` for `0 ≤ i < N`. [DESIGN CHOICE, assumption 14] -/
def circle (n : Nat) : List (Int × Int) := circleFrom (unitAngle (Nat.log2 n)) (twiddleOne, 0) n

/-- The sum of R131 for output `j`, in units of `2^−(1074 + 256)`; `vals` are the inputs in units of `2^−1074`.
[DESIGN CHOICE, assumption 14] -/
def exactSum (n : Nat) (points : List (Int × Int)) (vals : List Int) (j : Nat) : Int :=
  let c0 := vals.getD 0 0
  let cn := vals.getD (n / 2) 0
  let ends := (if j % 2 = 0 then c0 + cn else c0 - cn) * twiddleOne
  let terms := (List.range (n / 2 - 1)).map (fun i =>
    let k := i + 1
    let p := points.getD (k * j % n) (0, 0)
    vals.getD k 0 * p.1 + vals.getD (n - k) 0 * p.2)
  ends + 2 * terms.foldl (· + ·) 0

/-- `Σ_k |WORK_in[k]|` in units of `2^−1074`. -/
def magnitudeSum (vals : List Int) : Int := vals.foldl (fun a v => a + v.natAbs) 0

/-- Whether a computed value lies within the bound of R132 (a) of the exact sum (the enclosure's own error, far below
the bound, is allowed for, so that no value the rule admits is refused). [DESIGN CHOICE, assumption 14] -/
def withinBound (n : Nat) (exact total : Int) (y : Num) : Bool :=
  y.isFinite &&
    decide (((y.units * twiddleOne - exact).natAbs : Int) * 2 ^ 53
      ≤ 8 * (Nat.log2 n : Int) * total * twiddleOne + total * 2 ^ 110)

/-- The output of one element: the configuration's value where R132 (a) admits it, else the exact sum rounded; where
that is an infinity, the greatest finite value if R132 (a) admits it. An exact sum that no `Num` is near enough to
leaves the value open. [DESIGN CHOICE, assumption 14] -/
def admitted (n : Nat) (exact total : Int) (y : Num) : Num :=
  let negative := decide (exact < 0)
  let nearest := Num.round negative exact.natAbs (-(1074 + 256))
  if withinBound n exact total y then y
  else if nearest.isFinite then nearest
  else if withinBound n exact total (Num.largest negative) then Num.largest negative else y

/-- The inverse real transform of `n` values (R131 to R133). [DESIGN CHOICE, assumption 14] -/
def ifftOf (x : Ctx) (n : Nat) (input : List Num) : List Num :=
  if input.all Num.isFinite then
    let points := circle n
    let vals := input.map Num.units
    let total := magnitudeSum vals
    let computed := x.cfg.numerics.ifft n input
    (List.range n).map (fun j => admitted n (exactSum n points vals j) total (computed.getD j .zero))
  else (List.range n).map (fun j => x.free .transform [j])

/-- "a power of two with `2 ≤ N ≤ workSize`" (R131). -/
def transformSizeLegal (c : Cfg) (n : Nat) : Bool := isPowerOfTwo n && decide (2 ≤ n) && decide (n ≤ c.workSize)

/-- `IFFT` on `WORK[0 .. N−1]`. -/
def ifftWork (x : Ctx) (n : Nat) (e : Engine) : Engine := e.fillWork (ifftOf x n (e.workPrefix n))

def ifftWith (x : Ctx) (s : State) (n : Nat) : State :=
  onEngine s ((need (transformSizeLegal x.cfg n) x.badOperand).map (fun _ => ifftWork x n s.eng))

/-- `IFFT` (R131). -/
def execIfft (size : Nat) (s : State) : Host.Outcome State Fault Refusal :=
  .next (ifftWith (s.ctx Config.cfg (.ifft size)) s size)

end Sys2Proof.Machine
end

