-- ==== Sys2Proof/Machine/Waves.lean ====
section
/-! DEFINITION. The wave builders and the wave caches (`40_fft_wave.md` R134 to R141, `20_memory.md` R86), and the
meanings of `WAVE.*`. -/

namespace Sys2Proof.Machine

/-- A running sum that starts at 0: one element more than the list (R135). -/
def integrateFrom (acc : Num) (l : List Num) : List Num :=
  match l with
  | [] => [acc]
  | v :: t => acc :: integrateFrom (acc.add v) t

def integrate (l : List Num) : List Num := integrateFrom .zero l

/-- A wave with "a copy of element 0 as element" `L` (R77, R137). -/
def closeWave (l : List Num) : List Num := l ++ [l.headD .zero]

/-- The sine table (R134) with its extra element: R77 makes it "a copy of element 0", so that R134's formula gives the
elements below `L`. [DEDUCED, assumption 62] -/
def sineTable (c : Cfg) : List Num :=
  closeWave ((List.range c.sineWaveLength).map (fun i =>
    c.sinOf ((twoPiTimes (Num.ofNat i)).div (Num.ofNat c.sineWaveLength))))

/-- Steps 1 and 2 of R137 and R138: `WORK` filled with bins and transformed. -/
def transformBins (x : Ctx) (bins : List Num) (e : Engine) : Engine :=
  ifftWork x bins.length (e.fillWork bins)

/-- `WORK` unspecified (R13, R493, U2): every element a free value. -/
def forgetWork (x : Ctx) (e : Engine) : Engine := { e with work := [], workEpoch := x.epoch }

/-- The builder of a wave cache entry: its elements, and the engine after it. "every wave builder" uses `WORK` (R493,
the staging area of R13): the two builders that transform leave there what R137 and R138 say, and after the four that
do not, `WORK` is unspecified. The impulse entry is the samples of R139 alone, without the closing element of R77.
[DESIGN CHOICE, assumption 107; DESIGN CHOICE, assumption 109] -/
def buildWave (x : Ctx) (k : WaveKey) (e : Engine) : Engine :=
  let fill (e' : Engine) (d : List Num) : Engine := { e' with waves := setWave e'.waves k d }
  match k with
  | .sine => fill (forgetWork x e) (sineTable x.cfg)
  | .chip u => fill (forgetWork x e) (integrate (x.cfg.chipSamples u))
  | .noise u => fill (forgetWork x e) (closeWave (x.cfg.noiseSamples u))
  | .impulse => fill (forgetWork x e) x.cfg.impulseSamples
  | .spectrum islot =>
    match slotInstrument x.song islot with
    | some ins =>
      let e' := transformBins x (x.cfg.spectrumBins ins.spectrumWave) e
      fill e' (closeWave (e'.workPrefix x.cfg.spectrumWaveLength))
    | none => e
  | .drum islot d =>
    match slotInstrument x.song islot with
    | some ins =>
      let e' := transformBins x (x.cfg.spectrumBins (ins.drumSpectrumWaves.getD d [])) e
      fill e' (closeWave (e'.workPrefix x.cfg.spectrumWaveLength))
    | none => e
  | .harmonics islot =>
    match slotInstrument x.song islot with
    | some ins =>
      let e' := transformBins x (x.cfg.harmonicsBins ins.harmonicsWave) e
      fill e' (integrate (e'.workPrefix x.cfg.harmonicsWaveLength))
    | none => e

/-- Lazy build (R86, R141): the builder runs where the entry's flag is clear. -/
def ensureWave (x : Ctx) (k : WaveKey) (e : Engine) : Engine :=
  match findWave e.waves k with
  | some _ => e
  | none => buildWave x k e

/-- The elements of a valid entry. -/
def waveData (k : WaveKey) (e : Engine) : List Num := (findWave e.waves k).getD []

/-! Instrument kinds (R108). -/

def kindChip : Nat := 0
def kindFm : Nat := 1
def kindNoise : Nat := 2
def kindSpectrum : Nat := 3
def kindDrumset : Nat := 4
def kindHarmonics : Nat := 5
def kindPwm : Nat := 6
def kindGuitar : Nat := 7

/-- The entry that `WAVE.SPECTRUM u, v` builds (R137), none for operands that name none. -/
def spectrumKey (x : Ctx) (u v : Nat) : Option WaveKey :=
  match slotInstrument x.song u with
  | none => none
  | some ins =>
    if v = 0xFF then (if ins.kind = kindSpectrum then some (.spectrum u) else none)
    else if v < drumCount && ins.kind == kindDrumset then some (.drum u v) else none

/-- The entry that `WAVE.HARMONICS u` builds (R138). -/
def harmonicsKey (x : Ctx) (u : Nat) : Option WaveKey :=
  match slotInstrument x.song u with
  | none => none
  | some ins => if ins.kind = kindHarmonics then some (.harmonics u) else none

/-- A builder command: the entry named, or `BadIndex`. -/
def waveCommand (x : Ctx) (s : State) (k : Option WaveKey) : State :=
  onEngine s ((orRaise k x.badIndex).map (fun k => buildWave x k s.eng))

/-- `WAVE.SINE` (R134). -/
def execWaveSine (s : State) : Host.Outcome State Fault Refusal :=
  .next (waveCommand (s.ctx Config.cfg .waveSine) s (some .sine))

/-- `WAVE.CHIP` (R135). -/
def execWaveChip (u : Nat) (s : State) : Host.Outcome State Fault Refusal :=
  .next (waveCommand (s.ctx Config.cfg (.waveChip u)) s
    (if u < Config.cfg.chipWaves.length then some (.chip u) else none))

/-- `WAVE.NOISE` (R136). -/
def execWaveNoise (u : Nat) (s : State) : Host.Outcome State Fault Refusal :=
  .next (waveCommand (s.ctx Config.cfg (.waveNoise u)) s
    (if u < Config.cfg.noiseWaveCount then some (.noise u) else none))

/-- `WAVE.SPECTRUM` (R137). -/
def execWaveSpectrum (u v : Nat) (s : State) : Host.Outcome State Fault Refusal :=
  .next (waveCommand (s.ctx Config.cfg (.waveSpectrum u v)) s
    (spectrumKey (s.ctx Config.cfg (.waveSpectrum u v)) u v))

/-- `WAVE.HARMONICS` (R138). -/
def execWaveHarmonics (u : Nat) (s : State) : Host.Outcome State Fault Refusal :=
  .next (waveCommand (s.ctx Config.cfg (.waveHarmonics u)) s
    (harmonicsKey (s.ctx Config.cfg (.waveHarmonics u)) u))

/-- `WAVE.IMPULSE` (R139). -/
def execWaveImpulse (s : State) : Host.Outcome State Fault Refusal :=
  .next (waveCommand (s.ctx Config.cfg .waveImpulse) s (some .impulse))

/-- `WAVE.INVAL` (R140): "clears the `valid` flag of every wave cache entry". -/
def execWaveInval (s : State) : Host.Outcome State Fault Refusal :=
  .next (onEngine s (.ok { s.eng with waves := invalidateWaves s.eng.waves (fun _ => true) }))

end Sys2Proof.Machine
end

