-- ==== Sys2Proof/Machine/Voicing.lean ====
section
/-! DEFINITION. Tone voicing (`43_tone_voicing.md`): the parameter update `TONE.COMPUTE`, and the meanings of `TONE.*`
and `ARP.INDEX`. Where a tone has no note, or lies before its note's first pin, the interval and the pin expression
have no bracketing pins and are free values. -/

namespace Sys2Proof.Machine

/-! Time bases (R213). -/

/-- Whole parts since the bar began. -/
def partAbs (c : Cfg) (k : Clock) : Nat := k.beat * c.partsPerBeat + k.part

/-- Whole ticks into the note (R213); negative for a tone that was released in an earlier bar.
[DESIGN CHOICE, assumption 87] -/
def noteTick (c : Cfg) (k : Clock) (t : Tone) : Int :=
  ((partAbs c k : Int) - t.noteStartPart) * c.ticksPerPart + k.tick

/-- Whole ticks into the bar. -/
def barTick (c : Cfg) (k : Clock) : Nat := partAbs c k * c.ticksPerPart + k.tick

def startRatio (k : Clock) : Num := Num.one.sub (k.tickSampleCountdown.div k.samplesPerTick)

/-- "when `L > tickSampleCountdown`, `endRatio` is clamped to 1" (R213, R333). -/
def endRatio (k : Clock) (runLength : Nat) : Num :=
  if k.tickSampleCountdown.lt (Num.ofNat runLength) then .one
  else Num.one.sub ((k.tickSampleCountdown.sub (Num.ofNat runLength)).div k.samplesPerTick)

def secondsPerTick (x : Ctx) (k : Clock) : Num := k.samplesPerTick.div x.sampleRate

/-- Seconds into the note at a ratio of the tick. [DESIGN CHOICE, assumption 87] -/
def noteSeconds (x : Ctx) (k : Clock) (t : Tone) (ratio : Num) : Num :=
  ((Num.ofInt (noteTick x.cfg k t)).add ratio).mul (secondsPerTick x k)

/-- Beats into the note at a ratio of the tick. [DESIGN CHOICE, assumption 87] -/
def noteBeats (x : Ctx) (k : Clock) (t : Tone) (ratio : Num) : Num :=
  ((Num.ofInt (noteTick x.cfg k t)).add ratio).div (Num.ofNat (x.cfg.ticksPerPart * x.cfg.partsPerBeat))

/-- Seconds into the bar at a ratio of the tick, each tick as long as the present one (R195). [DEDUCED, assumption 86] -/
def barSeconds (x : Ctx) (k : Clock) (ratio : Num) : Num :=
  ((Num.ofNat (barTick x.cfg k)).add ratio).mul (secondsPerTick x k)

/-- The bar's duration at the present length of a tick (R195). [DEDUCED, assumption 86] -/
def barDuration (x : Ctx) (k : Clock) : Num :=
  (Num.ofNat (x.song.beatsPerBar * x.cfg.partsPerBeat * x.cfg.ticksPerPart)).mul (secondsPerTick x k)

/-- The end value's time base: "when that equals or exceeds the bar's duration it has the bar's duration subtracted"
(R195); `ratio` is the clamped `endRatio` of R213, so a run whose last sample crosses the bar's end ends at 0.
[DEDUCED, assumption 86; DESIGN CHOICE, assumption 98] -/
def wrappedBarSeconds (x : Ctx) (k : Clock) (ratio : Num) : Num :=
  let tau := barSeconds x k ratio
  if (barDuration x k).le tau then tau.sub (barDuration x k) else tau

/-! Notes. -/

/-- The note that a reference names, in the tone's channel. -/
def noteOf (song : Song) (channel : Nat) (n : Option NoteRef) : Option Note :=
  match n with
  | none => none
  | some ref =>
    match song.channels[channel]? with
    | none => none
    | some ch =>
      match ch.patterns[ref.pattern]? with
      | none => none
      | some p => p.notes[ref.note]?

/-- The consecutive pins with `p.time × ticksPerPart ≤ noteTick < q.time × ticksPerPart` (R216). -/
def bracket (ticksPerPart : Nat) (tick : Int) (pins : List Pin) : Option (Pin × Pin) :=
  match pins with
  | [] => none
  | [_] => none
  | p :: q :: t =>
    if ((p.time * ticksPerPart : Nat) : Int) ≤ tick ∧ tick < ((q.time * ticksPerPart : Nat) : Int) then some (p, q)
    else bracket ticksPerPart tick (q :: t)

/-- Linear interpolation between two pin values at a run's two ends, "by tick-time ratio and then again within the
current sub-run" (R216). -/
def interpolatePins (a b : Int) (ratioA ratioB start finish : Num) : Num × Num :=
  let va := (Num.ofInt a).add ((Num.ofInt (b - a)).mul ratioA)
  let vb := (Num.ofInt a).add ((Num.ofInt (b - a)).mul ratioB)
  (va.add ((vb.sub va).mul start), va.add ((vb.sub va).mul finish))

/-- A quantity at the start and at the end of a run. -/
structure Ends where
  start : Num
  finish : Num
deriving DecidableEq, Repr

def Ends.map2 (f : Num → Num → Num) (a b : Ends) : Ends := ⟨f a.start b.start, f a.finish b.finish⟩

def Ends.mul (a b : Ends) : Ends := Ends.map2 Num.mul a b

def Ends.both (v : Num) : Ends := ⟨v, v⟩

/-- The change per sample over a run of `n` samples. -/
def Ends.slope (a : Ends) (n : Nat) : Num := (a.finish.sub a.start).div (Num.ofNat n)

/-- The pin interval and the pin expression (R216): interpolated inside the note, the last pin's values after it and
for a released tone, free values where there is no bracket. [DESIGN CHOICE, assumption 21; DEDUCED, assumption 26] -/
def pinValues (x : Ctx) (k : Clock) (u : Nat) (t : Tone) (start finish : Num) : Ends × Ends :=
  let tick := noteTick x.cfg k t
  let openEnds : Ends × Ends :=
    (⟨x.free .voice [u, 0], x.free .voice [u, 1]⟩, ⟨x.free .voice [u, 2], x.free .voice [u, 3]⟩)
  match noteOf x.song t.channel t.note with
  | none => openEnds
  | some n =>
    match n.pins.getLast? with
    | none => openEnds
    | some last =>
      if t.state = .released ∨ ((last.time * x.cfg.ticksPerPart : Nat) : Int) ≤ tick then
        (Ends.both (Num.ofInt last.interval), Ends.both (Num.ofNat last.expression))
      else
        match bracket x.cfg.ticksPerPart tick n.pins with
        | none => openEnds
        | some (p, q) =>
          let span := Num.ofNat ((q.time - p.time) * x.cfg.ticksPerPart)
          let from0 : Int := tick - ((p.time * x.cfg.ticksPerPart : Nat) : Int)
          let ratioA := (Num.ofInt from0).div span
          let ratioB := (Num.ofInt (from0 + 1)).div span
          let i := interpolatePins p.interval q.interval ratioA ratioB start finish
          let v := interpolatePins p.expression q.expression ratioA ratioB start finish
          (⟨i.1, i.2⟩, ⟨v.1, v.2⟩)

/-- Vibrato added to the interval (R216, R193 to R195). -/
def vibratoAt (x : Ctx) (k : Clock) (t : Tone) (v : Vibrato) (ratio tau : Num) : Num :=
  (v.amplitude.mul (vibRampOf ((Num.ofInt (noteTick x.cfg k t)).add ratio) v.delayTicks)).mul (lfoSum x.cfg v tau)

/-! Slides (R223). -/

/-- What a slide blends: interval, envelope time, note expression and chord expression. -/
structure Blend where
  interval : Num
  seconds : Num
  expression : Num
  chord : Num
deriving DecidableEq, Repr

/-- `v + (n − v) × w`. -/
def mix (w v n : Num) : Num := v.add ((n.sub v).mul w)

def Blend.toward (b n : Blend) (w : Num) (blendChord : Bool) : Blend where
  interval := mix w b.interval n.interval
  seconds := mix w b.seconds n.seconds
  expression := mix w b.expression n.expression
  chord := if blendChord then mix w b.chord n.chord else b.chord

/-- The chord expression of a chord voice (R219); a single note has none. [DEDUCED, assumption 24] -/
def chordFactor (c : Cfg) (chord size : Nat) : Num := if size ≤ 1 then .one else c.chordExpressionOf chord size

/-- A neighbour's values at the boundary it shares: the previous note's last pin at its full length, the next note's
first pin at time 0. [DESIGN CHOICE, assumption 21; DEDUCED, assumption 22] -/
def neighbourBlend (x : Ctx) (u chord key : Nat) (n : Note) (pin : Option Pin) (seconds : Num) : Blend where
  interval := match pin with
    | some p => Num.ofInt p.interval
    | none => x.free .voice [u, key]
  seconds := seconds
  expression := match pin with
    | some p => exprOf x.cfg (Num.ofNat p.expression) (x.free .voice [u, key + 1])
    | none => x.free .voice [u, key + 1]
  chord := chordFactor x.cfg chord n.pitches.length

/-- The weight of the neighbour at `d` ticks from the boundary: "weight ½ at the boundary itself falling linearly to
0 at `W` ticks from it" (R223). [DEDUCED, assumption 22] -/
def slideWeight (d w : Num) : Num := Num.half.mul (Num.one.sub (d.div w))

/-- A value of the run blended with the neighbours (R223), at a ratio of the tick: towards the next note from `W` ticks
before this one's end up to the end itself. [DEDUCED, assumption 22; DEDUCED, assumption 88] -/
def slideBlend (x : Ctx) (k : Clock) (u : Nat) (t : Tone) (tr : Transition) (chord : Nat) (arpeggiates : Bool)
    (ratio : Num) (b : Blend) : Blend :=
  if tr.slides then
    let lengthTicks := (t.noteEndPart - t.noteStartPart) * x.cfg.ticksPerPart
    let w := Num.min (Num.ofNat tr.slideTicks) ((Num.ofNat lengthTicks).div .two)
    let into := (Num.ofInt (noteTick x.cfg k t)).add ratio
    let toEnd := (Num.ofNat lengthTicks).sub into
    let b1 :=
      match noteOf x.song t.channel t.prevNote with
      | some n =>
        if n.stop = t.noteStartPart && Num.zero.le into && into.lt w then
          b.toward (neighbourBlend x u chord 10 n n.pins.getLast?
            ((Num.ofNat ((n.stop - n.start) * x.cfg.ticksPerPart)).mul (secondsPerTick x k)))
            (slideWeight into w) (!arpeggiates)
        else b
      | none => b
    match noteOf x.song t.channel t.nextNote with
    | some n =>
      if n.start = t.noteEndPart && Num.zero.le toEnd && toEnd.lt w then
        b1.toward (neighbourBlend x u chord 20 n n.pins.head? .zero) (slideWeight toEnd w) (!arpeggiates)
      else b1
    | none => b1
  else b

/-! Release and attack (R221, R222, R226). -/

/-- The release factor of a tone at a ratio of the tick; `releaseTicks` is a natural number.
[DESIGN CHOICE, assumption 76] -/
def releaseFactor (x : Ctx) (u key : Nat) (t : Tone) (releaseTicks : Nat) (ratio : Num) : Num :=
  match t.state with
  | .released =>
    let f := relscaleOf x.cfg ((Num.ofNat t.ticksSinceReleased).add ratio) (Num.ofNat releaseTicks)
      (x.free .voice [u, key])
    if t.fadeOutFast then f.mul (Num.one.sub ratio) else f
  | _ => .one

/-- `min(1, t / attackSeconds)` (R226). [DESIGN CHOICE, assumption 30] -/
def attackFactor (t : Tone) (tr : Transition) (seconds : Num) : Num :=
  if Num.zero.lt tr.attackSeconds && !t.carried then Num.min .one (seconds.div tr.attackSeconds) else .one

/-! Pitches (R214, R215). -/

/-- The sounding pitch of a tone (R215): one pitch, outside the guitar, for a chord of several pitches on one tone too.
[DESIGN CHOICE, assumption 75] -/
def soundingPitch (c : Cfg) (song : Song) (k : Clock) (ch : Chord) (t : Tone) : Nat :=
  if ch.arpeggiates ∧ 1 < t.pitches.length then
    t.pitches.getD (c.arpeggioIndex t.pitches.length song.rhythm
      ((k.part * c.ticksPerPart + k.tick) / c.ticksPerArpeggio)) 0
  else t.pitches.getD 0 0

/-- `clamp(0, drumCount − 1, T.pitches[0])`. -/
def drumsetPitchOf (t : Tone) : Nat := min (drumCount - 1) (t.pitches.getD 0 0)

/-! Envelopes (R217). -/

/-- An envelope at the run's two ends; an entry of an unknown type raises `UnknownEnvelope` with the tone slot in bits
15:0 and the type in bits 23:16 (R453). -/
def envelopeEnds (x : Ctx) (u key entry : Nat) (seconds beats expression : Ends) : Except Raise Ends :=
  let env := x.cfg.envelopes.get entry
  match envelopeCurve x.cfg env.kind seconds.start beats.start env.speed expression.start (x.free .voice [u, key]),
      envelopeCurve x.cfg env.kind seconds.finish beats.finish env.speed expression.finish
        (x.free .voice [u, key + 1]) with
  | some a, some b => .ok ⟨a, b⟩
  | _, _ => .error ⟨.unknownEnvelope, BitVec.ofNat 32 (u % 2 ^ 16 + env.kind % 2 ^ 8 * 2 ^ 16)⟩

/-- What the steps of the update share. -/
structure Voice where
  u : Nat
  runLength : Nat
  ins : Instrument
  clock : Clock
  interval : Ends
  seconds : Ends
  beats : Ends
  noteExpression : Ends
  common : Ends
  pitchNumber : Num

/-- `1 / L`, "computed once per run" (R218). -/
def invLength (n : Nat) : Num := Num.one.div (Num.ofNat n)

/-- The gradient of a list of stages (R218): point `i` into stage `i`. -/
def loadStages (x : Ctx) (invN : Num) (e : Ends) (points : List FilterPoint) (stages : List Biquad) : List Biquad :=
  match points, stages with
  | p :: ps, f :: fs =>
    let top := Num.ofNat (x.cfg.filterFreqRange - 1)
    let freq (v : Num) := Num.clamp .zero top ((Num.ofNat p.freq).mul v)
    loadGradient f (pointCoefs x.cfg x.sampleRate p.kind (freq e.start) p.gain)
        (pointCoefs x.cfg x.sampleRate p.kind (freq e.finish) p.gain) invN
      :: loadStages x invN e ps fs
  | _, fs => fs

/-- Filter gradients (R218): the filter envelope is evaluated where the filter has a point.
[DEDUCED, assumption 25] -/
def updateFilters (x : Ctx) (v : Voice) (t : Tone) : Except Raise Tone :=
  if v.ins.filter.isEmpty then .ok { t with filterCount := 0 }
  else
    let entry := if v.ins.kind = kindDrumset then v.ins.drumEnvelopes.getD t.drumsetPitch 0 else v.ins.filterEnvelope
    (envelopeEnds x v.u 30 entry v.seconds v.beats v.noteExpression).map (fun e =>
      { t with
        filters := loadStages x (invLength v.runLength) e v.ins.filter t.filters
        filterCount := v.ins.filter.length })

/-- FM expressions of operators `k, k + 1, …` (R217, R257). The `pitch` of `fmCarrierExpression(pitch)` is read as the
pitch number of R215, without the run's interval and so the same at both ends (the spec does not say which pitch it is).
An operator that is a carrier takes the carrier's formula, be it a modulator of another or not.
[DEDUCED, assumption 24; DESIGN CHOICE, assumption 67; DESIGN CHOICE, assumption 100] -/
def updateOperators (x : Ctx) (v : Voice) (k : Nat) (ops : List Operator) (t : Tone) : Except Raise Tone :=
  match ops with
  | [] => .ok t
  | o :: rest =>
    match envelopeEnds x v.u (40 + 2 * k) o.envelope v.seconds v.beats v.noteExpression with
    | .error f => .error f
    | .ok env =>
      let alg := x.cfg.algorithms.get v.ins.algorithm
      let amp := Ends.mul (Ends.both (x.cfg.operatorAmplitude o.amplitude)) env
      let ends :=
        if alg.isCarrier.toList.getD k false then
          ((amp.mul (Ends.both (x.cfg.fmCarrierExpressionOf v.pitchNumber))).mul
            (Ends.both (x.cfg.sineExpressionBoostOf v.ins))).mul v.common
        else (amp.mul (Ends.both (Num.ofNat x.cfg.sineWaveLength))).mul (Ends.both x.cfg.fmModulatorScaleOf)
      updateOperators x v (k + 1) rest
        { t with
          expressionStarts := set4 t.expressionStarts k ends.start
          expressionDeltas := set4 t.expressionDeltas k (ends.slope v.runLength) }

/-- FM feedback (R217). -/
def updateFeedback (x : Ctx) (v : Voice) (t : Tone) : Except Raise Tone :=
  (envelopeEnds x v.u 60 v.ins.feedbackEnvelope v.seconds v.beats v.noteExpression).map (fun env =>
    let ends := Ends.mul (Ends.both (x.cfg.feedbackGain v.ins.feedbackAmplitude)) env
    { t with feedbackMult := ends.start, feedbackDelta := ends.slope v.runLength })

/-- The pulse width of a pwm tone, which an envelope scales, and of a guitar tone, which none does (R217, R22).
[DEDUCED, assumption 23] -/
def updatePulse (x : Ctx) (v : Voice) (t : Tone) : Except Raise Tone :=
  if v.ins.kind = kindPwm then
    (envelopeEnds x v.u 70 v.ins.pulseEnvelope v.seconds v.beats v.noteExpression).map (fun env =>
      let ends := Ends.mul (Ends.both (x.cfg.pulseWidthOf v.ins.pulseWidth)) env
      { t with pulseWidth := ends.start, pulseWidthDelta := ends.slope v.runLength })
  else if v.ins.kind = kindGuitar then .ok { t with pulseWidth := x.cfg.pulseWidthOf v.ins.pulseWidth }
  else .ok t

/-- The table length that turns a frequency into a phase increment (R220, R241). -/
def phaseUnit (c : Cfg) (ins : Instrument) : Num :=
  if ins.kind = kindChip then Num.ofNat (c.chipSamples ins.chipWave).length
  else if ins.kind = kindHarmonics then Num.ofNat c.harmonicsWaveLength
  else if ins.kind = kindNoise then Num.ofNat (c.noiseSamples ins.noiseWave).length
  else if ins.kind = kindSpectrum ∨ ins.kind = kindDrumset then Num.ofNat c.spectrumWaveLength
  else if ins.kind = kindFm then Num.ofNat c.sineWaveLength
  else .one

/-- `freqStart × freqMult / sampleRate × unit` (R220). -/
def phaseIncrement (x : Ctx) (freq freqMult : Num) (ins : Instrument) : Num :=
  ((freq.mul freqMult).div x.sampleRate).mul (phaseUnit x.cfg ins)

/-- `2^(semitones / 12)`. -/
def semitones (c : Cfg) (v : Num) : Num := c.exp2Of (v.div (Num.ofNat 12))

/-- Interval multipliers of chip and harmonics tones (R220, R242). [DEDUCED, assumption 23] -/
def updateInterval (x : Ctx) (v : Voice) (t : Tone) : Tone :=
  let iv := x.cfg.intervals.get v.ins.interval
  let ch := x.cfg.chords.get v.ins.chord
  match ch.customInterval, t.pitches with
  | true, p0 :: p1 :: _ =>
    { t with
      intervalMult := semitones x.cfg (Num.ofInt ((p1 : Int) - p0))
      intervalExpressionMult := x.cfg.customIntervalExpressionOf ((p1 : Int) - p0) }
  | _, _ =>
    { t with
      intervalMult := semitones x.cfg (Num.two.mul iv.spread)
      intervalExpressionMult := .one }

/-- FM phase increments of operators `k, k + 1, …` (R220, R257). -/
def operatorDeltas (x : Ctx) (freq : Num) (ins : Instrument) (k : Nat) (ops : List Operator) (d : Vector Num 4) :
    Vector Num 4 :=
  match ops with
  | [] => d
  | o :: rest =>
    operatorDeltas x freq ins (k + 1) rest
      (set4 d k (phaseIncrement x freq (x.cfg.fmFrequencyRatioOf o.frequency) ins))

/-- Phase increments (R220). [DEDUCED, assumption 23] -/
def updatePhases (x : Ctx) (v : Voice) (t : Tone) : Tone :=
  let freqStart := x.cfg.pitchHz (v.pitchNumber.add v.interval.start)
  let freqEnd := x.cfg.pitchHz (v.pitchNumber.add v.interval.finish)
  let scale :=
    if v.interval.finish.eq v.interval.start then .one
    else x.cfg.powOf (freqEnd.div freqStart) (invLength v.runLength)
  let t1 := { t with phaseDeltaScale := scale }
  if v.ins.kind = kindChip ∨ v.ins.kind = kindHarmonics then
    let iv := x.cfg.intervals.get v.ins.interval
    let t2 := updateInterval x v t1
    let d := phaseIncrement x freqStart (semitones x.cfg (iv.offset.sub iv.spread)) v.ins
    { t2 with phaseDeltas := set4 (set4 t2.phaseDeltas 0 d) 1 (d.mul t2.intervalMult) }
  else if v.ins.kind = kindFm then
    { t1 with phaseDeltas := operatorDeltas x freqStart v.ins 0 v.ins.operators t1.phaseDeltas }
  else if v.ins.kind = kindGuitar then t1
  else { t1 with phaseDeltas := set4 t1.phaseDeltas 0 (phaseIncrement x freqStart .one v.ins) }

/-! Guitar strings (R261). -/

/-- A loop delay inside `1 ≤ S.delayLength < Z` (R260): 1 where the configuration's functions break what R261 requires
of them. [DESIGN CHOICE, assumption 101] -/
def legalLength (size : Nat) (v : Num) : Num := if Num.one.le v && v.lt (Num.ofNat size) then v else .one

/-- The two filters' coefficient sets and the loop delay at one end of the run. -/
def stringDesign (x : Ctx) (ins : Instrument) (freq : Num) : CoefSet × CoefSet × Num :=
  let omega := (twoPiTimes freq).div x.sampleRate
  let disp := x.cfg.ap1Of (x.cfg.guitarDispersionOmega omega)
  let shelf := x.cfg.hshelf1Of (x.cfg.guitarShelfOmega omega) (x.cfg.guitarShelfGainOf ins.sustain omega)
  (disp, shelf, legalLength (x.cfg.stringRingSize x.sampleRate)
    (((x.sampleRate.div freq).sub (x.cfg.phaseDelayOf disp omega)).sub
      (x.cfg.phaseDelayOf shelf omega)))

/-- Whether string `v` is to be plucked (R263). -/
def plucks (t : Tone) (pitch : Nat) (s : StringState) : Bool := t.atNoteStart || s.pluckedPitch != some pitch

def updateString (x : Ctx) (v : Voice) (t : Tone) (pitch : Nat) (s : StringState) : StringState :=
  let base := x.cfg.basePitchOf x.song t.channel pitch
  let a := stringDesign x v.ins (x.cfg.pitchHz (base.add v.interval.start))
  let b := stringDesign x v.ins (x.cfg.pitchHz (base.add v.interval.finish))
  let invN := invLength v.runLength
  let length := if plucks t pitch s then a.2.2 else s.delayLength
  { s with
    dispersion := loadGradient s.dispersion a.1 b.1 invN
    shelf := loadGradient s.shelf a.2.1 b.2.1 invN
    delayLength := length
    delayLengthDelta := (b.2.2.sub length).div (Num.ofNat v.runLength) }

def updateStrings (x : Ctx) (v : Voice) (t : Tone) (pitches : List Nat) (strings : List StringState) :
    List StringState :=
  match pitches, strings with
  | p :: ps, s :: ss => updateString x v t p s :: updateStrings x v t ps ss
  | _, ss => ss

/-! The whole update. -/

/-- The values that the run's two ends share before the envelopes (R213, R215, R216, R219, R221, R223, R226).
[DEDUCED, assumption 24] -/
def voiceOf (x : Ctx) (k : Clock) (u runLength : Nat) (ins : Instrument) (t : Tone) : Voice :=
  let c := x.cfg
  let tr := c.transitions.get ins.transition
  let ch := c.chords.get ins.chord
  let vib := c.vibratos.get ins.vibrato
  let r0 := startRatio k
  let r1 := endRatio k runLength
  let pins := pinValues x k u t r0 r1
  let t0 := noteSeconds x k t r0
  let t1 := noteSeconds x k t r1
  let chordX := chordFactor c ins.chord t.chordSize
  let b0 : Blend :=
    { interval := pins.1.start.add (vibratoAt x k t vib r0 (barSeconds x k r0))
      seconds := t0
      expression := exprOf c pins.2.start (x.free .voice [u, 4])
      chord := chordX }
  let b1 : Blend :=
    { interval := pins.1.finish.add (vibratoAt x k t vib r1 (wrappedBarSeconds x k r1))
      seconds := t1
      expression := exprOf c pins.2.finish (x.free .voice [u, 5])
      chord := chordX }
  let s0 := slideBlend x k u t tr ins.chord ch.arpeggiates r0 b0
  let s1 := slideBlend x k u t tr ins.chord ch.arpeggiates r1 b1
  let noteExpression : Ends := ⟨s0.expression, s1.expression⟩
  let gain := (c.volumeGainOf ins.volume).mul (prefilterMult c ins.filter)
  let common :=
    (((((Ends.both gain).mul noteExpression).mul ⟨attackFactor t tr t0, attackFactor t tr t1⟩).mul
      ⟨releaseFactor x u 6 t tr.releaseTicks r0, releaseFactor x u 7 t tr.releaseTicks r1⟩).mul
      ⟨s0.chord, s1.chord⟩).mul (Ends.both (c.baseExpressionOf ins.kind))
  { u := u
    runLength := runLength
    ins := ins
    clock := k
    interval := ⟨s0.interval, s1.interval⟩
    seconds := ⟨s0.seconds, s1.seconds⟩
    beats := ⟨noteBeats x k t r0, noteBeats x k t r1⟩
    noteExpression := noteExpression
    common := common
    pitchNumber := c.basePitchOf x.song t.channel (soundingPitch c x.song k ch t) }

/-- Last tick (R222): a released tone at its last tick, and a fade-out-fast one. -/
def markLastTick (c : Cfg) (ins : Instrument) (t : Tone) : Tone :=
  match t.state with
  | .released =>
    if (c.transitions.get ins.transition).releaseTicks ≤ t.ticksSinceReleased + 1 ∨ t.fadeOutFast then
      { t with isLastTick := true }
    else t
  | _ => t

/-- The expression ramp of a kind other than fm (R219). -/
def updateExpression (v : Voice) (t : Tone) : Tone :=
  { t with
    expressionStarts := set4 t.expressionStarts 0 v.common.start
    expressionDeltas := set4 t.expressionDeltas 0 (v.common.slope v.runLength) }

/-- The expressions of a tone: per operator with the feedback for fm (R217), one ramp for the others (R219). -/
def updateLevels (x : Ctx) (v : Voice) (t : Tone) : Except Raise Tone :=
  if v.ins.kind = kindFm then
    (match updateOperators x v 0 v.ins.operators t with
    | .error f => .error f
    | .ok t' => updateFeedback x v t')
  else .ok (updateExpression v t)

/-- `computeTone` (R212): the tone after the parameter update. Of several unknown envelopes the one named by the fault is
the first in the order pulse width, operators 0 to 3, feedback, filter: R212 and R217 order the steps and not the
envelopes of one step. [DESIGN CHOICE, assumption 69] -/
def computeTone (x : Ctx) (k : Clock) (u runLength : Nat) (ins : Instrument) (t : Tone) : Except Raise Tone :=
  if 8 ≤ ins.kind then
    .error ⟨.unknownInstrument, BitVec.ofNat 32 (t.instrument % 2 ^ 16 + ins.kind % 2 ^ 8 * 2 ^ 16)⟩
  else
    let v := voiceOf x k u runLength ins t
    let t0 := markLastTick x.cfg ins t
    let t1 := if ins.kind = kindDrumset then { t0 with drumsetPitch := drumsetPitchOf t0 } else t0
    match updatePulse x v t1 with
    | .error f => .error f
    | .ok t2 =>
      match updateLevels x v t2 with
      | .error f => .error f
      | .ok t3 =>
        match updateFilters x v t3 with
        | .error f => .error f
        | .ok t4 =>
          let t5 := updatePhases x v t4
          .ok (if ins.kind = kindGuitar then { t5 with strings := updateStrings x v t5 t5.pitches t5.strings } else t5)

/-- `TONE.COMPUTE` on a slot in use. -/
def computeSlot (x : Ctx) (u runLength : Nat) (e : Engine) (t : Tone) : Except Raise Engine :=
  match slotInstrument x.song t.instrument with
  | none => .error x.badIndex
  | some ins => (computeTone x e.clock u runLength ins t).map (fun t' => e.setTone u t')

/-! A slot after a faulted update: "On a fault the slot's fields are unspecified" (R212, U7). -/

/-- Four free values. -/
def free4 (f : Nat → Num) : Vector Num 4 := #v[f 0, f 1, f 2, f 3]

/-- A biquad of free values. -/
def freeBiquad (f : Nat → Num) : Biquad :=
  ⟨f 0, f 1, f 2, f 3, f 4, f 5, f 6, f 7, f 8, f 9, f 10, f 11, f 12, f 13⟩

/-- A ring of free values. -/
def freeRing (size : Nat) (f : Nat → Num) : Memory Num :=
  Memory.ofListFrom (some Num.zero) 0 ((List.range size).map f)

/-- A free number below `n`. [DESIGN CHOICE, assumption 7] -/
def Ctx.pick (x : Ctx) (key : List Nat) (n : Nat) : Nat := (x.free .wreck key).bits.toNat % n

/-- A free truth value. [DESIGN CHOICE, assumption 7] -/
def Ctx.flip (x : Ctx) (key : List Nat) : Bool := x.pick key 2 == 1

/-- A string of free values. -/
def freeString (ringSize : Nat) (f : List Nat → Num) (s : StringState) : StringState :=
  { s with
    ring := freeRing ringSize (fun i => f [0, i])
    delayIndex := ringIndex ringSize (f [1]).floorInt
    delayLength := f [2]
    delayLengthDelta := f [3]
    fracG := f [4]
    fracIn1 := f [5]
    fracOut1 := f [6]
    dispersion := freeBiquad (fun i => f [7, i])
    shelf := freeBiquad (fun i => f [8, i])
    pluckedPitch := if (f [9]).bits.toNat % 2 = 1 then some (f [10]).bits.toNat else none }

/-- The fields that `TONE.COMPUTE` writes, each a free value: the voice, filter and string fields, the drumset pitch,
the filter count and the last-tick mark. The fields it never writes (the slot's state, its note and its pitches) keep
their values. [DESIGN CHOICE, assumption 37] -/
def wreckTone (x : Ctx) (u : Nat) (t : Tone) : Tone :=
  let f (key : List Nat) : Num := x.free .wreck (0 :: u :: key)
  { t with
    isLastTick := x.flip [0, u, 17]
    drumsetPitch := x.pick [0, u, 18] drumCount
    filterCount := x.pick [0, u, 19] (t.filters.length + 1)
    phases := free4 (fun i => f [0, i])
    phaseDeltas := free4 (fun i => f [1, i])
    phaseDeltaScale := f [2]
    expressionStarts := free4 (fun i => f [3, i])
    expressionDeltas := free4 (fun i => f [4, i])
    intervalMult := f [5]
    intervalExpressionMult := f [6]
    pulseWidth := f [7]
    pulseWidthDelta := f [8]
    feedbackMult := f [9]
    feedbackDelta := f [10]
    feedbackOutputs := free4 (fun i => f [11, i])
    noiseSample := f [12]
    prevIntegralA := f [13]
    prevIntegralB := f [14]
    filters := t.filters.mapIdx (fun i _ => freeBiquad (fun j => f [15, i, j]))
    strings := t.strings.mapIdx (fun i s =>
      freeString (x.cfg.stringRingSize x.sampleRate) (fun key => f (16 :: i :: key)) s) }

/-! Meanings. -/

def toneNewWith (x : Ctx) (s : State) (u : Nat) : State :=
  command s
    (match slotAt x s.eng u with
    | .error f => .error f
    | .ok _ =>
      match newTone x s.eng u (s.eng.activeTones.getD (slotChannel x.song u) []).length u with
      | .error f => .error f
      | .ok (v, e) => .ok { s with eng := e, responses := s.responses ++ [BitVec.ofNat 64 v] })

def toneComputeWith (x : Ctx) (s : State) (u runLength : Nat) : State :=
  if s.fault then s
  else
    match liveTone x s.eng u with
    | .error f => raise f s
    | .ok t =>
      if runLengthLegal x.cfg s.eng runLength then
        (match computeSlot x u runLength s.eng t with
        | .ok e => { s with eng := e }
        | .error f => raise f { s with eng := s.eng.setTone u (wreckTone x u t) })
      else raise x.badOperand s

def toneReleaseWith (x : Ctx) (s : State) (u : Nat) : State :=
  onEngine s
    (match s.eng.tones[u]? with
    | some t => if t.state = .active then .ok (releaseTone s.eng u t) else .error x.badIndex
    | none => .error x.badIndex)

def toneFreeWith (x : Ctx) (s : State) (u : Nat) : State :=
  onEngine s ((liveTone x s.eng u).map (fun _ => freeTone s.eng u))

/-- `r[0] <- arpeggioPattern(pitchCount, rhythm, step)` (R214). -/
def arpIndexWith (x : Ctx) (s : State) (pitchCount rhythm arpStep : Nat) : State :=
  command s ((need (decide (1 ≤ pitchCount) && decide (pitchCount ≤ x.cfg.maxChordSize)
      && decide (rhythm < x.cfg.rhythmCount)) x.badOperand).map
    (fun _ => answer s [Num.ofNat (x.cfg.arpeggioIndex pitchCount rhythm arpStep)]))

/-- `TONE.NEW` (R211). -/
def execToneNew (u : Nat) (s : State) : Host.Outcome State Fault Refusal :=
  .next (toneNewWith (s.ctx Config.cfg (.toneNew u)) s u)

/-- `TONE.COMPUTE` (R212). -/
def execToneCompute (u runLength : Nat) (s : State) : Host.Outcome State Fault Refusal :=
  .next (toneComputeWith (s.ctx Config.cfg (.toneCompute u runLength)) s u runLength)

/-- `TONE.RELEASE` (R224). -/
def execToneRelease (u : Nat) (s : State) : Host.Outcome State Fault Refusal :=
  .next (toneReleaseWith (s.ctx Config.cfg (.toneRelease u)) s u)

/-- `TONE.FREE` (R225). -/
def execToneFree (u : Nat) (s : State) : Host.Outcome State Fault Refusal :=
  .next (toneFreeWith (s.ctx Config.cfg (.toneFree u)) s u)

/-- `ARP.INDEX` (R214). -/
def execArpIndex (pitchCount rhythm arpStep : Nat) (s : State) : Host.Outcome State Fault Refusal :=
  .next (arpIndexWith (s.ctx Config.cfg (.arpIndex pitchCount rhythm arpStep)) s pitchCount rhythm arpStep)

end Sys2Proof.Machine
end

