-- ==== Sys2Proof/Machine/Synth.lean ====
section
/-! DEFINITION. The synth loops and the plucked string (`44_synth.md`), and the meanings of `SYN.*` and `GTR.PLUCK`. A
phase increment of exactly 0 leaves the sample open (R242, U18). -/

namespace Sys2Proof.Machine

/-! The common tail (R240). -/

/-- What the tail of a loop carries from sample to sample. -/
structure Tail where
  filters : List Biquad
  scratch : Memory Num
  expression : Num

/-- `SCRATCH[i] <- SCRATCH[i] + v`. -/
def addScratch (m : Memory Num) (i : Nat) (v : Num) : Memory Num := Memory.setNum m i ((Memory.getNum m i).add v)

/-- The common tail: cascade, `SCRATCH[i] += y × expression`, expression ramp. -/
def tailStep (count : Nat) (delta : Num) (i : Nat) (sample : Num) (a : Tail) : Tail :=
  let y := cascade count a.filters sample
  { filters := y.2
    scratch := addScratch a.scratch i (y.1.mul a.expression)
    expression := a.expression.add delta }

/-- "has `L` subtracted until it is back in range" (R241), at most `n` times. [DESIGN CHOICE, assumption 19] -/
def subtractWhile (length : Num) : Nat → Num → Option Num
  | 0, p => if length.le p then none else some p
  | n + 1, p => if length.le p then subtractWhile length n (p.sub length) else some p

/-- A phase brought back below `L`. "A non-finite phase stays until the tone is freed" (R266); where subtraction never
brings a finite phase back (one so large that the subtraction is absorbed) it is free. [DESIGN CHOICE, assumption 19] -/
def wrapPhase (p length : Num) : Num :=
  if p.isFinite && length.le p then
    (match subtractWhile length ((p.div length).floorInt.toNat + 2) p with
    | some q => q
    | none => ⟨Config.freeWrap p.bits length.bits⟩)
  else p

/-- The sample of a loop whose phase increment may be 0. [DESIGN CHOICE, assumption 18] -/
def openSample (x : Ctx) (u i : Nat) (zeroDelta : Bool) (v : Num) : Num :=
  if zeroDelta then x.free .sample [u, i] else v

/-! Chip and harmonics (R242, R243). -/

structure ChipState where
  a : Num
  b : Num
  da : Num
  db : Num
  pa : Num
  pb : Num

def chipLoop (x : Ctx) (u : Nat) (t : Tone) (wave : List Num) (length : Nat) (mixMult : Num) :
    Nat → Nat → ChipState → Tail → ChipState × Tail
  | 0, _, st, a => (st, a)
  | n + 1, i, st, a =>
    let l := Num.ofNat length
    let pa := wrapPhase (st.a.add st.da) l
    let pb := wrapPhase (st.b.add st.db) l
    let ia := interpolatedRead wave length pa
    let ib := interpolatedRead wave length pb
    let v := ((ia.sub st.pa).div st.da).add (((ib.sub st.pb).div st.db).mul mixMult)
    let sample := openSample x u i (st.da.eq .zero || st.db.eq .zero) v
    chipLoop x u t wave length mixMult n (i + 1)
      { a := pa, b := pb, da := st.da.mul t.phaseDeltaScale, db := st.db.mul t.phaseDeltaScale, pa := ia, pb := ib }
      (tailStep t.filterCount (get4 t.expressionDeltas 0) i sample a)

/-- The write-back that every loop shares (R240). -/
def Tone.afterLoop (t : Tone) (a : Tail) : Tone :=
  { t with
    filters := a.filters
    expressionStarts := set4 t.expressionStarts 0 a.expression
    atNoteStart := false }

/-- The tail at the start of a loop. -/
def Tone.tailOf (t : Tone) (scratch : Memory Num) : Tail := ⟨t.filters, scratch, get4 t.expressionStarts 0⟩

def synthIntegrated (x : Ctx) (u runLength : Nat) (ins : Instrument) (wave : List Num) (length : Nat) (t : Tone)
    (scratch : Memory Num) : Tone × Memory Num :=
  let iv := x.cfg.intervals.get ins.interval
  let r := chipLoop x u t wave length (iv.sign.mul t.intervalExpressionMult) runLength 0
    { a := get4 t.phases 0, b := get4 t.phases 1, da := get4 t.phaseDeltas 0, db := get4 t.phaseDeltas 1,
      pa := t.prevIntegralA, pb := t.prevIntegralB } (t.tailOf scratch)
  ({ t.afterLoop r.2 with
      phases := set4 (set4 t.phases 0 r.1.a) 1 r.1.b
      phaseDeltas := set4 (set4 t.phaseDeltas 0 r.1.da) 1 r.1.db
      prevIntegralA := r.1.pa
      prevIntegralB := r.1.pb }, r.2.scratch)

/-! Pulse width modulation (R246). -/

/-- The correction `(t + t − t×t − 1) × 0.5` just after a discontinuity. -/
def blepAfter (t : Num) : Num := (((t.add t).sub (t.mul t)).sub .one).mul .half

/-- The mirrored correction `(t + t + t×t + 1) × 0.5` just before one. -/
def blepBefore (t : Num) : Num := (((t.add t).add (t.mul t)).add .one).mul .half

/-- The correction of a saw at a phase, 0 away from the discontinuity; `none` where no window applies. -/
def blep (saw delta : Num) : Option Num :=
  if saw.lt delta then some (blepAfter (saw.div delta))
  else if (Num.one.sub delta).lt saw then some (blepBefore ((saw.sub .one).div delta))
  else none

/-- The pwm sample: `sawB − sawA` with saw A's correction added and saw B's subtracted. -/
def pwmSample (phase delta width : Num) : Num :=
  let sawA := phase.fract
  let sawB := (phase.add width).fract
  let v0 := sawB.sub sawA
  let v1 := match blep sawA delta with
    | some y => v0.add y
    | none => v0
  match blep sawB delta with
  | some y => v1.sub y
  | none => v1

structure PwmState where
  phase : Num
  delta : Num
  width : Num

def pwmLoop (x : Ctx) (u : Nat) (t : Tone) : Nat → Nat → PwmState → Tail → PwmState × Tail
  | 0, _, st, a => (st, a)
  | n + 1, i, st, a =>
    let sample := openSample x u i (st.delta.eq .zero) (pwmSample st.phase st.delta st.width)
    pwmLoop x u t n (i + 1)
      { phase := wrapPhase (st.phase.add st.delta) .one
        delta := st.delta.mul t.phaseDeltaScale
        width := st.width.add t.pulseWidthDelta }
      (tailStep t.filterCount (get4 t.expressionDeltas 0) i sample a)

def synthPwm (x : Ctx) (u runLength : Nat) (t : Tone) (scratch : Memory Num) : Tone × Memory Num :=
  let r := pwmLoop x u t runLength 0 ⟨get4 t.phases 0, get4 t.phaseDeltas 0, t.pulseWidth⟩ (t.tailOf scratch)
  ({ t.afterLoop r.2 with
      phases := set4 t.phases 0 r.1.phase
      phaseDeltas := set4 t.phaseDeltas 0 r.1.delta
      pulseWidth := r.1.width }, r.2.scratch)

/-! Noise, spectrum, drumset (R249 to R252). -/

structure NoiseState where
  phase : Num
  delta : Num
  sample : Num

/-- The loop of R249 and R250: `read` is the table read, `k` the smoothing constant. [DESIGN CHOICE, assumption 18] -/
def noiseLoop (x : Ctx) (u : Nat) (t : Tone) (read : Num → Num) (length : Nat) (k : Num) :
    Nat → Nat → NoiseState → Tail → NoiseState × Tail
  | 0, _, st, a => (st, a)
  | n + 1, i, st, a =>
    let s := st.sample.add (((read st.phase).sub st.sample).mul k)
    let sample := openSample x u i (st.delta.eq .zero) s
    noiseLoop x u t read length k n (i + 1)
      { phase := wrapPhase (st.phase.add st.delta) (Num.ofNat length)
        delta := st.delta.mul t.phaseDeltaScale
        sample := s }
      (tailStep t.filterCount (get4 t.expressionDeltas 0) i sample a)

def synthTable (x : Ctx) (u runLength : Nat) (read : Num → Num) (length : Nat) (k : Num) (t : Tone)
    (scratch : Memory Num) : Tone × Memory Num :=
  let r := noiseLoop x u t read length k runLength 0 ⟨get4 t.phases 0, get4 t.phaseDeltas 0, t.noiseSample⟩
    (t.tailOf scratch)
  ({ t.afterLoop r.2 with
      phases := set4 t.phases 0 r.1.phase
      phaseDeltas := set4 t.phaseDeltas 0 r.1.delta
      noiseSample := r.1.sample }, r.2.scratch)

/-- The crossing point of segment `i`, if there is one (R252); a crossing at `L` is wrapped to 0.
[DESIGN CHOICE, assumption 20] -/
def crossingAt (wave : List Num) (length i : Nat) : Option Num :=
  let a := wave.getD i .zero
  let b := wave.getD (i + 1) .zero
  if (a.mul b).le .zero then
    (let p := if a.eq b then Num.ofNat i else (Num.ofNat i).add (a.div (a.sub b))
     some (if p.eq (Num.ofNat length) then .zero else p))
  else none

/-- The search of R252, `n` segments from `i` on. [DESIGN CHOICE, assumption 20] -/
def findCrossing (wave : List Num) (length : Nat) : Nat → Nat → Option Num
  | 0, _ => none
  | n + 1, i =>
    match crossingAt wave length (i % length) with
    | some p => some p
    | none => findCrossing wave length n (i + 1)

/-- Start phase of spectrum and drumset waves: a random index, then the first zero crossing (R252).
[DESIGN CHOICE, assumption 20] -/
def startPhase (wave : List Num) (length : Nat) (draw : Num) : Num :=
  let p0 := (draw.mul (Num.ofNat length)).floorInt.toNat
  match findCrossing wave length length p0 with
  | some p => p
  | none => Num.ofNat p0

def synthSpectrum (x : Ctx) (u runLength : Nat) (wave : List Num) (length : Nat) (t : Tone) (rng : Rng)
    (scratch : Memory Num) : Tone × Memory Num × Rng :=
  let d := drawUnit rng
  let t1 := if t.atNoteStart then
      { t with phases := set4 t.phases 0 (startPhase wave length d.1), noiseSample := .zero }
    else t
  let rng1 := if t.atNoteStart then d.2 else rng
  let k := Num.min .one (get4 t1.phaseDeltas 0)
  let r := synthTable x u runLength (interpolatedRead wave length) length k t1 scratch
  (r.1, r.2, rng1)

/-! FM (R255). -/

/-- `Σ` over the operators of a list "in ascending `j` from 0.0" (R255): each of the four that the list names, once.
[DESIGN CHOICE, assumption 99] -/
def sumOperators (js : List Nat) (v : Vector Num 4) : Num :=
  ((List.range operatorCount).filter (fun j => js.contains j)).foldl (fun a j => a.add (get4 v j)) .zero

/-- `p − L × floor(p / L)`. -/
def reducePhase (p length : Num) : Num := p.sub (length.mul (p.div length).floor)

structure FmState where
  phase : Vector Num 4
  delta : Vector Num 4
  expr : Vector Num 4
  feedback : Vector Num 4
  fbMult : Num
  filters : List Biquad
  scratch : Memory Num

/-- The outputs of operators `k − 1` down to 0 (R255). -/
def fmOutputs (alg : Algorithm) (sources : List Nat) (wave : List Num) (length : Nat) (st : FmState) :
    Nat → Vector Num 4 → Vector Num 4
  | 0, out => out
  | k + 1, out =>
    let m0 := sumOperators (alg.modulators.toList.getD k []) out
    let m := if k = 0 then m0.add (st.fbMult.mul (sumOperators sources st.feedback)) else m0
    let y := (interpolatedRead wave length (reducePhase ((get4 st.phase k).add m) (Num.ofNat length))).mul
      (get4 st.expr k)
    fmOutputs alg sources wave length st k (set4 out k y)

/-- The carriers. -/
def carriers (alg : Algorithm) : List Nat := (List.range operatorCount).filter (fun k => alg.isCarrier.toList.getD k false)

/-- The operators whose output reaches the sample, `n` steps of modulation or feedback away from a list.
[DESIGN CHOICE, assumption 18] -/
def heardOperators (alg : Algorithm) (sources : List Nat) : Nat → List Nat → List Nat
  | 0, l => l
  | n + 1, l =>
    heardOperators alg sources n ((List.range operatorCount).filter (fun j =>
      l.contains j || l.any (fun k => (alg.modulators.toList.getD k []).contains j || (k == 0 && sources.contains j))))

def fmLoop (x : Ctx) (u : Nat) (t : Tone) (alg : Algorithm) (sources : List Nat) (wave : List Num) (length : Nat) :
    Nat → Nat → FmState → FmState
  | 0, _, st => st
  | n + 1, i, st =>
    let out := fmOutputs alg sources wave length st operatorCount zeros4
    let zeroDelta := (heardOperators alg sources operatorCount (carriers alg)).any (fun k => (get4 st.delta k).eq .zero)
    let sample := openSample x u i zeroDelta (sumOperators (carriers alg) out)
    let y := cascade t.filterCount st.filters sample
    fmLoop x u t alg sources wave length n (i + 1)
      { phase := Vector.ofFn (fun k => wrapPhase (st.phase[k].add st.delta[k]) (Num.ofNat length))
        delta := st.delta.map (fun d => d.mul t.phaseDeltaScale)
        expr := Vector.ofFn (fun k => st.expr[k].add t.expressionDeltas[k])
        feedback := out
        fbMult := st.fbMult.add t.feedbackDelta
        filters := y.2
        scratch := addScratch st.scratch i y.1 }

def synthFm (x : Ctx) (u runLength : Nat) (ins : Instrument) (wave : List Num) (t : Tone) (scratch : Memory Num) :
    Tone × Memory Num :=
  let r := fmLoop x u t (x.cfg.algorithms.get ins.algorithm) (x.cfg.feedbacks.get ins.feedbackType) wave
    x.cfg.sineWaveLength runLength 0
    ⟨t.phases, t.phaseDeltas, t.expressionStarts, t.feedbackOutputs, t.feedbackMult, t.filters, scratch⟩
  ({ t with
      phases := r.phase
      phaseDeltas := r.delta
      expressionStarts := r.expr
      feedbackOutputs := r.feedback
      feedbackMult := r.fbMult
      filters := r.filters
      atNoteStart := false }, r.scratch)

/-! Guitar (R260, R262, R263). -/

/-- Zeroes elements `pos − n` to `pos − 1` of a ring. -/
def zeroBehind (size : Nat) (pos : Int) : Nat → Memory Num → Memory Num
  | 0, m => m
  | n + 1, m => zeroBehind size pos n (ringSet m size (pos - ((n + 1 : Nat) : Int)) .zero)

/-- Adds the impulse at positions `0 .. n − 1` of a period that starts at `base`. -/
def addImpulse (size : Nat) (base : Int) (shape : Nat → Num) : Nat → Memory Num → Memory Num
  | 0, m => m
  | n + 1, m =>
    let m' := addImpulse size base shape n m
    ringSet m' size (base + (n : Int)) ((ringGet m' size (base + (n : Int))).add (shape n))

/-- A pluck of one string (R262): the two periods behind the write position are zeroed, the impulse is added in the
last one, jittered by one draw. "Pitch of string `v`" is read as `T.pitches[v]`: `pluckedPitch` is that number, and the
period that of its `basePitch`, without the run's interval (the spec does not say whether the interval enters).
[DESIGN CHOICE, assumption 68] -/
def pluckString (x : Ctx) (t : Tone) (pitch : Nat) (impulse : List Num) (s : StringState) (rng : Rng) :
    StringState × Rng :=
  let size := x.cfg.stringRingSize x.sampleRate
  let period := x.sampleRate.div (x.cfg.pitchHz (x.cfg.basePitchOf x.song t.channel pitch))
  let d := drawUnit rng
  let off := (t.pulseWidth.mul period).mul
    (Num.one.add (x.cfg.guitarPulseWidthRandomness.mul (d.1.sub .half)))
  let p1 := ceilCount period
  let cleared := zeroBehind size s.delayIndex (ceilCount (Num.two.mul period)) s.ring
  ({ s with
      ring := addImpulse size ((s.delayIndex : Int) - p1) (x.cfg.pluckShapeOf impulse period off) p1 cleared
      pluckedPitch := some pitch }, d.2)

/-- One sample of one string (R260): its output and the string after it. -/
def stringStep (size : Nat) (s : StringState) : Num × StringState :=
  let n := s.delayLength.floorInt
  let d := s.delayLength.sub s.delayLength.floor
  let g := (Num.one.sub d).div (Num.one.add d)
  let tap := ringGet s.ring size ((s.delayIndex : Int) - n)
  let y0 := ((g.mul tap).add s.fracIn1).sub (g.mul s.fracOut1)
  let y1 := biquadStep s.dispersion y0
  let y2 := biquadStep s.shelf y1.1
  (y2.1, { s with
    fracIn1 := tap
    fracOut1 := y0
    fracG := g
    dispersion := y1.2
    shelf := y2.2
    ring := ringSet s.ring size s.delayIndex y2.1
    delayIndex := ringIndex size ((s.delayIndex : Int) + 1)
    delayLength := s.delayLength.add s.delayLengthDelta })

/-- One sample of the first `n` strings, summed from 0. -/
def stringsStep (size : Nat) : Nat → Num → List StringState → Num × List StringState
  | 0, acc, ss => (acc, ss)
  | _ + 1, acc, [] => (acc, [])
  | n + 1, acc, s :: ss =>
    let a := stringStep size s
    let b := stringsStep size n (acc.add a.1) ss
    (b.1, a.2 :: b.2)

def guitarLoop (t : Tone) (size : Nat) : Nat → Nat → List StringState → Tail → List StringState × Tail
  | 0, _, ss, a => (ss, a)
  | n + 1, i, ss, a =>
    let y := stringsStep size t.pitches.length .zero ss
    guitarLoop t size n (i + 1) y.2 (tailStep t.filterCount (get4 t.expressionDeltas 0) i y.1 a)

/-- The plucks at the start of a run (R263). -/
def pluckAll (x : Ctx) (t : Tone) (impulse : List Num) (pitches : List Nat) (strings : List StringState) (rng : Rng) :
    List StringState × Rng :=
  match pitches, strings with
  | p :: ps, s :: ss =>
    let a := if plucks t p s then pluckString x t p impulse s rng else (s, rng)
    let b := pluckAll x t impulse ps ss a.2
    (a.1 :: b.1, b.2)
  | _, ss => (ss, rng)

def synthGuitar (x : Ctx) (runLength : Nat) (impulse : List Num) (t : Tone) (rng : Rng) (scratch : Memory Num) :
    Tone × Memory Num × Rng :=
  let p := pluckAll x t impulse t.pitches t.strings rng
  let r := guitarLoop t (x.cfg.stringRingSize x.sampleRate) runLength 0 p.1 (t.tailOf scratch)
  ({ t.afterLoop r.2 with strings := r.1 }, r.2.scratch, p.2)

/-! The dispatch (R265). -/

/-- The wave cache entry that a tone's loop reads (R86), none for pwm. A guitar run is given the impulse entry even if
R263 plucks no string in it: R86 and R141 say "a synth loop that needs an entry" and not whether the guitar's loop needs
it then. [DESIGN CHOICE, assumption 65] -/
def waveOf (ins : Instrument) (t : Tone) : Option WaveKey :=
  if ins.kind = kindChip then some (.chip ins.chipWave)
  else if ins.kind = kindFm then some .sine
  else if ins.kind = kindNoise then some (.noise ins.noiseWave)
  else if ins.kind = kindSpectrum then some (.spectrum t.instrument)
  else if ins.kind = kindDrumset then some (.drum t.instrument t.drumsetPitch)
  else if ins.kind = kindHarmonics then some (.harmonics t.instrument)
  else if ins.kind = kindGuitar then some .impulse
  else none

/-- The engine with the entry of a key valid, if there is a key. -/
def ensureOptional (x : Ctx) (k : Option WaveKey) (e : Engine) : Engine :=
  match k with
  | some k => ensureWave x k e
  | none => e

/-- What a loop leaves: the tone, the scratch buffer and the random source. -/
def synthTone (x : Ctx) (u runLength : Nat) (ins : Instrument) (wave : List Num) (t : Tone) (rng : Rng)
    (scratch : Memory Num) : Tone × Memory Num × Rng :=
  let c := x.cfg
  let pure2 (r : Tone × Memory Num) : Tone × Memory Num × Rng := (r.1, r.2, rng)
  if ins.kind = kindChip then
    pure2 (synthIntegrated x u runLength ins wave (c.chipSamples ins.chipWave).length t scratch)
  else if ins.kind = kindFm then pure2 (synthFm x u runLength ins wave t scratch)
  else if ins.kind = kindNoise then
    pure2 (synthTable x u runLength (nearestRead wave (c.noiseSamples ins.noiseWave).length)
      (c.noiseSamples ins.noiseWave).length
      (Num.min .one ((get4 t.phaseDeltas 0).mul (c.pitchFilterMultOf ins.noiseWave))) t scratch)
  else if ins.kind = kindSpectrum ∨ ins.kind = kindDrumset then
    synthSpectrum x u runLength wave c.spectrumWaveLength t rng scratch
  else if ins.kind = kindHarmonics then
    pure2 (synthIntegrated x u runLength ins wave c.harmonicsWaveLength t scratch)
  else if ins.kind = kindPwm then pure2 (synthPwm x u runLength t scratch)
  else synthGuitar x runLength wave t rng scratch

/-- `instrumentSynth` on a tone slot (R265): lazy build, loop, write-back; "each time a tone of the slot is run through
its synth loop, `I.tonesThisTick` is incremented" (R310). -/
def synthSlot (x : Ctx) (u runLength : Nat) (ins : Instrument) (t : Tone) (e : Engine) : Engine :=
  let e1 := ensureOptional x (waveOf ins t) e
  let wave := match waveOf ins t with
    | some k => waveData k e1
    | none => []
  let r := synthTone x u runLength ins wave t e1.rng e1.scratch
  { e1 with
    tones := e1.tones.set u r.1
    scratch := r.2.1
    rng := r.2.2
    slots := e1.slots.modify t.instrument (fun i => { i with tonesThisTick := i.tonesThisTick + 1 }) }

/-- `SYN.<kind>` in direct mode (R240): the slot in use and of the opcode's kind, then a legal run length. -/
def synthDirect (x : Ctx) (kind u runLength : Nat) (e : Engine) : Except Raise Engine :=
  match liveTone x e u with
  | .error f => .error f
  | .ok t =>
    match slotInstrument x.song t.instrument with
    | none => .error x.badIndex
    | some ins =>
      if ins.kind ≠ kind then .error x.badIndex
      else if runLengthLegal x.cfg e runLength then .ok (synthSlot x u runLength ins t e)
      else .error x.badOperand

/-- `GTR.PLUCK` in direct mode (R262). Where the impulse entry's flag is clear, the entry is built first, as a synth loop
would (R86 and R141 speak of synth loops only). [DESIGN CHOICE, assumption 66] -/
def pluckDirect (x : Ctx) (u v : Nat) (e : Engine) : Except Raise Engine :=
  match liveTone x e u with
  | .error f => .error f
  | .ok t =>
    match slotInstrument x.song t.instrument, t.pitches[v]?, t.strings[v]? with
    | some ins, some pitch, some s =>
      if ins.kind ≠ kindGuitar then .error x.badIndex
      else
        let e1 := ensureWave x .impulse e
        let p := pluckString x t pitch (waveData .impulse e1) s e1.rng
        .ok { e1 with tones := e1.tones.set u { t with strings := t.strings.set v p.1 }, rng := p.2 }
    | _, _, _ => .error x.badIndex

/-- `SYN.CHIP` (R242). -/
def execSynChip (u runLength : Nat) (s : State) : Host.Outcome State Fault Refusal :=
  .next (onEngine s (synthDirect (s.ctx Config.cfg (.synChip u runLength)) kindChip u runLength s.eng))

/-- `SYN.FM` (R255). -/
def execSynFm (u runLength : Nat) (s : State) : Host.Outcome State Fault Refusal :=
  .next (onEngine s (synthDirect (s.ctx Config.cfg (.synFm u runLength)) kindFm u runLength s.eng))

/-- `SYN.NOISE` (R249). -/
def execSynNoise (u runLength : Nat) (s : State) : Host.Outcome State Fault Refusal :=
  .next (onEngine s (synthDirect (s.ctx Config.cfg (.synNoise u runLength)) kindNoise u runLength s.eng))

/-- `SYN.SPECTRUM` (R250). -/
def execSynSpectrum (u runLength : Nat) (s : State) : Host.Outcome State Fault Refusal :=
  .next (onEngine s (synthDirect (s.ctx Config.cfg (.synSpectrum u runLength)) kindSpectrum u runLength s.eng))

/-- `SYN.DRUMSET` (R251). -/
def execSynDrumset (u runLength : Nat) (s : State) : Host.Outcome State Fault Refusal :=
  .next (onEngine s (synthDirect (s.ctx Config.cfg (.synDrumset u runLength)) kindDrumset u runLength s.eng))

/-- `SYN.HARMONICS` (R243). -/
def execSynHarmonics (u runLength : Nat) (s : State) : Host.Outcome State Fault Refusal :=
  .next (onEngine s (synthDirect (s.ctx Config.cfg (.synHarmonics u runLength)) kindHarmonics u runLength s.eng))

/-- `SYN.PWM` (R246). -/
def execSynPwm (u runLength : Nat) (s : State) : Host.Outcome State Fault Refusal :=
  .next (onEngine s (synthDirect (s.ctx Config.cfg (.synPwm u runLength)) kindPwm u runLength s.eng))

/-- `SYN.GUITAR` (R260). -/
def execSynGuitar (u runLength : Nat) (s : State) : Host.Outcome State Fault Refusal :=
  .next (onEngine s (synthDirect (s.ctx Config.cfg (.synGuitar u runLength)) kindGuitar u runLength s.eng))

/-- `GTR.PLUCK` (R262). -/
def execGtrPluck (u v : Nat) (s : State) : Host.Outcome State Fault Refusal :=
  .next (onEngine s (pluckDirect (s.ctx Config.cfg (.gtrPluck u v)) u v s.eng))

end Sys2Proof.Machine
end

