-- ==== Sys2Proof/Machine/Effects.lean ====
section
/-! DEFINITION. The shared effects chain and tail flushing (`45_effects.md`), and the meanings of `FX.*`. -/

namespace Sys2Proof.Machine

/-- A stage is enabled by its bit of `ins.effects` (R52, R280). -/
def effectOn (ins : Instrument) (bit : Nat) : Bool := ins.effects.testBit bit

/-! Mono stages. -/

/-- `slider <- ins.distortion / (distortionRange − 1)` (R282). -/
def distortionSlider (c : Cfg) (ins : Instrument) : Num :=
  (Num.ofNat ins.distortion).div (Num.ofNat (c.distortionRange - 1))

/-- The soft clip (R282). -/
def distort (c : Cfg) (ins : Instrument) (s : Num) : Num :=
  let slider := distortionSlider c ins
  let d := c.powOf (Num.one.sub ((Num.ofRat 95 100).mul slider)) threeHalves
  let v := s.mul (Num.one.add (Num.two.mul slider))
  (c.distortionBaseVolume.mul v).div (((Num.one.sub d).mul v.abs).add d)

/-- Sample and hold with mid-point quantization (R284). -/
def bitcrush (x : Ctx) (ins : Instrument) (i : Slot) (s : Num) : Num × Slot :=
  let q := x.cfg.crushQuantum ins.bitcrusherQuantization
  let phase := i.crushPhase.add (x.cfg.crushStep ins.bitcrusherFreq x.sampleRate)
  let i' :=
    if Num.one.le phase then
      { i with crushPhase := phase.sub .one, crushHold := ((s.div q).floor.add .half).mul q }
    else { i with crushPhase := phase }
  (i'.crushHold, i')

/-- The effect filter (R286). -/
def effectFilter (i : Slot) (s : Num) : Num × Slot :=
  let y := cascade i.fxFilterCount i.fxFilters s
  (y.1, { i with fxFilters := y.2 })

/-- "both the start set and the end set are the coefficients of" the point (R286). -/
def loadEffectStages (x : Ctx) (invN : Num) (points : List FilterPoint) (stages : List Biquad) : List Biquad :=
  match points, stages with
  | p :: ps, f :: fs =>
    let k := pointCoefs x.cfg x.sampleRate p.kind (Num.ofNat p.freq) p.gain
    loadGradient f k k invN :: loadEffectStages x invN ps fs
  | _, fs => fs

def loadEffectFilter (x : Ctx) (ins : Instrument) (runLength : Nat) (i : Slot) : Slot :=
  { i with
    fxFilters := loadEffectStages x (invLength runLength) ins.distortionFilter i.fxFilters
    fxFilterCount := ins.distortionFilter.length }

/-! Stereo stages. -/

/-- Panning (R288): gains by the cosine law, the far side delayed, write before read. -/
def pan (x : Ctx) (ins : Instrument) (i : Slot) (s : Num) : Num × Num × Slot :=
  let size := x.cfg.panRingSize x.sampleRate
  let p := (Num.ofNat ins.pan).div (Num.ofNat x.cfg.panMax)
  let angle := (p.mul .pi).div .two
  let gL := (x.cfg.cosOf angle).mul x.cfg.panGainNorm
  let gR := (x.cfg.sinOf angle).mul x.cfg.panGainNorm
  let side := (Num.two.mul p).sub .one
  let offL := ((Num.max .zero side).mul x.cfg.panDelayMax).mul x.sampleRate
  let offR := ((Num.max .zero side.neg).mul x.cfg.panDelayMax).mul x.sampleRate
  let ring := ringSet i.panRing size i.panPos (s.mul i.delayInputMult)
  let pos := Num.ofNat i.panPos
  ((fractionalTap ring size (pos.sub offL)).mul gL, (fractionalTap ring size (pos.sub offR)).mul gR,
    { i with panRing := ring, panPos := ringIndex size ((i.panPos : Int) + 1) })

/-- "subtract 2π while ≥ 2π" (R292). -/
def wrapRadians (p : Num) : Num := wrapPhase p .twoPi

/-- One chorus tap (R292). -/
def chorusTap (x : Ctx) (i : Slot) (ring : Memory Num) (side : Fin 2) (k : Fin 3) : Num :=
  let swing := x.cfg.sinOf (i.chorusPhase.add x.cfg.chorusPhaseOffsets[side][k])
  let off := ((x.cfg.chorusOffset side k).add (x.cfg.chorusRange.mul swing)).mul x.sampleRate
  fractionalTap ring (x.cfg.chorusRingSize x.sampleRate) ((Num.ofNat i.chorusPos).sub off)

/-- `0.5 × (s − t₀ + t₁ − t₂)`. -/
def chorusMix (s t0 t1 t2 : Num) : Num := Num.half.mul (((s.sub t0).add t1).sub t2)

/-- Chorus (R292): write both rings, then read the taps. -/
def chorus (x : Ctx) (i : Slot) (l r : Num) : Num × Num × Slot :=
  let size := x.cfg.chorusRingSize x.sampleRate
  let ringL := ringSet i.chorusRingL size i.chorusPos (l.mul i.delayInputMult)
  let ringR := ringSet i.chorusRingR size i.chorusPos (r.mul i.delayInputMult)
  let tap (ring : Memory Num) (side : Fin 2) (k : Fin 3) : Num := chorusTap x i ring side k
  (chorusMix l (tap ringL 0 0) (tap ringL 0 1) (tap ringL 0 2),
    chorusMix r (tap ringR 1 0) (tap ringR 1 1) (tap ringR 1 2),
    { i with
      chorusRingL := ringL
      chorusRingR := ringR
      chorusPos := ringIndex size ((i.chorusPos : Int) + 1)
      chorusPhase := wrapRadians (i.chorusPhase.add (Num.twoPi.div (x.cfg.chorusPeriod.mul x.sampleRate))) })

/-- Reverb (R296): four taps, the Hadamard mix, one lowpass per tap, four writes. -/
def reverb (x : Ctx) (ins : Instrument) (i : Slot) (l r : Num) : Num × Num × Slot :=
  let size := reverbRingSize
  let o := x.cfg.reverbTaps
  let at' (d : Nat) : Int := ((i.reverbPos + d : Nat) : Int)
  let ring := i.reverbRing
  let s0 := ringGet ring size (at' 0)
  let s1 := ringGet ring size (at' o.1)
  let s2 := ringGet ring size (at' o.2.1)
  let s3 := ringGet ring size (at' o.2.2)
  let a0 := (s0.add l).neg.add s1
  let a1 := (s0.add r).neg.sub s1
  let a2 := s2.neg.add s3
  let a3 := s2.neg.sub s3
  let m := x.cfg.reverbFeedback ins.reverb
  let c := x.cfg.reverbSmoothing
  let smooth (k : Nat) (f : Num) : Num := (get4 i.reverbLP k).add ((f.sub (get4 i.reverbLP k)).mul c)
  let l0 := smooth 0 ((a0.add a2).mul m)
  let l1 := smooth 1 ((a1.add a3).mul m)
  let l2 := smooth 2 ((a0.sub a2).mul m)
  let l3 := smooth 3 ((a1.sub a3).mul m)
  let r1 := ringSet ring size (at' o.1) (l0.mul i.delayInputMult)
  let r2 := ringSet r1 size (at' o.2.1) (l1.mul i.delayInputMult)
  let r3 := ringSet r2 size (at' o.2.2) (l2.mul i.delayInputMult)
  let r4 := ringSet r3 size (at' 0) (l3.mul i.delayInputMult)
  (((l.add s1).add s2).add s3, ((r.add s0).add s2).sub s3,
    { i with
      reverbLP := #v[l0, l1, l2, l3]
      reverbRing := r4
      reverbPos := ringIndex size ((i.reverbPos : Int) + 1) })

/-! The whole chain (R280, R300). -/

/-- One sample through the enabled stages. -/
def chainSample (x : Ctx) (ins : Instrument) (i : Slot) (s : Num) : Num × Num × Slot :=
  let s1 := if effectOn ins 0 then distort x.cfg ins s else s
  let a := if effectOn ins 1 then bitcrush x ins i s1 else (s1, i)
  let b := if 0 < a.2.fxFilterCount then effectFilter a.2 a.1 else a
  let p := if effectOn ins 2 then pan x ins b.2 b.1 else (b.1, b.1, b.2)
  let q := if effectOn ins 3 then chorus x p.2.2 p.1 p.2.1 else p
  if effectOn ins 4 then reverb x ins q.2.2 q.1 q.2.1 else q

/-- Samples `j, j + 1, …` of `SCRATCH` through the chain into the mix at `pos + j`; each is zeroed as it is read
(R79, R300). -/
def chainLoop (x : Ctx) (ins : Instrument) (pos : Nat) : Nat → Nat → Slot → Engine → Slot × Engine
  | 0, _, i, e => (i, e)
  | n + 1, j, i, e =>
    let y := chainSample x ins i (Memory.getNum e.scratch j)
    let e1 := { e with scratch := Memory.setNum e.scratch j .zero }
    chainLoop x ins pos n (j + 1) y.2.2 (e1.addMix (pos + j) y.1 y.2.1)

/-- `FX.RUN` on a slot (R300). -/
def runEffects (x : Ctx) (u pos runLength : Nat) (ins : Instrument) (i : Slot) (e : Engine) : Engine :=
  let r := chainLoop x ins pos runLength 0 (loadEffectFilter x ins runLength i) e
  r.2.setSlot u r.1

/-! Tail flushing (R310 to R313). -/

/-- `delayCapacity(I)` (R312). -/
def delayCapacity (c : Cfg) (sampleRate : Num) (ins : Instrument) : Nat :=
  if effectOn ins 3 || effectOn ins 4 then
    (if effectOn ins 3 then c.chorusRingSize sampleRate else 0) + (if effectOn ins 4 then reverbRingSize else 0)
  else if effectOn ins 2 then c.panRingSize sampleRate else 0

/-- The attenuation wait and the entry into flushing (R311), but for the tone count, which R312 leaves last.
[DEDUCED, assumption 27] -/
def attenuate (x : Ctx) (samplesPerTick : Num) (ins : Instrument) (i : Slot) : Slot :=
  if 0 < i.tonesThisTick then
    { i with attenuationProgress := .zero, flushing := false, flushedSamples := .zero, delayInputMult := .one }
  else if i.flushing then i
  else
    let p := i.attenuationProgress.add (Num.one.div (x.cfg.tailTicksOf ins x.sampleRate samplesPerTick))
    if Num.one.le p then
      { i with attenuationProgress := p, flushing := true, delayInputMult := .zero, flushedSamples := .zero }
    else { i with attenuationProgress := p }

/-- The flush count (R312). [DEDUCED, assumption 27] -/
def flush (x : Ctx) (samplesPerTick : Num) (ins : Instrument) (i : Slot) : Slot :=
  let n := i.flushedSamples.add samplesPerTick
  { i with
    flushedSamples := n
    deactivateAfterThisTick :=
      if (Num.ofNat (delayCapacity x.cfg x.sampleRate ins)).le n then true else i.deactivateAfterThisTick }

/-- One tick's tail update of a slot: R311, then R312 "if `I.flushing` held at the start of the tick", be it cleared by
R311 or not, then the tone count. The flag is the one that the boundary finds before R311.
[DEDUCED, assumption 27; DESIGN CHOICE, assumption 102] -/
def tailTick (x : Ctx) (samplesPerTick : Num) (ins : Instrument) (i : Slot) : Slot :=
  let i1 := attenuate x samplesPerTick ins i
  let i2 := if i.flushing then flush x samplesPerTick ins i1 else i1
  { i2 with tonesThisTick := 0 }

/-- Histories 0. -/
def Biquad.clearHistory (f : Biquad) : Biquad := { f with in1 := .zero, in2 := .zero, out1 := .zero, out2 := .zero }

/-- Deactivation (R313): the positions and `I.chorusPhase` keep their values. -/
def deactivate (i : Slot) : Slot :=
  { i with
    panRing := []
    chorusRingL := []
    chorusRingR := []
    reverbRing := []
    reverbLP := zeros4
    fxFilters := i.fxFilters.map Biquad.clearHistory
    crushHold := .zero
    crushPhase := .zero
    awake := false
    deactivateAfterThisTick := false
    flushing := false
    delayInputMult := .one }

/-! Meanings. -/

/-- A single mono stage on a slot: `r[0]` and the slot after it. -/
def monoStage (x : Ctx) (s : State) (u : Nat) (f : Instrument → Slot → Num × Slot) : State :=
  command s ((slotAt x s.eng u).map (fun p =>
    answer { s with eng := s.eng.setSlot u (f p.2 p.1).2 } [(f p.2 p.1).1]))

/-- A single stereo stage on a slot: `r[0]`, `r[1]` and the slot after it. -/
def stereoStage (x : Ctx) (s : State) (u : Nat) (f : Instrument → Slot → Num × Num × Slot) : State :=
  command s ((slotAt x s.eng u).map (fun p =>
    answer { s with eng := s.eng.setSlot u (f p.2 p.1).2.2 } [(f p.2 p.1).1, (f p.2 p.1).2.1]))

def fxRunWith (x : Ctx) (s : State) (u pos runLength : Nat) : State :=
  onEngine s
    (match slotAt x s.eng u with
    | .error f => .error f
    | .ok p =>
      if runLengthLegal x.cfg s.eng runLength && decide (pos + runLength ≤ s.eng.mixSize x.cfg) then
        .ok (runEffects x u pos runLength p.2 p.1 s.eng)
      else .error x.badOperand)

def fxTailWith (x : Ctx) (s : State) (u : Nat) : State :=
  onEngine s ((slotAt x s.eng u).map (fun p =>
    s.eng.setSlot u (tailTick x s.eng.clock.samplesPerTick p.2 p.1)))

/-- `FX.DISTORT` (R282). -/
def execFxDistort (u : Nat) (x : Num) (s : State) : Host.Outcome State Fault Refusal :=
  .next (monoStage (s.ctx Config.cfg (.fxDistort u x)) s u (fun ins i => (distort Config.cfg ins x, i)))

/-- `FX.BITCRUSH` (R284). -/
def execFxBitcrush (u : Nat) (x : Num) (s : State) : Host.Outcome State Fault Refusal :=
  .next (monoStage (s.ctx Config.cfg (.fxBitcrush u x)) s u
    (fun ins i => bitcrush (s.ctx Config.cfg (.fxBitcrush u x)) ins i x))

/-- `FX.FILTER` (R286). -/
def execFxFilter (u : Nat) (x : Num) (s : State) : Host.Outcome State Fault Refusal :=
  .next (monoStage (s.ctx Config.cfg (.fxFilter u x)) s u (fun _ i => effectFilter i x))

/-- `FX.PAN` (R288). -/
def execFxPan (u : Nat) (x : Num) (s : State) : Host.Outcome State Fault Refusal :=
  .next (stereoStage (s.ctx Config.cfg (.fxPan u x)) s u
    (fun ins i => pan (s.ctx Config.cfg (.fxPan u x)) ins i x))

/-- `FX.CHORUS` (R292). -/
def execFxChorus (u : Nat) (left right : Num) (s : State) : Host.Outcome State Fault Refusal :=
  .next (stereoStage (s.ctx Config.cfg (.fxChorus u left right)) s u
    (fun _ i => chorus (s.ctx Config.cfg (.fxChorus u left right)) i left right))

/-- `FX.REVERB` (R296). -/
def execFxReverb (u : Nat) (left right : Num) (s : State) : Host.Outcome State Fault Refusal :=
  .next (stereoStage (s.ctx Config.cfg (.fxReverb u left right)) s u
    (fun ins i => reverb (s.ctx Config.cfg (.fxReverb u left right)) ins i left right))

/-- `FX.RUN` (R300). -/
def execFxRun (u pos runLength : Nat) (s : State) : Host.Outcome State Fault Refusal :=
  .next (fxRunWith (s.ctx Config.cfg (.fxRun u pos runLength)) s u pos runLength)

/-- `FX.TAIL` (R310). -/
def execFxTail (u : Nat) (s : State) : Host.Outcome State Fault Refusal :=
  .next (fxTailWith (s.ctx Config.cfg (.fxTail u)) s u)

end Sys2Proof.Machine
end

