-- ==== Sys2Proof/Machine/Master.lean ====
section
/-! DEFINITION. The master limiter, the song clock, tone synchronisation, sanitization and the sequencer
(`46_master_orchestrator.md`), and the meanings of `LIMIT`, `RUN`, `CLK.ADV`, `TICK.END`, `PART.END`, `BAR.NEXT`,
`SANITIZE` and `SYNC.TONES`. -/

namespace Sys2Proof.Machine

/-! Limiter (R320 to R322). -/

/-- `limit` after a sample with a peak, before protection (R321). -/
def followPeak (sampleRate limit peak : Num) : Num :=
  if limit.lt peak then limit.add ((peak.sub limit).mul (limitRiseNum.div sampleRate))
  else limit.add ((peak.sub limit).mul ((limitDecayNum.div sampleRate).mul (Num.one.add limit)))

/-- "if `limit` is NaN, or infinite, or `|limit| < sanitizeMin`, then `limit <- 0`" (R322). -/
def protectLimit (v : Num) : Num := if !v.isFinite || v.abs.lt sanitizeMin then .zero else v

/-- `max(|L|, |R|)`; of a NaN it is a NaN, so that "`limit` restarts from 0" (R322).
[DESIGN CHOICE, assumption 17; DEDUCED, assumption 45] -/
def peakOf (l r : Num) : Num := if l.isNaN || r.isNaN then Num.nanOf l.bits r.bits else Num.max l.abs r.abs

/-- `limit` after a stereo sample. [DEDUCED, assumption 45] -/
def nextLimit (sampleRate limit l r : Num) : Num := protectLimit (followPeak sampleRate limit (peakOf l r))

/-- `div` of R321. -/
def limiterDivisor (limit : Num) : Num :=
  if Num.one.le limit then limit.mul (Num.ofRat 105 100) else (limit.mul (Num.ofRat 8 10)).add quarter

/-- An output sample: `sample × VOLUME / div`. -/
def limiterOutput (volume limit s : Num) : Num := (s.mul volume).div (limiterDivisor limit)

/-- The limiter stage of one run (R334): samples `j, j + 1, …`. -/
def limiterLoop (x : Ctx) : Nat → Nat → Engine → Engine
  | 0, _, e => e
  | n + 1, j, e =>
    let l := e.readMixL j
    let r := e.readMixR j
    let lim := nextLimit x.sampleRate e.limit l r
    limiterLoop x n (j + 1)
      { e with
        limit := lim
        outL := Memory.write none e.outL j (limiterOutput x.volume lim l).round32
        outR := Memory.write none e.outR j (limiterOutput x.volume lim r).round32 }

/-! Sanitization (R343). -/

/-- "`v` is NaN or (`v ≠ 0` and `|v| < sanitizeMin`)". -/
def needsZero (v : Num) : Bool := v.isNaN || (!v.eq .zero && v.abs.lt sanitizeMin)

/-- "`|v| > sanitizeMax`". -/
def blowsUp (v : Num) : Bool := sanitizeMax.lt v.abs && !v.isNaN

def cleaned (v : Num) : Num := if needsZero v then .zero else v

/-- A unit of values: a hard reset of all where one blows up, else each value cleaned. -/
def sanitizeUnit (l : List Num) : List Num := if l.any blowsUp then l.map (fun _ => .zero) else l.map cleaned

/-- The histories of a biquad. -/
def Biquad.sanitize (f : Biquad) : Biquad :=
  match sanitizeUnit [f.in1, f.in2, f.out1, f.out2] with
  | [a, b, c, d] => { f with in1 := a, in2 := b, out1 := c, out2 := d }
  | _ => f

/-- Every element of a ring: an unlisted one is 0 and stays so. -/
def sanitizeRing (m : Memory Num) : Memory Num :=
  if m.any (fun p => blowsUp p.2) then [] else m.filter (fun p => !needsZero p.2)

def sanitizeOne (v : Num) : Num := if blowsUp v then .zero else cleaned v

def StringState.sanitize (s : StringState) : StringState :=
  match sanitizeUnit [s.fracIn1, s.fracOut1] with
  | [a, b] =>
    { s with
      fracIn1 := a
      fracOut1 := b
      dispersion := s.dispersion.sanitize
      shelf := s.shelf.sanitize
      ring := sanitizeRing s.ring }
  | _ => s

/-- The first `n` biquads of a list. -/
def sanitizeFirst (n : Nat) (l : List Biquad) : List Biquad := l.mapIdx (fun i f => if i < n then f.sanitize else f)

/-- A tone slot in use (R343). -/
def sanitizeTone (song : Song) (t : Tone) : Tone :=
  match t.state with
  | .free => t
  | _ =>
    let guitar := (slotInstrument song t.instrument).elim false (fun ins => ins.kind == kindGuitar)
    { t with
      filters := sanitizeFirst t.filterCount t.filters
      noiseSample := sanitizeOne t.noiseSample
      strings := if guitar then t.strings.map StringState.sanitize else t.strings }

/-- An awake instrument slot (R343). -/
def sanitizeSlot (i : Slot) : Slot :=
  if i.awake then
    { i with
      fxFilters := i.fxFilters.map Biquad.sanitize
      reverbLP := if i.reverbLP.toList.any blowsUp then zeros4 else i.reverbLP.map cleaned
      crushHold := sanitizeOne i.crushHold
      panRing := sanitizeRing i.panRing
      chorusRingL := sanitizeRing i.chorusRingL
      chorusRingR := sanitizeRing i.chorusRingR
      reverbRing := sanitizeRing i.reverbRing }
  else i

def sanitize (song : Song) (e : Engine) : Engine :=
  { e with tones := e.tones.map (sanitizeTone song), slots := e.slots.map sanitizeSlot }

/-! Tone synchronisation (R345 to R348). -/

/-- The note that sounds at a part (R348), with its index. -/
def noteAt (part : Nat) (i : Nat) (notes : List Note) : Option (Nat × Note) :=
  match notes with
  | [] => none
  | n :: t => if n.start ≤ part ∧ part < n.stop then some (i, n) else noteAt part (i + 1) t

/-- The pattern that channel `c` plays in the current bar, with its index: none where the channel is muted or the bar
is empty. -/
def currentPattern (song : Song) (bar c : Nat) : Option (Nat × Pattern) :=
  match song.channels[c]? with
  | none => none
  | some ch =>
    let b := ch.bars.getD bar 0
    if ch.muted ∨ b = 0 then none else (ch.patterns[b - 1]?).map (fun p => (b - 1, p))

/-- `end(T)` (R345): released or freed "according to the instrument's transition". -/
def endTone (x : Ctx) (e : Engine) (u : Nat) : Engine :=
  match e.tones[u]? with
  | none => e
  | some t =>
    match slotInstrument x.song t.instrument with
    | none => freeTone e u
    | some ins => if (x.cfg.transitions.get ins.transition).releases then releaseTone e u t else freeTone e u

def endTones (x : Ctx) (us : List Nat) (e : Engine) : Engine := us.foldl (endTone x) e

/-- The note that a channel plays now, and what its tones are made of. -/
structure Voicing where
  channel : Nat
  islot : Nat
  ref : NoteRef
  note : Note
  prev : Option NoteRef
  next : Option NoteRef
  together : Bool
  seamless : Bool
  previousStop : NoteRef → Option Nat

/-- The note fields and pitches of a tone: "all of note's pitches if want-rule 1 applied, else pitch k alone" (R345). -/
def fillTone (v : Voicing) (k : Nat) (t : Tone) : Tone :=
  { t with
    channel := v.channel
    instrument := v.islot
    note := some v.ref
    noteStartPart := v.note.start
    noteEndPart := v.note.stop
    chordSize := v.note.pitches.length
    pitches := if v.together then v.note.pitches else [v.note.pitches.getD k 0]
    prevNote := v.prev
    nextNote := v.next }

/-- `keepSeamless(T)` (R346): the tone's note lies in the same pattern and, because "notes in different bars are never
joined", in the same bar. [DESIGN CHOICE, assumption 28; DEDUCED, assumption 94] -/
def keepSeamless (v : Voicing) (t : Tone) : Bool :=
  v.seamless && t.instrument == v.islot &&
    (match t.note with
    | some r => r.pattern == v.ref.pattern && r.bar == v.ref.bar && v.previousStop r == some v.note.start
    | none => false)

/-- A tone carried over: the slot is kept, its phases and histories continue (R346). "`T.atNoteStart` stays `false`"
(R346) against R18's table, which has the flag set by "new note on a kept tone": the rule of the operation stands, and
a tone that has not run yet keeps its flag, which R18 clears at the "end of the tone's first run" only.
[DESIGN CHOICE, assumption 28; DESIGN CHOICE, assumption 30; DEDUCED, assumption 64] -/
def carryOver (v : Voicing) (k : Nat) (t : Tone) : Tone :=
  { fillTone v k t with prevNote := t.note, carried := true }

/-- Tone `k` of the chord (R345): a note of another bar is another note (R346).
[DESIGN CHOICE, assumption 28; DEDUCED, assumption 35; DEDUCED, assumption 94] -/
def syncOne (x : Ctx) (v : Voicing) (k : Nat) (e : Engine) : Except Raise Engine :=
  let create (e : Engine) : Except Raise Engine :=
    (newTone x e v.islot k v.channel).map (fun r => { r.2 with tones := r.2.tones.modify r.1 (fillTone v k) })
  match (e.activeTones.getD v.channel [])[k]? with
  | none => create e
  | some u =>
    match e.tones[u]? with
    | none => create e
    | some t =>
      if t.note = some v.ref then .ok e
      else if keepSeamless v t then .ok (e.setTone u (carryOver v k t))
      else create (endTone x e u)

/-- Tones `k, k + 1, …` of the chord, `n` of them. -/
def syncMany (x : Ctx) (v : Voicing) : Nat → Nat → Engine → Except Raise Engine
  | 0, _, e => .ok e
  | n + 1, k, e =>
    match syncOne x v k e with
    | .error f => .error f
    | .ok e' => syncMany x v n (k + 1) e'

/-- How many tones the note wants now (R345). -/
def wantedTones (ch : Chord) (size into : Nat) : Nat :=
  if ch.singleTone || ch.arpeggiates then 1
  else if 0 < ch.strumParts then min size (1 + into / ch.strumParts)
  else size

/-- The released tones of a channel, newest first (R347). -/
def releasedNewestFirst (song : Song) (e : Engine) (c : Nat) : List Nat :=
  (List.range song.instrumentsPerChannel).flatMap (fun i =>
    (e.releasedTones.getD (c * song.instrumentsPerChannel + i) []).reverse)

/-- The tone cap (R347). [DESIGN CHOICE, assumption 28] -/
def capTones (x : Ctx) (c : Nat) (e : Engine) : Engine :=
  let extra := (releasedNewestFirst x.song e c).drop (x.cfg.maximumTonesPerChannel - (e.activeTones.getD c []).length)
  { e with tones := e.tones.mapIdx (fun u t => if extra.contains u then { t with fadeOutFast := true } else t) }

/-- What channel `c` plays at a part of a pattern, in the bar that is the clock's `bars`-th (R345, R348).
[DEDUCED, assumption 94] -/
def voicingOf (x : Ctx) (c part bars : Nat) (p : Nat × Pattern) : Option (Voicing × Nat) :=
  match noteAt part 0 p.2.notes with
  | none => none
  | some (i, n) =>
    let islot := c * x.song.instrumentsPerChannel + p.2.instrument
    match slotInstrument x.song islot with
    | none => none
    | some ins =>
      let ch := x.cfg.chords.get ins.chord
      let neighbour (j : Nat) (joins : Note → Bool) : Option NoteRef :=
        match p.2.notes[j]? with
        | some m => if joins m then some ⟨p.1, j, bars⟩ else none
        | none => none
      some
        ({ channel := c
           islot := islot
           ref := ⟨p.1, i, bars⟩
           note := n
           prev := if i = 0 then none else neighbour (i - 1) (fun m => m.stop == n.start)
           next := neighbour (i + 1) (fun m => m.start == n.stop)
           together := ch.singleTone || ch.arpeggiates
           seamless := (x.cfg.transitions.get ins.transition).isSeamless
           previousStop := fun r => (p.2.notes[r.note]?).map Note.stop },
         wantedTones ch n.pitches.length (part - n.start))

/-- `SYNC.TONES c` (R345), the reference policy of `toneSync`. [DESIGN CHOICE, assumption 28] -/
def syncTones (x : Ctx) (c : Nat) (e : Engine) : Except Raise Engine :=
  let voicing := (currentPattern x.song e.clock.bar c).bind (voicingOf x c (partAbs x.cfg e.clock) e.clock.barsPassed)
  match voicing with
  | none => .ok (capTones x c (endTones x (e.activeTones.getD c []) e))
  | some (v, want) =>
    match syncMany x v want 0 e with
    | .error f => .error f
    | .ok e1 => .ok (capTones x c (endTones x ((e1.activeTones.getD c []).drop want) e1))

/-- `SYNC.TONES` for channels `c, c + 1, …`, `n` of them. -/
def syncFrom (x : Ctx) : Nat → Nat → Engine → Except Raise Engine
  | 0, _, e => .ok e
  | n + 1, c, e =>
    match syncTones x c e with
    | .error f => .error f
    | .ok e' => syncFrom x n (c + 1) e'

def syncAll (x : Ctx) (e : Engine) : Except Raise Engine := syncFrom x x.song.channelCount 0 e

/-! Clock (R336 to R341). -/

/-- The bar after a bar (R339). -/
def nextBar (song : Song) (bar : Nat) : Nat :=
  if bar + 1 = song.loopStart + song.loopLength ∨ song.barCount ≤ bar + 1 then song.loopStart else bar + 1

/-- `BAR.NEXT` (R339): another bar begins. [DEDUCED, assumption 94] -/
def Clock.advanceBar (song : Song) (k : Clock) : Clock :=
  { k with bar := nextBar song k.bar, barsPassed := k.barsPassed + 1 }

/-- The carries of part, beat and bar (R338). -/
def advancePart (c : Cfg) (song : Song) (k : Clock) : Clock :=
  if k.part + 1 = c.partsPerBeat then
    (if k.beat + 1 = song.beatsPerBar then Clock.advanceBar song { k with part := 0, beat := 0 }
     else { k with part := 0, beat := k.beat + 1 })
  else { k with part := k.part + 1 }

/-- `PART.END` (R341). -/
def partEnd (x : Ctx) (e : Engine) : Except Raise Engine :=
  syncAll x { e with clock := advancePart x.cfg x.song e.clock }

/-- Released tones at a tick boundary (R340): last-tick tones are freed, the others age. -/
def ageTone (e : Engine) (u : Nat) : Engine :=
  match e.tones[u]? with
  | none => e
  | some t =>
    if t.isLastTick then freeTone e u
    else e.setTone u { t with ticksSinceReleased := t.ticksSinceReleased + 1 }

/-- What a tick boundary does before the clock moves (R340). -/
def tickBoundary (x : Ctx) (e : Engine) : Engine :=
  let e1 := e.releasedTones.flatten.foldl ageTone e
  let tail (u : Nat) (i : Slot) : Slot :=
    let i1 := if i.deactivateAfterThisTick then deactivate i else i
    if i1.awake then
      (match slotInstrument x.song u with
      | some ins => tailTick x e.clock.samplesPerTick ins i1
      | none => i1)
    else i1
  sanitize x.song { e1 with slots := e1.slots.mapIdx tail }

/-- `samplesPerTick` recomputed (R337). [DEDUCED, assumption 29] -/
def retime (x : Ctx) (k : Clock) : Clock :=
  { k with samplesPerTick := x.cfg.samplesPerTickOf x.sampleRate x.song.tempo }

/-- `TICK.END` (R340). -/
def tickEnd (x : Ctx) (e : Engine) : Except Raise Engine :=
  let e1 := tickBoundary x e
  if e1.clock.tick + 1 = x.cfg.ticksPerPart then
    (partEnd x { e1 with clock := { e1.clock with tick := 0 } }).map
      (fun e2 => { e2 with clock := retime x e2.clock })
  else .ok { e1 with clock := retime x { e1.clock with tick := e1.clock.tick + 1 } }

/-- `CLK.ADV` (R336): the non-positive remainder is carried into the next tick. -/
def advanceClock (x : Ctx) (runLength : Nat) (e : Engine) : Except Raise Engine :=
  let left := e.clock.tickSampleCountdown.sub (Num.ofNat runLength)
  let e1 := { e with clock := { e.clock with tickSampleCountdown := left } }
  if left.le .zero then
    (tickEnd x e1).map (fun e2 =>
      { e2 with clock := { e2.clock with
          tickSampleCountdown := e2.clock.tickSampleCountdown.add e2.clock.samplesPerTick } })
  else .ok e1

/-! RUN (R330 to R334). -/

/-- The tones of a slot in the order of R331. -/
def tonesOf (e : Engine) (channel islot : Nat) : List Nat :=
  ((e.activeTones.getD channel []).filter (fun u =>
    match e.tones[u]? with
    | some t => t.instrument == islot
    | none => false)) ++ e.releasedTones.getD islot []

/-- `TONE.COMPUTE` and the synth loop of each tone of a list; a number that names no tone, or a tone without an
instrument, which no run reaches, is passed over. -/
def voiceTones (x : Ctx) (runLength : Nat) : List Nat → Engine → Except Raise Engine
  | [], e => .ok e
  | u :: rest, e =>
    match e.tones[u]? with
    | none => voiceTones x runLength rest e
    | some t =>
      match slotInstrument x.song t.instrument with
      | none => voiceTones x runLength rest e
      | some ins =>
        match computeTone x e.clock u runLength ins t with
        | .error f => .error f
        | .ok t' => voiceTones x runLength rest (synthSlot x u runLength ins t' (e.setTone u t'))

/-- One instrument slot of a run: its tones, then its chain if it is awake. -/
def voiceSlot (x : Ctx) (pos runLength channel islot : Nat) (e : Engine) : Except Raise Engine :=
  match voiceTones x runLength (tonesOf e channel islot) e with
  | .error f => .error f
  | .ok e1 =>
    match e1.slots[islot]?, slotInstrument x.song islot with
    | some i, some ins => .ok (if i.awake then runEffects x islot pos runLength ins i e1 else e1)
    | _, _ => .ok e1

/-- Slots `i, i + 1, …`, `n` of them, in channel order and instrument order (R331). -/
def voiceSlots (x : Ctx) (pos runLength : Nat) : Nat → Nat → Engine → Except Raise Engine
  | 0, _, e => .ok e
  | n + 1, i, e =>
    match voiceSlot x pos runLength (slotChannel x.song i) i e with
    | .error f => .error f
    | .ok e' => voiceSlots x pos runLength n (i + 1) e'

/-- `min(N − pos, ceil(tickSampleCountdown))`, at least 1 so that "every inner iteration makes progress" and at most
`runMax`, so that no index of `SCRATCH` lies outside it (R71, R333). [DESIGN CHOICE, assumption 37] -/
def nextRunLength (remaining runMax : Nat) (k : Clock) : Nat :=
  max 1 (min (min remaining (ceilCount k.tickSampleCountdown)) runMax)

/-- One inner iteration of `RUN` (R330). -/
def runOnce (x : Ctx) (pos remaining : Nat) (e : Engine) : Except Raise (Nat × Engine) :=
  match syncAll x e with
  | .error f => .error f
  | .ok e1 =>
    let n := nextRunLength remaining (e1.runMax x.cfg) e1.clock
    match voiceSlots x pos n x.song.slotCount 0 e1 with
    | .error f => .error f
    | .ok e2 => (advanceClock x n (limiterLoop x n pos e2)).map (fun e3 => (n, e3))

/-- The loop of `RUN`; `fuel` bounds the iterations, each of which makes at least one sample. -/
def runLoop (x : Ctx) : Nat → Nat → Nat → Engine → Except Raise Engine
  | 0, _, _, e => .ok e
  | fuel + 1, pos, remaining, e =>
    if remaining = 0 then .ok e
    else
      match runOnce { x with pos := pos } pos remaining e with
      | .error f => .error f
      | .ok (n, e') => runLoop x fuel (pos + n) (remaining - n) e'

/-- The buffers at the start of a run (R330): the mix zero in `[0, N)`, everything else unspecified (R41, U3).
[DESIGN CHOICE, assumption 3] -/
def openBuffers (x : Ctx) (n : Nat) (e : Engine) : Engine :=
  { e with
    mixL := Memory.ofListFrom none 0 (List.replicate n Num.zero)
    mixR := Memory.ofListFrom none 0 (List.replicate n Num.zero)
    mixEpoch := x.epoch
    outL := []
    outR := []
    outEpoch := x.epoch }

/-- The engine's part of `RUN : N`; `WORK` is open after it, because a lazy build may have used it (R141, U2).
[DESIGN CHOICE, assumption 3] -/
def runEngine (x : Ctx) (n : Nat) (e : Engine) : Except Raise Engine :=
  (runLoop x n 0 n (openBuffers x n e)).map (forgetWork x)

/-- A slot after a faulted run. [DESIGN CHOICE, assumption 37] -/
def wreckSlot (x : Ctx) (u : Nat) (i : Slot) : Slot :=
  let f (key : List Nat) : Num := x.free .wreck (1 :: u :: key)
  let ring (n size : Nat) : Memory Num := freeRing size (fun j => f [n, j])
  let pick (n size : Nat) : Nat := (f [n]).bits.toNat % size
  { i with
    awake := x.flip [1, u, 15]
    flushing := x.flip [1, u, 16]
    deactivateAfterThisTick := x.flip [1, u, 17]
    tonesThisTick := (f [18]).bits.toNat
    fxFilterCount := pick 19 (i.fxFilters.length + 1)
    attenuationProgress := f [0]
    flushedSamples := f [1]
    delayInputMult := f [2]
    crushPhase := f [3]
    crushHold := f [4]
    chorusPhase := f [5]
    panRing := ring 6 (x.cfg.panRingSize x.sampleRate)
    panPos := pick 7 (x.cfg.panRingSize x.sampleRate)
    chorusRingL := ring 8 (x.cfg.chorusRingSize x.sampleRate)
    chorusRingR := ring 9 (x.cfg.chorusRingSize x.sampleRate)
    chorusPos := pick 10 (x.cfg.chorusRingSize x.sampleRate)
    reverbRing := ring 11 reverbRingSize
    reverbPos := pick 12 reverbRingSize
    reverbLP := free4 (fun j => f [13, j])
    fxFilters := i.fxFilters.mapIdx (fun k _ => freeBiquad (fun j => f [14, k, j])) }

/-- A free reference to a note. -/
def freeNote (x : Ctx) (key : List Nat) : Option NoteRef :=
  if x.flip (9 :: 0 :: key) then
    some ⟨x.pick (9 :: 1 :: key) (2 ^ 64), x.pick (9 :: 2 :: key) (2 ^ 64), x.pick (9 :: 3 :: key) (2 ^ 64)⟩
  else none

/-- A tone slot after a faulted run: `SYNC.TONES` may have created, carried over, released or freed its tone, and a tick
may have aged it. [DESIGN CHOICE, assumption 37] -/
def wreckVoice (x : Ctx) (u : Nat) (t : Tone) : Tone :=
  let k (n : Nat) : List Nat := [4, u, n]
  let islot := x.pick (k 0) x.song.slotCount
  { wreckTone x u t with
    state := if x.song.slotCount = 0 then .free else if x.flip (k 1) then .active
      else if x.flip (k 2) then .released else .free
    channel := slotChannel x.song islot
    instrument := islot
    note := freeNote x (k 3)
    prevNote := freeNote x (k 4)
    nextNote := freeNote x (k 5)
    pitches := (List.range (x.pick (k 6) (x.cfg.maxChordSize + 1))).map (fun i => x.pick (8 :: i :: k 7) (2 ^ 64))
    chordSize := x.pick (k 8) (x.cfg.maxChordSize + 1)
    noteStartPart := x.pick (k 9) (2 ^ 64)
    noteEndPart := x.pick (k 10) (2 ^ 64)
    ticksSinceReleased := x.pick (k 11) (2 ^ 64)
    liveInput := x.flip (k 12)
    fadeOutFast := x.flip (k 13)
    atNoteStart := x.flip (k 14)
    carried := x.flip (k 15) }

/-- The queues that hold the tones of a state, each tone at a free place of the queue that `place` names.
[DESIGN CHOICE, assumption 37] -/
def freeQueues (x : Ctx) (state : ToneState) (place : Tone → Nat) (key count : Nat) (tones : List Tone) :
    List (List Nat) :=
  tones.zipIdx.foldl (fun queues p =>
    if p.1.state = state then
      queues.modify (place p.1) (fun q =>
        let i := x.pick [6, key, p.2] (q.length + 1)
        q.take i ++ p.2 :: q.drop i)
    else queues) (List.replicate count [])

/-- Every entry that a synth loop can build under a song. -/
def waveKeys (x : Ctx) : List WaveKey :=
  [.sine, .impulse] ++ (List.range x.cfg.chipWaves.length).map .chip ++ (List.range x.cfg.noiseWaveCount).map .noise
    ++ (List.range x.song.slotCount).flatMap (fun i =>
      [.spectrum i, .harmonics i] ++ (List.range drumCount).map (.drum i))

/-- The wave caches after a faulted run: each entry may have been built, none may not. [DESIGN CHOICE, assumption 37] -/
def wreckWaves (x : Ctx) (e : Engine) : Engine :=
  (waveKeys x).zipIdx.foldl (fun e p => if x.flip [7, p.2] then ensureWave x p.1 e else e) e

/-- The engine after a fault inside `RUN`: "clock, tones, rings and `limit` have advanced by an unspecified part of the
schedule and `OUTL/OUTR` are unspecified" (R452, U3, U6). `SCRATCH` is all 0, as at every point where `seq = Idle`
(R40). [DESIGN CHOICE, assumption 3; DESIGN CHOICE, assumption 37] -/
def wreckEngine (x : Ctx) (e : Engine) : Engine :=
  let tones := e.tones.mapIdx (fun u t => wreckVoice x u t)
  let clock := if x.flip [10] then retime x e.clock else e.clock
  { wreckWaves x e with
    work := []
    workEpoch := x.epoch
    mixL := []
    mixR := []
    mixEpoch := x.epoch
    outL := []
    outR := []
    outEpoch := x.epoch
    scratch := []
    limit := x.free .wreck [3]
    clock :=
      { clock with
        bar := x.pick [4] x.song.barCount
        beat := x.pick [5] x.song.beatsPerBar
        part := x.pick [6] x.cfg.partsPerBeat
        tick := x.pick [7] x.cfg.ticksPerPart
        tickSampleCountdown := x.free .wreck [8]
        barsPassed := x.pick [11] (2 ^ 64) }
    tones := tones
    activeTones := freeQueues x .active Tone.channel 0 x.song.channelCount tones
    releasedTones := freeQueues x .released Tone.instrument 1 x.song.slotCount tones
    slots := e.slots.mapIdx (fun u i => wreckSlot x u i)
    rng := { e.rng with drawn := e.rng.drawn + x.pick [9] (2 ^ 64) } }

/-- Silence in `[0, N)` (D17); `WORK` is open after it as after any `RUN` (R141, U2). [DESIGN CHOICE, assumption 38] -/
def silence (x : Ctx) (n : Nat) (e : Engine) : Engine :=
  forgetWork x
    { openBuffers x n e with
      outL := Memory.ofListFrom none 0 (List.replicate n 0#32)
      outR := Memory.ofListFrom none 0 (List.replicate n 0#32) }

/-- `RUN : N` while playing. -/
def runPlaying (x : Ctx) (s : State) (n : Nat) : State :=
  match runEngine x n s.eng with
  | .ok e => { s with eng := e }
  | .error f => raise f { s with eng := wreckEngine x s.eng }

/-- `RUN : N` (R330, R332). [DESIGN CHOICE, assumption 38] -/
def runWith (x : Ctx) (s : State) (n : Nat) : Host.Outcome State Fault Refusal :=
  if s.fault then .next s
  else if n = 0 then .next s
  else if x.cfg.outMax < n then .next (raise x.badOperand s)
  else if s.playing then .next (runPlaying x s n)
  else
    match x.cfg.pausedRunPolicy with
    | .refuse => .refused .runWhilePaused
    | .silence => .next { s with eng := silence x n s.eng }

/-- `LIMIT : L, R` (R321). -/
def limitWith (x : Ctx) (s : State) (l r : Num) : State :=
  let lim := nextLimit x.sampleRate s.eng.limit l r
  command s (.ok (answer { s with eng := { s.eng with limit := lim } }
    [limiterOutput x.volume lim l, limiterOutput x.volume lim r]))

/-- `CLK.ADV : runLength`, "`BadOperand` if `runLength = 0` or `runLength > ceil(tickSampleCountdown)`" (R336). -/
def clkAdvWith (x : Ctx) (s : State) (runLength : Nat) : State :=
  onEngine s
    (if decide (1 ≤ runLength) && decide (runLength ≤ ceilCount s.eng.clock.tickSampleCountdown) then
      advanceClock x runLength s.eng
    else .error x.badOperand)

def syncTonesWith (x : Ctx) (s : State) (u : Nat) : State :=
  onEngine s (if u < x.song.channelCount then syncTones x u s.eng else .error x.badIndex)

/-- `LIMIT` (R321). -/
def execLimit (left right : Num) (s : State) : Host.Outcome State Fault Refusal :=
  .next (limitWith (s.ctx Config.cfg (.limit left right)) s left right)

/-- `RUN` (R330). -/
def execRun (count : Nat) (s : State) : Host.Outcome State Fault Refusal :=
  runWith (s.ctx Config.cfg (.run count)) s count

/-- `CLK.ADV` (R336). -/
def execClkAdv (runLength : Nat) (s : State) : Host.Outcome State Fault Refusal :=
  .next (clkAdvWith (s.ctx Config.cfg (.clkAdv runLength)) s runLength)

/-- `TICK.END` (R340). -/
def execTickEnd (s : State) : Host.Outcome State Fault Refusal :=
  .next (onEngine s (tickEnd (s.ctx Config.cfg .tickEnd) s.eng))

/-- `PART.END` (R341). -/
def execPartEnd (s : State) : Host.Outcome State Fault Refusal :=
  .next (onEngine s (partEnd (s.ctx Config.cfg .partEnd) s.eng))

/-- `BAR.NEXT` (R339). -/
def execBarNext (s : State) : Host.Outcome State Fault Refusal :=
  .next (onEngine s (.ok { s.eng with clock := s.eng.clock.advanceBar s.song }))

/-- `SANITIZE` (R343). -/
def execSanitize (s : State) : Host.Outcome State Fault Refusal :=
  .next (onEngine s (.ok (sanitize s.song s.eng)))

/-- `SYNC.TONES` (R345). -/
def execSyncTones (u : Nat) (s : State) : Host.Outcome State Fault Refusal :=
  .next (syncTonesWith (s.ctx Config.cfg (.syncTones u)) s u)

end Sys2Proof.Machine
end

