-- ==== Sys2Proof/Machine/SystemOps.lean ====
section
/-! DEFINITION. System, host-access and configuration operations (`47_system.md`) and reset
(`70_reset_and_hazards.md`), and the meanings of `RESET`, `PLAY`, `PAUSE`, `LIVE`, `CFGW`, `CFGR`, `SETR`, `RDR`,
`WRW`, `RDW` and `RDM`. -/

namespace Sys2Proof.Machine

/-! Reset (R480, R482). -/

/-- `RESET`: "every state element <- its value in the table" of R64; `r`, `WORK` and the buffers are left unspecified.
The ports, the environment's time and the host's codec are not the block's state elements.
[DESIGN CHOICE, assumption 4; DESIGN CHOICE, assumption 6] -/
def resetBlock (c : Cfg) (s : State) : State :=
  { s with
    r := freeRegisters s.epoch
    eng := Engine.fresh c resetSampleRate c.initialSong s.epoch
    sampleRate := resetSampleRate
    volume := .one
    liveDeadlineSeconds := resetLiveDeadline
    rngSeed := 0#64
    song := c.initialSong
    playing := false
    busy := false
    fault := false
    audioActive := false
    faultCode := 0#8
    faultInfo := 0#32
    liveDeadline := none
    seq := .idle }

/-- The command words without a partly received descriptor at their end (R482); `fuel` is their number.
[DEDUCED, assumption 43] -/
def completeDescriptors (fuel : Nat) (words : List Word) : List Word :=
  match fuel, words with
  | 0, _ => []
  | _, [] => []
  | n + 1, h :: rest =>
    if rest.length < headerCount h then []
    else (h :: rest.take (headerCount h)) ++ completeDescriptors n (rest.drop (headerCount h))

/-- The platform reset (R482): the effect of `RESET`, and a partly received descriptor and the responses not yet taken
are discarded. [DESIGN CHOICE, assumption 7; DEDUCED, assumption 43] -/
def platformReset (c : Cfg) (s : State) : State :=
  { resetBlock c { s with epoch := s.epoch + 1 } with
    port := completeDescriptors s.port.length s.port
    responses := []
    resetPin := false }

/-! Playback control (R374 to R377). -/

/-- `PLAY`: "`PLAY` while `playing` changes nothing" (R374). [DESIGN CHOICE, assumption 5; DEDUCED, assumption 29] -/
def play (c : Cfg) (s : State) : State :=
  if s.playing then s
  else
    let spt := c.samplesPerTickOf s.sampleRate s.song.tempo
    let k := s.eng.clock
    { s with
      playing := true
      audioActive := true
      eng := { s.eng with clock := { k with
        samplesPerTick := spt
        tickSampleCountdown := if k.countdownSet then k.tickSampleCountdown else spt
        countdownSet := true } } }

/-- `PAUSE` (R375). -/
def pause (s : State) : State :=
  { s with playing := false, audioActive := if s.liveDeadline = none then false else s.audioActive }

/-- `LIVE` (R376). -/
def live (s : State) : State :=
  { s with liveDeadline := some (s.monoTime.add s.liveDeadlineSeconds), audioActive := true }

/-- The deadline check (R377), `now` being the time read. [DESIGN CHOICE, assumption 41] -/
def checkDeadline (now : Num) (s : State) : State :=
  match s.liveDeadline with
  | none => { s with monoTime := now }
  | some d =>
    if d.le now then
      { s with monoTime := now, liveDeadline := none, audioActive := if s.playing then s.audioActive else false }
    else { s with monoTime := now }

/-- The environment's time at the acceptance of a command, "not less than the previous read" (R377).
[DESIGN CHOICE, assumption 41] -/
def readTime (epoch : Nat) (last : Num) : Num :=
  let t : Num := ⟨Config.monoRaw epoch⟩
  if last.le t then t else last

/-! Control registers (R44, R378, R379). -/

/-- The control registers that a write reaches. -/
inductive ControlWrite where
  | sampleRate (v : Num)
  | volume (v : Num)
  | liveDeadline (v : Num)
  | rngSeed (v : BitVec 64)
  | bar (v : Nat)
deriving DecidableEq, Repr

/-- The write that `CFGW u : value` asks for, none where it is illegal: a read-only or reserved register, a value that
is not legal, or `BAR` while playing (R378). -/
def controlWrite (s : State) (u : Nat) (value : Word) : Option ControlWrite :=
  let v : Num := ⟨value⟩
  match u with
  | 0 => if v.isFinite && Num.zero.lt v then some (.sampleRate v) else none
  | 1 => if v.isFinite && Num.zero.le v then some (.volume v) else none
  | 2 => if v.isFinite && Num.zero.le v then some (.liveDeadline v) else none
  | 3 => some (.rngSeed value)
  | 7 => if !s.playing && decide (value.toNat < s.song.barCount) then some (.bar value.toNat) else none
  | _ => none

/-- The side effects of a write (R45, R378, R61). [DESIGN CHOICE, assumption 5] -/
def applyControl (c : Cfg) (w : ControlWrite) (s : State) : State :=
  match w with
  | .sampleRate v => { s with sampleRate := v, eng := { clearSlots c s.song s.eng with scratch := [] } }
  | .volume v => { s with volume := v }
  | .liveDeadline v => { s with liveDeadlineSeconds := v }
  | .rngSeed v => { s with rngSeed := v, eng := { s.eng with rng := ⟨v, 0⟩ } }
  | .bar v =>
    { s with eng := { clearTones c s.song s.eng with clock :=
        { s.eng.clock with
          bar := v
          beat := 0
          part := 0
          tick := 0
          tickSampleCountdown := freeNum s.epoch .countdown []
          countdownSet := false } } }

def cfgwWith (x : Ctx) (s : State) (u : Nat) (value : Word) : State :=
  command s ((orRaise (controlWrite s u value) ⟨.badConfig, x.info⟩).map (fun w => applyControl x.cfg w s))

/-- What `CFGR u` returns (R44, R379); a reserved number returns 0. [DEDUCED, assumption 42] -/
def controlRead (s : State) (u : Nat) : Word :=
  match u with
  | 0 => s.sampleRate.response
  | 1 => s.volume.response
  | 2 => s.liveDeadlineSeconds.response
  | 3 => s.rngSeed
  | 4 => statusWord false s.playing s.fault s.audioActive
  | 5 => BitVec.ofNat 64 s.faultCode.toNat
  | 6 => BitVec.ofNat 64 s.faultInfo.toNat
  | 7 => BitVec.ofNat 64 s.eng.clock.bar
  | 8 => BitVec.ofNat 64 s.eng.clock.beat
  | 9 => BitVec.ofNat 64 s.eng.clock.part
  | 10 => BitVec.ofNat 64 s.eng.clock.tick
  | 11 => s.eng.limit.response
  | _ => 0#64

/-! Registers and memories (R382 to R386). -/

def setrWith (x : Ctx) (s : State) (u : Nat) (v : Num) : State :=
  command s ((need (decide (u < 16)) x.badIndex).map (fun _ => s.setResult u v))

/-- `r[u]`. -/
def readRegister (s : State) (u : Nat) : Option Num := s.r.toArray[u]?

def rdrWith (x : Ctx) (s : State) (u : Nat) : State :=
  readCommand s ((orRaise (readRegister s u) x.badIndex).map Num.response)

def wrwWith (x : Ctx) (s : State) (index : Nat) (v : Num) : State :=
  onEngine s ((need (decide (index < x.cfg.workSize)) x.badIndex).map (fun _ => s.eng.writeWork index v))

def rdwWith (x : Ctx) (s : State) (index : Nat) : State :=
  readCommand s ((need (decide (index < x.cfg.workSize)) x.badIndex).map (fun _ => (s.eng.readWork index).response))

/-- A binary32 pattern as a response word: zero-extended; a NaN "may carry any NaN pattern" (R7, R105).
[DESIGN CHOICE, assumption 1] -/
def singleResponse (v : Single) : Word :=
  let n := v.toNat
  if n / 2 ^ 23 % 2 ^ 8 = 255 ∧ n % 2 ^ 23 ≠ 0 then
    (let m := (Config.nanResponse (BitVec.ofNat 64 n)).toNat % 2 ^ 32 ||| 0x7F800000
     BitVec.ofNat 64 (if m % 2 ^ 23 = 0 then m ||| 0x400000 else m))
  else BitVec.ofNat 64 n

/-- An instrument ring by its number (R385): 0 pan, 1 chorus left, 2 chorus right, 3 reverb; with its size. -/
def slotRing (x : Ctx) (i : Slot) (w : Nat) : Option (Memory Num × Nat) :=
  match w with
  | 0 => some (i.panRing, x.cfg.panRingSize x.sampleRate)
  | 1 => some (i.chorusRingL, x.cfg.chorusRingSize x.sampleRate)
  | 2 => some (i.chorusRingR, x.cfg.chorusRingSize x.sampleRate)
  | 3 => some (i.reverbRing, reverbRingSize)
  | _ => none

/-- Element `index` of a ring. -/
def ringElement (m : Memory Num × Nat) (index : Nat) : Option Num :=
  if index < m.2 then some (Memory.getNum m.1 index) else none

/-- The wave cache entry and the element in it that `RDM 6, v, w : index` names (R385). -/
def waveElement (x : Ctx) (v w index : Nat) : Option (WaveKey × Nat) :=
  match v with
  | 0 => if w = 0 then some (.sine, index) else none
  | 1 => some (.chip w, index)
  | 2 => some (.noise w, index)
  | 3 => some (.spectrum w, index)
  | 4 => some (.harmonics w, index)
  | 5 =>
    let d := index / (x.cfg.spectrumWaveLength + 1)
    if d < drumCount then some (.drum w d, index % (x.cfg.spectrumWaveLength + 1)) else none
  | 6 => if w = 0 then some (.impulse, index) else none
  | _ => none

/-- Element `index` of memory space `u` (R70, R385). [DESIGN CHOICE, assumption 10] -/
def readSpace (x : Ctx) (e : Engine) (u v w index : Nat) : Option Word :=
  match u with
  | 0 => if v = 0 ∧ w = 0 ∧ index < x.cfg.workSize then some (e.readWork index).response else none
  | 1 => if v = 0 ∧ w = 0 ∧ index < x.cfg.outMax then some (singleResponse (e.readOutL index)) else none
  | 2 => if v = 0 ∧ w = 0 ∧ index < x.cfg.outMax then some (singleResponse (e.readOutR index)) else none
  | 3 => if v = 0 ∧ w = 0 ∧ index < e.runMax x.cfg then some (Memory.getNum e.scratch index).response else none
  | 4 => ((e.slots[v]?).bind (fun i => slotRing x i w)).bind (fun m => (ringElement m index).map Num.response)
  | 5 => ((e.tones[v]?).bind (fun t => t.strings[w]?)).bind (fun s =>
      (ringElement (s.ring, x.cfg.stringRingSize x.sampleRate) index).map Num.response)
  | 6 => (waveElement x v w index).bind (fun p =>
      (findWave e.waves p.1).bind (fun d => (d[p.2]?).map Num.response))
  | 7 =>
    if w = 0 ∧ index < e.mixSize x.cfg then
      (if v = 0 then some (e.readMixL index).response
       else if v = 1 then some (e.readMixR index).response else none)
    else none
  | _ => none

def rdmWith (x : Ctx) (s : State) (u v w index : Nat) : State :=
  readCommand s (orRaise (readSpace x s.eng u v w index) x.badIndex)

/-! Meanings. -/

/-- `RESET` (R480): "Executes in every state". -/
def execReset (s : State) : Host.Outcome State Fault Refusal := .next (resetBlock Config.cfg s)

/-- `PLAY` (R374). -/
def execPlay (s : State) : Host.Outcome State Fault Refusal := .next (command s (.ok (play Config.cfg s)))

/-- `PAUSE` (R375). -/
def execPause (s : State) : Host.Outcome State Fault Refusal := .next (command s (.ok (pause s)))

/-- `LIVE` (R376). -/
def execLive (s : State) : Host.Outcome State Fault Refusal := .next (command s (.ok (live s)))

/-- `CFGW` (R378). -/
def execCfgw (u : Nat) (value : Word) (s : State) : Host.Outcome State Fault Refusal :=
  .next (cfgwWith (s.ctx Config.cfg (.cfgw u value)) s u value)

/-- `CFGR` (R379). -/
def execCfgr (u : Nat) (s : State) : Host.Outcome State Fault Refusal := .next (readCommand s (.ok (controlRead s u)))

/-- `SETR` (R382). -/
def execSetr (u : Nat) (value : Num) (s : State) : Host.Outcome State Fault Refusal :=
  .next (setrWith (s.ctx Config.cfg (.setr u value)) s u value)

/-- `RDR` (R383). -/
def execRdr (u : Nat) (s : State) : Host.Outcome State Fault Refusal :=
  .next (rdrWith (s.ctx Config.cfg (.rdr u)) s u)

/-- `WRW` (R384). -/
def execWrw (index : Nat) (value : Num) (s : State) : Host.Outcome State Fault Refusal :=
  .next (wrwWith (s.ctx Config.cfg (.wrw index value)) s index value)

/-- `RDW` (R386). -/
def execRdw (index : Nat) (s : State) : Host.Outcome State Fault Refusal :=
  .next (rdwWith (s.ctx Config.cfg (.rdw index)) s index)

/-- `RDM` (R385). -/
def execRdm (u v w index : Nat) (s : State) : Host.Outcome State Fault Refusal :=
  .next (rdmWith (s.ctx Config.cfg (.rdm u v w index)) s u v w index)

end Sys2Proof.Machine
end

