-- ==== Sys2Proof/Machine/SongOps.lean ====
section
/-! DEFINITION. The song store's operations (`47_system.md` R380, R381) and the meanings of `SONG.LOAD` and
`SONG.SET`. -/

namespace Sys2Proof.Machine

/-! Resizing, "preserving existing content" (R381). -/

/-- An instrument with every setting at its lowest value, for a default song that has none to copy. -/
def blankInstrument : Instrument where
  kind := 0
  volume := 0
  preset := 0
  filter := []
  distortionFilter := []
  filterEnvelope := 0
  transition := 0
  chord := 0
  vibrato := 0
  interval := 0
  effects := 0
  distortion := 0
  bitcrusherFreq := 0
  bitcrusherQuantization := 0
  pan := 0
  reverb := 0
  chipWave := 0
  noiseWave := 0
  operators := List.replicate operatorCount ⟨0, 0, 0⟩
  algorithm := 0
  feedbackType := 0
  feedbackAmplitude := 0
  feedbackEnvelope := 0
  spectrumWave := List.replicate spectrumPoints 0
  harmonicsWave := List.replicate harmonicsPoints 0
  pulseWidth := 0
  pulseEnvelope := 0
  sustain := 0
  drumEnvelopes := List.replicate drumCount 0
  drumSpectrumWaves := List.replicate drumCount (List.replicate spectrumPoints 0)

def blankPattern : Pattern := ⟨0, []⟩

def blankChannel : Channel := ⟨0, false, [], [], []⟩

/-- A list cut or grown to `n` entries. [DESIGN CHOICE, assumption 34] -/
def resizeList {α : Type} (n : Nat) (l : List α) (fresh : Nat → α) : List α :=
  l.take n ++ (List.range (n - l.length)).map (fun i => fresh (l.length + i))

/-- A channel with its lists at the song's counts; new entries come from `dflt`, a channel of the default song.
[DESIGN CHOICE, assumption 34] -/
def resizeChannel (s : Song) (dflt ch : Channel) : Channel :=
  { ch with
    instruments := resizeList s.instrumentsPerChannel ch.instruments
      (fun j => dflt.instruments.getD j (dflt.instruments.headD blankInstrument))
    patterns := resizeList s.patternsPerChannel ch.patterns (fun j => dflt.patterns.getD j blankPattern)
    bars := resizeList s.barCount ch.bars (fun j => dflt.bars.getD j 0) }

/-- A song with every list at its count fields; `pitch` and `noise` are its channels before.
[DESIGN CHOICE, assumption 34] -/
def resizeSong (dflt : Song) (pitch noise : List Channel) (s : Song) : Song :=
  let pitchDflt := dflt.channels.take dflt.pitchChannelCount
  let noiseDflt := dflt.channels.drop dflt.pitchChannelCount
  let fit (l : List Channel) (d : List Channel) (n : Nat) : List Channel :=
    (resizeList n l (fun j => d.getD j blankChannel)).mapIdx (fun j ch => resizeChannel s (d.getD j blankChannel) ch)
  { s with channels := fit pitch pitchDflt s.pitchChannelCount ++ fit noise noiseDflt s.noiseChannelCount }

/-- The resize after a count field changed. -/
def resizeCounts (dflt before after : Song) : Song :=
  resizeSong dflt (before.channels.take before.pitchChannelCount) (before.channels.drop before.pitchChannelCount) after

/-! Edits. A path that names no element gives none. -/

/-- Element `i` of a list changed. -/
def editAt {α : Type} (l : List α) (i : Nat) (f : α → Option α) : Option (List α) :=
  match l[i]? with
  | none => none
  | some v => (f v).map (fun w => l.set i w)

def editPin (p : Pin) (e : PinEdit) : Pin :=
  match e with
  | .time v => { p with time := v }
  | .interval v => { p with interval := v }
  | .expression v => { p with expression := v }

def editNote (n : Note) (e : NoteEdit) : Option Note :=
  match e with
  | .start v => some { n with start := v }
  | .stop v => some { n with stop := v }
  | .pitches v => some { n with pitches := v }
  | .pitch i v => (editAt n.pitches i (fun _ => some v)).map (fun l => { n with pitches := l })
  | .pins v => some { n with pins := v }
  | .pin i e => (editAt n.pins i (fun p => some (editPin p e))).map (fun l => { n with pins := l })

def editPattern (p : Pattern) (e : PatternEdit) : Option Pattern :=
  match e with
  | .instrument v => some { p with instrument := v }
  | .notes v => some { p with notes := v }
  | .note i e => (editAt p.notes i (fun n => editNote n e)).map (fun l => { p with notes := l })

def editPoint (p : FilterPoint) (e : PointEdit) : FilterPoint :=
  match e with
  | .kind v => { p with kind := v }
  | .freq v => { p with freq := v }
  | .gain v => { p with gain := v }

def editOperator (o : Operator) (e : OperatorEdit) : Operator :=
  match e with
  | .frequency v => { o with frequency := v }
  | .amplitude v => { o with amplitude := v }
  | .envelope v => { o with envelope := v }

def setInstrumentField (i : Instrument) (f : InstrumentField) (v : Nat) : Instrument :=
  match f with
  | .kind => { i with kind := v }
  | .volume => { i with volume := v }
  | .preset => { i with preset := v }
  | .filterEnvelope => { i with filterEnvelope := v }
  | .transition => { i with transition := v }
  | .chord => { i with chord := v }
  | .vibrato => { i with vibrato := v }
  | .interval => { i with interval := v }
  | .effects => { i with effects := v }
  | .distortion => { i with distortion := v }
  | .bitcrusherFreq => { i with bitcrusherFreq := v }
  | .bitcrusherQuantization => { i with bitcrusherQuantization := v }
  | .pan => { i with pan := v }
  | .reverb => { i with reverb := v }
  | .chipWave => { i with chipWave := v }
  | .noiseWave => { i with noiseWave := v }
  | .algorithm => { i with algorithm := v }
  | .feedbackType => { i with feedbackType := v }
  | .feedbackAmplitude => { i with feedbackAmplitude := v }
  | .feedbackEnvelope => { i with feedbackEnvelope := v }
  | .pulseWidth => { i with pulseWidth := v }
  | .pulseEnvelope => { i with pulseEnvelope := v }
  | .sustain => { i with sustain := v }

def editInstrument (i : Instrument) (e : InstrumentEdit) : Option Instrument :=
  match e with
  | .scalar f v => some (setInstrumentField i f v)
  | .filter v => some { i with filter := v }
  | .filterPoint k e => (editAt i.filter k (fun p => some (editPoint p e))).map (fun l => { i with filter := l })
  | .distortionFilter v => some { i with distortionFilter := v }
  | .distortionFilterPoint k e =>
    (editAt i.distortionFilter k (fun p => some (editPoint p e))).map (fun l => { i with distortionFilter := l })
  | .operators v => some { i with operators := v }
  | .operator k e => (editAt i.operators k (fun o => some (editOperator o e))).map (fun l => { i with operators := l })
  | .spectrumWave v => some { i with spectrumWave := v }
  | .spectrumPoint k v => (editAt i.spectrumWave k (fun _ => some v)).map (fun l => { i with spectrumWave := l })
  | .harmonicsWave v => some { i with harmonicsWave := v }
  | .harmonicsPoint k v => (editAt i.harmonicsWave k (fun _ => some v)).map (fun l => { i with harmonicsWave := l })
  | .drumEnvelopes v => some { i with drumEnvelopes := v }
  | .drumSpectrumWaves v => some { i with drumSpectrumWaves := v }
  | .drumEnvelope d v => (editAt i.drumEnvelopes d (fun _ => some v)).map (fun l => { i with drumEnvelopes := l })
  | .drumSpectrumWave d v =>
    (editAt i.drumSpectrumWaves d (fun _ => some v)).map (fun l => { i with drumSpectrumWaves := l })
  | .drumSpectrumPoint d k v =>
    (editAt i.drumSpectrumWaves d (fun w => editAt w k (fun _ => some v))).map
      (fun l => { i with drumSpectrumWaves := l })

def editChannel (ch : Channel) (e : ChannelEdit) : Option Channel :=
  match e with
  | .octave v => some { ch with octave := v }
  | .muted v => some { ch with muted := v }
  | .bars v => some { ch with bars := v }
  | .bar i v => (editAt ch.bars i (fun _ => some v)).map (fun l => { ch with bars := l })
  | .patterns v => some { ch with patterns := v }
  | .pattern i v => (editAt ch.patterns i (fun _ => some v)).map (fun l => { ch with patterns := l })
  | .patternField i e => (editAt ch.patterns i (fun p => editPattern p e)).map (fun l => { ch with patterns := l })
  | .instruments v => some { ch with instruments := v }
  | .instrument i v => (editAt ch.instruments i (fun _ => some v)).map (fun l => { ch with instruments := l })
  | .instrumentField i e =>
    (editAt ch.instruments i (fun ins => editInstrument ins e)).map (fun l => { ch with instruments := l })

/-- The edited song: "replaces that one field of `SONG`"; a count field resizes the lists (R381). -/
def editSong (dflt s : Song) (e : SongEdit) : Option Song :=
  match e with
  | .scale v => some { s with scale := v }
  | .key v => some { s with key := v }
  | .tempo v => some { s with tempo := v }
  | .beatsPerBar v => some (resizeCounts dflt s { s with beatsPerBar := v })
  | .barCount v => some (resizeCounts dflt s { s with barCount := v })
  | .patternsPerChannel v => some (resizeCounts dflt s { s with patternsPerChannel := v })
  | .rhythm v => some { s with rhythm := v }
  | .instrumentsPerChannel v => some (resizeCounts dflt s { s with instrumentsPerChannel := v })
  | .loopStart v => some { s with loopStart := v }
  | .loopLength v => some { s with loopLength := v }
  | .pitchChannelCount v => some (resizeCounts dflt s { s with pitchChannelCount := v })
  | .noiseChannelCount v => some (resizeCounts dflt s { s with noiseChannelCount := v })
  | .channels v => some { s with channels := v }
  | .channel c e => (editAt s.channels c (fun ch => editChannel ch e)).map (fun l => { s with channels := l })

/-! Coherence (R86, R87, R381). -/

/-- Frees every tone that `p` names. -/
def freeTones (p : Tone → Bool) (e : Engine) : Engine :=
  (List.range e.tones.length).foldl (fun e u =>
    match e.tones[u]? with
    | some t => if t.state = .free then e else if p t then freeTone e u else e
    | none => e) e

def freeChannelTones (c : Nat) (e : Engine) : Engine := freeTones (fun t => t.channel == c) e

/-- "frees the tones of that instrument's slot and gives the slot its reset state". -/
def resetSlot (c : Cfg) (islot : Nat) (e : Engine) : Engine :=
  (freeTones (fun t => t.instrument == islot) e).setSlot islot (Slot.zero c)

/-- The waves built from a slot's control arrays. -/
def slotWave (islot : Nat) (k : WaveKey) : Bool :=
  match k with
  | .spectrum i => i == islot
  | .harmonics i => i == islot
  | .drum i _ => i == islot
  | _ => false

/-- Whether a wave is one of a slot's drum waves. -/
def drumWave (islot : Nat) (k : WaveKey) : Bool :=
  match k with
  | .drum i _ => i == islot
  | _ => false

/-- A slot whose whole record was replaced: its `kind` and its control arrays are edited with it.
[DESIGN CHOICE, assumption 34] -/
def replaceSlot (c : Cfg) (islot : Nat) (e : Engine) : Engine :=
  { resetSlot c islot e with waves := invalidateWaves (resetSlot c islot e).waves (slotWave islot) }

/-- Coherence after an edit of an instrument. -/
def settleInstrument (c : Cfg) (islot : Nat) (ed : InstrumentEdit) (e : Engine) : Engine :=
  match ed with
  | .scalar .kind _ => resetSlot c islot e
  | .spectrumWave _ | .spectrumPoint _ _ => { e with waves := invalidateWaves e.waves (· == .spectrum islot) }
  | .harmonicsWave _ | .harmonicsPoint _ _ => { e with waves := invalidateWaves e.waves (· == .harmonics islot) }
  | .drumSpectrumWaves _ => { e with waves := invalidateWaves e.waves (drumWave islot) }
  | .drumSpectrumWave d _ | .drumSpectrumPoint d _ _ =>
    { e with waves := invalidateWaves e.waves (· == .drum islot d) }
  | _ => e

/-- Every instrument slot of a channel replaced. [DESIGN CHOICE, assumption 34] -/
def replaceSlots (c : Cfg) (song : Song) (ch : Nat) (e : Engine) : Engine :=
  (List.range song.instrumentsPerChannel).foldl (fun e i => replaceSlot c (ch * song.instrumentsPerChannel + i) e) e

/-- Coherence after an edit of a channel of a song. [DESIGN CHOICE, assumption 34] -/
def settleChannel (c : Cfg) (song : Song) (ch : Nat) (ed : ChannelEdit) (e : Engine) : Engine :=
  match ed with
  | .bars _ | .bar _ _ | .patterns _ | .pattern _ _ | .patternField _ _ => freeChannelTones ch e
  | .instruments _ => replaceSlots c song ch e
  | .instrument i _ => replaceSlot c (ch * song.instrumentsPerChannel + i) e
  | .instrumentField i f => settleInstrument c (ch * song.instrumentsPerChannel + i) f e
  | .octave _ | .muted _ => e

/-- Coherence after an edit of the whole list of channels: the patterns, the bars and the instruments of each are
edited with it (R381). [DESIGN CHOICE, assumption 34] -/
def settleChannels (c : Cfg) (song : Song) (e : Engine) : Engine :=
  (List.range song.channelCount).foldl (fun e ch => replaceSlots c song ch (freeChannelTones ch e)) e

/-- The clock of R380 step 6. [DESIGN CHOICE, assumption 5; DEDUCED, assumption 29] -/
def rewindClock (c : Cfg) (s : State) (song : Song) : Clock :=
  let spt := c.samplesPerTickOf s.sampleRate song.tempo
  { bar := 0
    beat := 0
    part := 0
    tick := 0
    tickSampleCountdown := if s.playing then spt else freeNum s.epoch .countdown []
    countdownSet := s.playing
    samplesPerTick := spt
    barsPassed := 0 }

/-- Steps (2) to (6) of R380. -/
def installSong (c : Cfg) (song : Song) (s : State) : State :=
  let e := clearSlots c song s.eng
  { s with
    song := song
    eng := { e with waves := invalidateWaves e.waves (fun _ => true), clock := rewindClock c s song } }

/-- An edit that passed the check (R381): a count field restarts as steps (3) to (6) of R380 do, and every other edit
is settled where it falls. -/
def installEdit (c : Cfg) (song : Song) (ed : SongEdit) (s : State) : State :=
  match ed with
  | .beatsPerBar _ | .barCount _ | .patternsPerChannel _ | .instrumentsPerChannel _ | .pitchChannelCount _
  | .noiseChannelCount _ =>
    let e := clearSlots c song s.eng
    { s with
      song := song
      eng := { e with waves := invalidateWaves e.waves (fun _ => true), clock := rewindClock c s song } }
  | .channels _ => { s with song := song, eng := settleChannels c song s.eng }
  | .channel ch f => { s with song := song, eng := settleChannel c song ch f s.eng }
  | _ => { s with song := song }

/-! Meanings. The value is taken from the payload port; where none is there yet the command has nothing to work on and
the step waits for it (`Step.lean`). -/

def songLoadWith (x : Ctx) (s : State) : State :=
  if s.fault then s
  else
    match s.payload with
    | [] => s
    | .song v :: rest =>
      if songAccepted x.cfg v then installSong x.cfg v { s with payload := rest }
      else raise ⟨.badConfig, x.info⟩ { s with payload := rest }
    | .edit _ :: rest => raise ⟨.badConfig, x.info⟩ { s with payload := rest }

def songSetWith (x : Ctx) (s : State) : State :=
  if s.fault then s
  else
    match s.payload with
    | [] => s
    | .edit ed :: rest =>
      (match editSong x.cfg.initialSong s.song ed with
      | some v =>
        if songAccepted x.cfg v then installEdit x.cfg v ed { s with payload := rest }
        else raise ⟨.badConfig, x.info⟩ { s with payload := rest }
      | none => raise ⟨.badConfig, x.info⟩ { s with payload := rest })
    | .song _ :: rest => raise ⟨.badConfig, x.info⟩ { s with payload := rest }

/-- `SONG.LOAD` (R380). -/
def execSongLoad (s : State) : Host.Outcome State Fault Refusal := .next (songLoadWith (s.ctx Config.cfg .songLoad) s)

/-- `SONG.SET` (R381). -/
def execSongSet (s : State) : Host.Outcome State Fault Refusal := .next (songSetWith (s.ctx Config.cfg .songSet) s)

end Sys2Proof.Machine
end

