-- ==== Sys2Proof/Machine/BitCodec.lean ====
section
/-! DEFINITION. The host's bit codec (`48_bit_codec.md`): the 64-symbol alphabet, MSB-first packing, fixed-width fields,
the long-tail code and the signed pitch interval. A bit writer is the list of the bits written; a bit reader is the
list of the bits not read yet. A read that fails answers how many bits were left at the offending character: none where
the bits run out. -/

namespace Sys2Proof.Machine

/-! Alphabet (R391). -/

/-- `sym(x)`. -/
def symbolOf (x : Nat) : Byte :=
  BitVec.ofNat 8
    (if x < 10 then 48 + x else if x < 36 then 87 + x else if x < 62 then 29 + x else if x = 62 then 45 else 95)

/-- `val(c)`; `.` reads as 62 (R391). -/
def symbolValue (ch : Byte) : Option Nat :=
  let n := ch.toNat
  if 48 ≤ n ∧ n ≤ 57 then some (n - 48)
  else if 97 ≤ n ∧ n ≤ 122 then some (n - 87)
  else if 65 ≤ n ∧ n ≤ 90 then some (n - 29)
  else if n = 45 ∨ n = 46 then some 62
  else if n = 95 then some 63
  else none

/-! Fixed-width fields (R393, R394). -/

/-- `BW.write(k, v)`: the low `k` bits of `v`, most significant first. -/
def writeBits : Nat → Nat → List Bool
  | 0, _ => []
  | k + 1, v => decide (v / 2 ^ k % 2 = 1) :: writeBits k v

/-- The first bit more significant than those after it. -/
def readBitsFrom (acc : Nat) : Nat → List Bool → Except Nat (Nat × List Bool)
  | 0, bits => .ok (acc, bits)
  | _ + 1, [] => .error 0
  | k + 1, b :: bits => readBitsFrom (acc * 2 + b.toNat) k bits

/-- `BR.read(k)`: fails where fewer than `k` bits are left, without reading any. -/
def readBits (k : Nat) (bits : List Bool) : Except Nat (Nat × List Bool) :=
  if bits.length < k then .error 0 else readBitsFrom 0 k bits

/-! Packing (R392). -/

/-- `encodeBase64`: groups of six bits, the last one padded with zeros; `fuel` bounds the groups. -/
def packBits : Nat → List Bool → List Byte
  | 0, _ => []
  | _ + 1, [] => []
  | fuel + 1, bits =>
    match readBitsFrom 0 6 (bits.take 6 ++ List.replicate (6 - bits.length) false) with
    | .ok (x, _) => symbolOf x :: packBits fuel (bits.drop 6)
    | .error _ => []

def encodeBase64 (bits : List Bool) : List Byte := packBits bits.length bits

/-- The bits of a list of symbol values. -/
def valueBits (values : List Nat) : List Bool := values.flatMap (writeBits 6)

/-- `decodeBase64`; none where a character has no value. -/
def decodeBase64 (text : List Byte) : Option (List Bool) := (text.mapM symbolValue).map valueBits

/-! The long-tail code (R395, R396). -/

/-- The loop of `writeLongTail`; the remainder falls in each turn, so `fuel` turns with `fuel` above it are enough. -/
def longTailFrom : Nat → Nat → Nat → List Bool
  | 0, _, _ => []
  | fuel + 1, w, r =>
    if 2 ^ w ≤ r then true :: longTailFrom fuel (w + 1) (r - 2 ^ w) else false :: writeBits w r

/-- `BW.writeLongTail(minValue, minBits, value)`; "if value < minValue: error" (R395). The least value is a natural number.
[DESIGN CHOICE, assumption 90] -/
def writeLongTail (minValue minBits value : Nat) : Option (List Bool) :=
  if value < minValue then none else some (longTailFrom (value - minValue + 1) minBits (value - minValue))

/-- The loop of `readLongTail`, one turn for each bit of the prefix. -/
def readLongTailFrom (w acc : Nat) : List Bool → Except Nat (Nat × List Bool)
  | [] => .error 0
  | true :: bits => readLongTailFrom (w + 1) (acc + 2 ^ w) bits
  | false :: bits => (readBits w bits).map (fun p => (acc + p.1, p.2))

/-- `BR.readLongTail(minValue, minBits)`. [DESIGN CHOICE, assumption 90] -/
def readLongTail (minValue minBits : Nat) (bits : List Bool) : Except Nat (Nat × List Bool) :=
  readLongTailFrom minBits minValue bits

/-! Named uses (R398). -/

def writePinCount (n : Nat) : Option (List Bool) := writeLongTail 1 0 n
def readPinCount (bits : List Bool) : Except Nat (Nat × List Bool) := readLongTail 1 0 bits
def writePartDuration (n : Nat) : Option (List Bool) := writeLongTail 1 3 n
def readPartDuration (bits : List Bool) : Except Nat (Nat × List Bool) := readLongTail 1 3 bits
def readLegacyPartDuration (bits : List Bool) : Except Nat (Nat × List Bool) := readLongTail 1 2 bits

/-! Signed pitch interval (R399); which sign bit is negative and the smallest magnitude are configuration. -/

/-- The smallest magnitude: at most 1, so that every interval but 0 has a code. [DESIGN CHOICE, assumption 74] -/
def intervalMin (k : CodecCfg) : Nat := min 1 k.pitchIntervalMinValue

/-- "an interval of 0 has no code and is never written" (R399). [DESIGN CHOICE, assumption 74] -/
def writePitchInterval (k : CodecCfg) (d : Int) : Option (List Bool) :=
  if d = 0 then none
  else (writeLongTail (intervalMin k) 3 d.natAbs).map (fun l => ((decide (d < 0)) == k.pitchIntervalSignNegative) :: l)

def readPitchInterval (k : CodecCfg) (bits : List Bool) : Except Nat (Int × List Bool) :=
  match bits with
  | [] => .error 0
  | b :: t =>
    (readLongTail (intervalMin k) 3 t).map (fun p =>
      (if b = k.pitchIntervalSignNegative then -(p.1 : Int) else p.1, p.2))

end Sys2Proof.Machine
end

