-- ==== Sys2Proof/Machine/TagShape.lean ====
section
/-! DEFINITION. The payload shapes of the tag records (`49_song_codec.md` R412 to R416): what a record's symbols are and
how they map to field values. The source gives the shapes of few tags; the rest is the configuration's `payloadShape`,
kept here to what R414 and R441 ask of it: in the latest version every legal field value is read back as it was written;
and a record of any other version can be read at all. A shape of the configuration that does not do so is replaced by a
plain one. -/

namespace Sys2Proof.Machine

/-! Errors and payload characters (R413, R440). -/

/-- `CodecError(tag, position)`: "no partial song is returned". [DESIGN CHOICE, assumption 49] -/
def codecFail (k : Codec) (tag : Option Byte) (position : Nat) : Codec := { k with status := .failed tag position }

/-- The values of the symbols at `pos`, `n` of them; a position where there is none, or a character without a value, is
the error's position (R413). -/
def symbolsAt (text : List Byte) (pos : Nat) : Nat → Except Nat (List Nat)
  | 0 => .ok []
  | n + 1 =>
    match text[pos]? with
    | none => .error pos
    | some ch =>
      match symbolValue ch with
      | none => .error pos
      | some v => (symbolsAt text (pos + 1) n).map (fun l => v :: l)

/-- `beforeK = (version < K)` (R415). [DEDUCED, assumption 50] -/
def beforeVersion (k : Codec) (v : Nat) : Bool := decide (k.version < v)

/-- The instrument that a record applies to, as channel and index. -/
def codecInstrument (k : Codec) (at' : Nat × Nat) : Option Instrument :=
  match k.song.channels[at'.1]? with
  | some ch => ch.instruments[at'.2]?
  | none => none

/-- "version, c, counts so far, cursor" (R413). -/
def shapeContext (k : Codec) : ShapeContext where
  version := k.version
  pitchChannels := k.song.pitchChannelCount
  noiseChannels := k.song.noiseChannelCount
  instrumentsPerChannel := k.song.instrumentsPerChannel
  patternsPerChannel := k.song.patternsPerChannel
  barCount := k.song.barCount
  cursorChannel := (k.cursor.map Prod.fst).getD 0
  cursorInstrument := (k.cursor.map Prod.snd).getD 0
  cursorKind := ((k.cursor.bind (codecInstrument k)).map Instrument.kind).getD 0

/-! Which tags the writer writes (R412, R442). -/

/-- Song-level tags; `o` is given a place behind `n`. -/
def plainSongTags : List Byte :=
  [0x6E#8, 0x73#8, 0x6B#8, 0x6C#8, 0x65#8, 0x74#8, 0x61#8, 0x67#8, 0x6A#8, 0x69#8, 0x72#8, 0x6F#8]

/-- The tags of an instrument behind its `T`: no `y`, `E` or `V`, which only older versions wrote. -/
def plainInstrumentTags (c : Cfg) : List Byte :=
  [0x76#8, 0x75#8, 0x71#8, 0x66#8] ++ (if c.codec.filterEnvelopeInF then [] else [0x7A#8]) ++
    [0x64#8, 0x43#8, 0x63#8, 0x68#8, 0x77#8, 0x41#8, 0x42#8, 0x46#8, 0x50#8, 0x51#8, 0x44#8, 0x47#8, 0x52#8, 0x4C#8,
      0x6D#8, 0x53#8, 0x48#8, 0x55#8, 0x57#8]

/-- Whether a list has the entries of another one, each as often. -/
def sameTags (l m : List Byte) : Bool := l.length == m.length && m.all (fun t => l.count t == m.count t)

/-- "in a fixed canonical order" (R442), which is not listed in the source: any order of the song-level tags in which
`o` follows the tag that sets its count (R413). [DESIGN CHOICE, assumption 48] -/
def songTags (c : Cfg) : List Byte :=
  let l := c.codec.songTagOrder
  if sameTags l plainSongTags && decide (l.idxOf 0x6E#8 < l.idxOf 0x6F#8) then l else plainSongTags

/-- The tags of an instrument in the writer's order, which is not listed in the source either.
[DESIGN CHOICE, assumption 48] -/
def instrumentTags (c : Cfg) : List Byte :=
  let l := c.codec.instrumentTagOrder
  if sameTags l (plainInstrumentTags c) then l else plainInstrumentTags c

/-- The tags that set fields of the song; `m` is one of them before version 7 (R434). -/
def songLevelTags : List Byte :=
  [0x61#8, 0x65#8, 0x67#8, 0x69#8, 0x6A#8, 0x6B#8, 0x6C#8, 0x6D#8, 0x6E#8, 0x70#8, 0x72#8, 0x73#8, 0x74#8]

/-- Whether a record's payload begins with the channel it applies to (R416). -/
def namesChannel (x : ShapeContext) (tag : Byte) : Bool := decide (x.version < 3) && !songLevelTags.contains tag

/-- The tag whose record of a drumset ends with its twelve envelopes: one of the records with a shape (R427).
[DESIGN CHOICE, assumption 51] -/
def drumTag (c : Cfg) : Byte :=
  let t := c.codec.drumEnvelopeTag
  if t = 0x54#8 ∨ ((plainInstrumentTags c).contains t ∧ t ≠ 0x53#8 ∧ t ≠ 0x48#8) then t else 0x76#8

/-- Whether a record of the instrument at the cursor carries drum envelopes. -/
def carriesDrums (c : Cfg) (x : ShapeContext) (tag : Byte) : Bool :=
  tag == drumTag c && tag != 0x54#8 && x.cursorKind == kindDrumset

/-- The tag that carries the operators' envelopes of a version behind its own values: in the latest version `P` or `Q`,
"the source does not say which" (R436). [DESIGN CHOICE, assumption 51] -/
def operatorEnvelopeTag (c : Cfg) (version : Nat) : Option Byte :=
  match c.codec.operatorEnvelopesIn version with
  | 1 => some 0x50#8
  | 2 => some 0x51#8
  | _ => if version = latestVersion then some 0x50#8 else none

/-- Whether `B` carries the feedback envelope (R436): in the latest version it does. [DESIGN CHOICE, assumption 51] -/
def feedbackEnvelopePacked (c : Cfg) (version : Nat) : Bool :=
  version == latestVersion || c.codec.feedbackEnvelopeInB version

/-- Whether `f` carries `filterEnvelope` behind the control points. [DESIGN CHOICE, assumption 51] -/
def filterEnvelopePacked (c : Cfg) (version : Nat) : Bool := version == latestVersion && c.codec.filterEnvelopeInF

/-! The fields of a record. -/

/-- Field values that every song may have, without a leading channel and drum envelopes: indices and settings 0, settings
that start at 1 there, no control points. [DESIGN CHOICE, assumption 48] -/
def plainOwn (c : Cfg) (x : ShapeContext) (tag : Byte) : List Nat :=
  match tag.toNat with
  | 0x61 | 0x67 | 0x74 => [1]
  | 0x62 | 0x47 | 0x48 | 0x53 | 0x70 => []
  | 0x66 => if x.version = latestVersion then (if c.codec.filterEnvelopeInF then [0] else []) else [0]
  | 0x6F => if x.version < 3 then [0] else List.replicate (x.pitchChannels + x.noiseChannels) 0
  | 0x45 => List.replicate operatorCount 0
  | 0x50 | 0x51 =>
    List.replicate operatorCount 0
      ++ (if operatorEnvelopeTag c x.version = some tag then List.replicate operatorCount 0 else [])
  | 0x42 => 0 :: (if feedbackEnvelopePacked c x.version then [0] else [])
  | 0x6E | 0x52 | 0x57 => [0, 0]
  | _ => [0]

/-- The plain values of a record, all of them. [DESIGN CHOICE, assumption 48] -/
def plainValues (c : Cfg) (x : ShapeContext) (tag : Byte) : List Nat :=
  (if namesChannel x tag then [0] else []) ++ plainOwn c x tag
    ++ (if carriesDrums c x tag then List.replicate drumCount 0 else [])

/-- The numbers from `lo` to `hi`. -/
def ranged (lo hi : Nat) : List Nat := (List.range (hi + 1)).drop lo

/-- Every way to take one number of each list. -/
def choices : List (List Nat) → List (List Nat)
  | [] => [[]]
  | l :: t => l.flatMap (fun v => (choices t).map (fun r => v :: r))

/-- Every list of at most `n` control points, as values. -/
def pointLists (c : Cfg) : Nat → List (List Nat)
  | 0 => [[]]
  | n + 1 => pointLists c n ++
      choices (List.replicate (n + 1) [List.range 3, List.range c.filterFreqRange, List.range c.filterGainRange]).flatten

/-- The legal values of each field of a record of the latest version (R47 to R52, R412). -/
def fieldRanges (c : Cfg) (x : ShapeContext) (tag : Byte) : List (List Nat) :=
  let r := c.ranges
  let envelope := List.range c.envelopes.length
  match tag.toNat with
  | 0x61 => [ranged 1 c.beatsPerBarMax]
  | 0x63 => [List.range c.vibratos.length]
  | 0x64 => [List.range c.transitions.length]
  | 0x65 => [List.range c.barCountMax]
  | 0x67 => [ranged 1 c.barCountMax]
  | 0x68 => [List.range c.intervals.length]
  | 0x69 => [ranged 0 r.instrumentsPerChannel]
  | 0x6A => [ranged 0 r.patternsPerChannel]
  | 0x6B => [List.range c.keyCount]
  | 0x6C => [List.range c.barCountMax]
  | 0x6D => [List.range c.reverbRange]
  | 0x6E => [ranged 0 r.pitchChannelCount, ranged 0 r.noiseChannelCount]
  | 0x6F => List.replicate (x.pitchChannels + x.noiseChannels) (ranged 0 r.octave)
  | 0x71 => [List.range (2 ^ 5)]
  | 0x72 => [List.range c.rhythmCount]
  | 0x73 => [List.range c.scaleCount]
  | 0x74 => [ranged 1 c.tempoMax]
  | 0x75 => [List.range c.presetCount]
  | 0x76 => [ranged 0 r.volume]
  | 0x77 => [List.range (if x.cursorKind = kindNoise then c.noiseWaveCount else c.chipWaves.length)]
  | 0x7A => [envelope]
  | 0x41 => [List.range c.algorithms.length]
  | 0x42 => [ranged 0 r.feedbackAmplitude, envelope]
  | 0x43 => [List.range c.chords.length]
  | 0x44 => [List.range c.distortionRange]
  | 0x46 => [List.range c.feedbacks.length]
  | 0x4C => [ranged 0 c.panMax]
  | 0x50 => List.replicate operatorCount (ranged 0 r.operatorAmplitude)
      ++ (if operatorEnvelopeTag c latestVersion = some tag then List.replicate operatorCount envelope else [])
  | 0x51 => List.replicate operatorCount (ranged 0 r.operatorFrequency)
      ++ (if operatorEnvelopeTag c latestVersion = some tag then List.replicate operatorCount envelope else [])
  | 0x52 => [ranged 0 r.bitcrusherFreq, ranged 0 r.bitcrusherQuantization]
  | 0x55 => [ranged 0 r.sustain]
  | 0x57 => [ranged 0 r.pulseWidth, envelope]
  | _ => []

/-- Twelve envelopes. -/
def drumChoices (c : Cfg) : List (List Nat) := choices (List.replicate drumCount (List.range c.envelopes.length))

/-- The legal values of a record of the latest version, without drum envelopes. -/
def ownValues (c : Cfg) (x : ShapeContext) (tag : Byte) : List (List Nat) :=
  match tag.toNat with
  | 0x66 =>
    if c.codec.filterEnvelopeInF then
      (pointLists c c.filterMaxPoints).flatMap (fun l => (List.range c.envelopes.length).map (fun e => l ++ [e]))
    else pointLists c c.filterMaxPoints
  | 0x47 => pointLists c c.filterMaxPoints
  | _ => choices (fieldRanges c x tag)

/-- The legal field values of a record of the latest version. -/
def legalValues (c : Cfg) (x : ShapeContext) (tag : Byte) : List (List Nat) :=
  if tag = 0x54#8 then
    (List.range 8).flatMap (fun kind =>
      if kind = kindDrumset ∧ drumTag c = tag then (drumChoices c).map (fun d => kind :: d) else [[kind]])
  else if carriesDrums c x tag then (ownValues c x tag).flatMap (fun l => (drumChoices c).map (fun d => l ++ d))
  else ownValues c x tag

/-- Whether the writer of the latest version writes a record with a shape under this tag. -/
def hasShape (c : Cfg) (tag : Byte) : Bool :=
  tag == 0x54#8 || plainSongTags.contains tag ||
    ((plainInstrumentTags c).contains tag && tag != 0x53#8 && tag != 0x48#8)

/-- How many entries the table of each of a record's first own values has; none where a value is a number. -/
def indexTops (c : Cfg) (x : ShapeContext) (tag : Byte) : List (Option Nat) :=
  let envelope : Option Nat := some c.envelopes.length
  let row : List (Option Nat) :=
    List.replicate operatorCount none
      ++ (if operatorEnvelopeTag c x.version = some tag then List.replicate operatorCount envelope else [])
  match tag.toNat with
  | 0x63 => [some c.vibratos.length]
  | 0x64 => [some c.transitions.length]
  | 0x68 => [some c.intervals.length]
  | 0x6B => [some c.keyCount]
  | 0x72 => [some c.rhythmCount]
  | 0x73 => [some c.scaleCount]
  | 0x75 => [some c.presetCount]
  | 0x77 => [some (if x.cursorKind = kindNoise then c.noiseWaveCount else c.chipWaves.length)]
  | 0x7A | 0x56 => [envelope]
  | 0x41 => [some c.algorithms.length]
  | 0x42 | 0x57 => [none, envelope]
  | 0x43 => [some c.chords.length]
  | 0x45 => List.replicate operatorCount envelope
  | 0x46 => [some c.feedbacks.length]
  | 0x50 | 0x51 => row
  | 0x54 => [some 8]
  | _ => []

/-- Whether values lie inside the tables that they are indices of. -/
def withinTops : List (Option Nat) → List Nat → Bool
  | some n :: ts, v :: vs => decide (v < n) && withinTops ts vs
  | none :: ts, _ :: vs => withinTops ts vs
  | _, _ => true

/-- Whether a record of these values names entries that its tables have (R440). [DESIGN CHOICE, assumption 48] -/
def indicesLegal (c : Cfg) (x : ShapeContext) (tag : Byte) (values : List Nat) : Bool :=
  withinTops (indexTops c x tag) (if namesChannel x tag then values.drop 1 else values)

/-! Shapes. -/

/-- A payload shape: where a payload ends, how many symbols it has at most, its field values, and the symbol at which a
field stands. -/
structure TagShape where
  complete : List Nat → Bool
  longest : Nat
  values : List Nat → List Nat
  offset : List Nat → Nat → Nat

/-- A list of at least `n` values. [DESIGN CHOICE, assumption 48] -/
def atLeast (n : Nat) (l : List Nat) : List Nat := l ++ List.replicate (n - l.length) 0

/-- The configuration's shape; a mapping that gives a tag fewer values than it has fields is completed with zeros.
[DESIGN CHOICE, assumption 48] -/
def configuredShape (c : Cfg) (x : ShapeContext) (tag : Byte) : TagShape where
  complete := c.codec.payloadComplete x tag
  longest := c.codec.payloadLongest x tag
  values := fun symbols => atLeast (plainValues c x tag).length (c.codec.payloadValues x tag symbols)
  offset := c.codec.payloadOffset x tag

/-- The symbols that the configuration's writer gives. -/
def configuredSymbols (c : Cfg) (x : ShapeContext) (tag : Byte) (values : List Nat) : List Nat :=
  (c.codec.payloadSymbols x tag values).map (min 63)

/-- Whether the configuration's shape reads back what its writer writes for these values, whatever follows. -/
def carries (c : Cfg) (x : ShapeContext) (tag : Byte) (values : List Nat) : Bool :=
  let s := configuredSymbols c x tag values
  let shape := configuredShape c x tag
  decide (s.length ≤ shape.longest)
    && (List.range s.length).all (fun n => !shape.complete (s.take n))
    && (shape.complete s || s.length == shape.longest)
    && shape.values s == values

/-- Whether some payload, of at most `fuel` symbols behind `seen`, ends there and is a good one. -/
def somePayload (complete good : List Nat → Bool) : Nat → List Nat → Bool
  | 0, seen => good seen
  | fuel + 1, seen =>
    if complete seen then good seen else (List.range 64).any (fun d => somePayload complete good fuel (seen ++ [d]))

/-- Whether the configuration's shape has a payload at all whose indices lie inside their tables.
[DESIGN CHOICE, assumption 48] -/
def readsSome (c : Cfg) (x : ShapeContext) (tag : Byte) : Bool :=
  let shape := configuredShape c x tag
  somePayload shape.complete (fun l => indicesLegal c x tag (shape.values l)) shape.longest []

/-- Whether the configuration's shape is one: "for the latest version it must be injective on legal field values, so that
`decode(encode(S)) = S`" (R414); a record that is only read must be readable at all. [DESIGN CHOICE, assumption 48] -/
def faithful (c : Cfg) (x : ShapeContext) (tag : Byte) : Bool :=
  if x.version = latestVersion ∧ hasShape c tag then (legalValues c x tag).all (carries c x tag) else readsSome c x tag

/-- A number in symbols of five bits, the least significant first, each but the last marked; `fuel` bounds them. -/
def writeNumber : Nat → Nat → List Nat
  | 0, _ => []
  | fuel + 1, n => if n < 32 then [n] else (32 + n % 32) :: writeNumber fuel (n / 32)

def readNumberSymbols : List Nat → Option (Nat × List Nat)
  | [] => none
  | d :: t => if d < 32 then some (d, t) else (readNumberSymbols t).map (fun p => (d - 32 + 32 * p.1, p.2))

def readNumbers : Nat → List Nat → Option (List Nat × List Nat)
  | 0, l => some ([], l)
  | n + 1, l =>
    match readNumberSymbols l with
    | none => none
    | some (v, t) => (readNumbers n t).map (fun p => (v :: p.1, p.2))

/-- How many symbols the first `n` numbers take. -/
def numbersLength : Nat → List Nat → Nat
  | 0, _ => 0
  | _ + 1, [] => 0
  | n + 1, d :: t => 1 + numbersLength (if d < 32 then n else n + 1) t

/-- The plain payload: how many values there are, and the values. -/
def plainSymbols (values : List Nat) : List Nat :=
  (values.length :: values).flatMap (fun v => writeNumber (v + 1) v)

def readPlain (symbols : List Nat) : Option (List Nat × List Nat) :=
  match readNumberSymbols symbols with
  | none => none
  | some (n, t) => readNumbers n t

/-- The plain shape; a payload of it ends before the text does. -/
def plainShape (textLength : Nat) : TagShape where
  complete := fun symbols =>
    match readPlain symbols with
    | some (_, []) => true
    | _ => false
  longest := textLength + 1
  values := fun symbols => ((readPlain symbols).map Prod.fst).getD []
  offset := fun symbols j => numbersLength (j + 1) symbols

/-- The shape of a record (R413, R414). [DESIGN CHOICE, assumption 48] -/
def tagShape (c : Cfg) (x : ShapeContext) (tag : Byte) (textLength : Nat) : TagShape :=
  if faithful c x tag then configuredShape c x tag else plainShape textLength

/-- The symbols that the writer writes for the values of a record. [DESIGN CHOICE, assumption 48] -/
def tagSymbols (c : Cfg) (x : ShapeContext) (tag : Byte) (values : List Nat) : List Nat :=
  if faithful c x tag then configuredSymbols c x tag values else plainSymbols values

/-! Reading a payload. -/

/-- The symbols from `pos` on up to the end of the payload, at most `fuel` more than `seen`. -/
def symbolsUntil (text : List Byte) (complete : List Nat → Bool) : Nat → Nat → List Nat → Except Nat (List Nat × Nat)
  | 0, pos, seen => .ok (seen, pos)
  | fuel + 1, pos, seen =>
    if complete seen then .ok (seen, pos)
    else
      match text[pos]? with
      | none => .error pos
      | some ch =>
        match symbolValue ch with
        | none => .error pos
        | some v => symbolsUntil text complete fuel (pos + 1) (seen ++ [v])

/-- The symbols of the payload of the tag at the codec's position, and the position behind it. -/
def payloadText (c : Cfg) (k : Codec) (tag : Byte) : Except Nat (List Nat × Nat) :=
  let shape := tagShape c (shapeContext k) tag k.text.length
  symbolsUntil k.text shape.complete shape.longest (k.pos + 1) []

/-- The payload of the tag at the codec's position: its field values, and the position behind it.
[DESIGN CHOICE, assumption 48] -/
def payload (c : Cfg) (k : Codec) (tag : Byte) : Except Nat (List Nat × Nat) :=
  (payloadText c k tag).map (fun p => ((tagShape c (shapeContext k) tag k.text.length).values p.1, p.2))

/-- Where field `j` of the payload stands: "the 0-based index in the input string of the offending character" (R440).
[DESIGN CHOICE, assumption 49] -/
def fieldPosition (c : Cfg) (k : Codec) (tag : Byte) (j : Nat) : Nat :=
  match payloadText c k tag with
  | .error e => e
  | .ok (symbols, _) =>
    k.pos + 1 + min (symbols.length - 1) ((tagShape c (shapeContext k) tag k.text.length).offset symbols j)

end Sys2Proof.Machine
end

