-- ==== Sys2Proof/Machine/SongCodec.lean ====
section
/-! DEFINITION. The host's song codec (`49_song_codec.md`): framing, payloads, the pattern bit-stream both ways, the
legacy forks, normalisation and the encoder. What a tag sets is in `Tags.lean`. -/

namespace Sys2Proof.Machine

/-- The instrument of the song at a place, changed. -/
def modifyInstrument (song : Song) (at' : Nat × Nat) (f : Instrument → Instrument) : Song :=
  { song with channels := song.channels.modify at'.1 (fun ch => { ch with instruments := ch.instruments.modify at'.2 f }) }

/-- The channel of the song at a place, changed; a place without a channel changes nothing.
[DESIGN CHOICE, assumption 82] -/
def modifyChannel (song : Song) (c : Nat) (f : Channel → Channel) : Song :=
  { song with channels := song.channels.modify c f }

/-! Widths (R420, R426). -/

/-- "the least `k ≥ 0` with `2^k ≥ n`". -/
def bitsFor (n : Nat) : Nat := if n ≤ 1 then 0 else Nat.log2 (n - 1) + 1

/-- The width of a control point of `S` (R427): the configuration's, or what the range of R50 needs where that is more, so
that a legal point is read as it was written (R441). [DESIGN CHOICE, assumption 48] -/
def spectrumPointWidth (c : Cfg) : Nat :=
  max c.codec.spectrumControlPointBits (bitsFor (c.ranges.spectrumControl + 1))

/-- The width of a control point of `H`, by the same rule. [DESIGN CHOICE, assumption 48] -/
def harmonicsPointWidth (c : Cfg) : Nat :=
  max c.codec.harmonicsControlPointBits (bitsFor (c.ranges.harmonicsControl + 1))

/-- A list of `n` fields of `k` bits. -/
def readFields (k : Nat) : Nat → List Bool → Except Nat (List Nat × List Bool)
  | 0, bits => .ok ([], bits)
  | n + 1, bits =>
    match readBits k bits with
    | .error e => .error e
    | .ok (v, rest) => (readFields k n rest).map (fun p => (v :: p.1, p.2))

/-! Shapes (R422, R423). -/

/-- A pin after the first: its bend flag, the time since the previous pin, its expression. -/
structure ShapePin where
  bend : Bool
  duration : Nat
  expression : Nat
deriving DecidableEq, Repr

/-- A note's shape; two are identical when all components are equal. -/
structure Shape where
  size : Nat
  expression : Nat
  pins : List ShapePin
deriving DecidableEq, Repr

/-- Truncated unary: `n` is how far the size may still grow. -/
def readSize (size : Nat) : Nat → List Bool → Except Nat (Nat × List Bool)
  | 0, bits => .ok (size, bits)
  | _ + 1, [] => .error 0
  | n + 1, b :: bits => if b then readSize (size + 1) n bits else .ok (size, bits)

def readDuration (legacy : Bool) (bits : List Bool) : Except Nat (Nat × List Bool) :=
  if legacy then readLegacyPartDuration bits else readPartDuration bits

def readShapePins (legacy : Bool) : Nat → List Bool → Except Nat (List ShapePin × List Bool)
  | 0, bits => .ok ([], bits)
  | n + 1, bits =>
    match readBits 1 bits with
    | .error e => .error e
    | .ok (bend, b1) =>
      match readDuration legacy b1 with
      | .error e => .error e
      | .ok (dur, b2) =>
        match readBits 2 b2 with
        | .error e => .error e
        | .ok (ex, b3) => (readShapePins legacy n b3).map (fun p => (⟨decide (bend = 1), dur, ex⟩ :: p.1, p.2))

/-- R422; the number of pins read is kept below the bits left, since each pin takes at least one.
[DESIGN CHOICE, assumption 54] -/
def readShape (c : Cfg) (legacy : Bool) (bits : List Bool) : Except Nat (Shape × List Bool) :=
  match readSize 1 (c.maxChordSize - 1) bits with
  | .error e => .error e
  | .ok (size, b1) =>
    match readPinCount b1 with
    | .error e => .error e
    | .ok (count, b2) =>
      match readBits 2 b2 with
      | .error e => .error e
      | .ok (ex, b3) => (readShapePins legacy count b3).map (fun p => (⟨size, ex, p.1⟩, p.2))

def writeShapePins : List ShapePin → Option (List Bool)
  | [] => some []
  | p :: t =>
    match writePartDuration p.duration, writeShapePins t with
    | some d, some rest => some (p.bend :: d ++ writeBits 2 p.expression ++ rest)
    | _, _ => none

/-- A shape's bits; none where a number has no code. -/
def writeShape (c : Cfg) (s : Shape) : Option (List Bool) :=
  match writePinCount s.pins.length, writeShapePins s.pins with
  | some count, some pins =>
    some (List.replicate (s.size - 1) true ++ (if s.size < c.maxChordSize then [false] else [])
      ++ count ++ writeBits 2 s.expression ++ pins)
  | _, _ => none

/-- Insert at the front of a move-to-front list of at most `limit` entries (R423, R424). -/
def pushFront {α : Type} (limit : Nat) (v : α) (l : List α) : List α := (v :: l).take limit

/-! Pitches (R424). -/

/-- The pitch history of a channel. -/
structure PitchHistory where
  last : Nat
  recent : List Nat
deriving DecidableEq, Repr

/-- `|d|` steps from a pitch, up or down, counting only pitches that are not recent; `fuel` bounds the steps. -/
def stepPitch (recent : List Nat) (up : Bool) : Nat → Nat → Int → Int
  | 0, _, x => x
  | _ + 1, 0, x => x
  | fuel + 1, d + 1, x =>
    let y := if up then x + 1 else x - 1
    stepPitch recent up fuel (if 0 ≤ y ∧ recent.contains y.toNat then d + 1 else d) y

/-- One pitch (R424); one outside the channel's legal range is malformed. -/
def readPitch (k : CodecCfg) (top : Nat) (h : PitchHistory) (bits : List Bool) :
    Except Nat (Nat × PitchHistory × List Bool) :=
  match readBits 1 bits with
  | .error e => .error e
  | .ok (1, b1) =>
    (match readBits 3 b1 with
    | .error e => .error e
    | .ok (i, b2) =>
      match h.recent[i]? with
      | none => .error (b2.length + 1)
      | some x =>
        if x ≤ top then .ok (x, ⟨x, pushFront recentPitches x (h.recent.eraseIdx i)⟩, b2) else .error (b2.length + 1))
  | .ok (_, b1) =>
    match readPitchInterval k b1 with
    | .error e => .error e
    | .ok (d, b2) =>
      let x := stepPitch h.recent (decide (0 < d)) (d.natAbs + h.recent.length) d.natAbs h.last
      if 0 ≤ x ∧ x ≤ (top : Int) then .ok (x.toNat, ⟨x.toNat, pushFront recentPitches x.toNat h.recent⟩, b2)
      else .error (b2.length + 1)

def readPitches (k : CodecCfg) (top : Nat) : Nat → PitchHistory → List Bool →
    Except Nat (List Nat × PitchHistory × List Bool)
  | 0, h, bits => .ok ([], h, bits)
  | n + 1, h, bits =>
    match readPitch k top h bits with
    | .error e => .error e
    | .ok (x, h', rest) => (readPitches k top n h' rest).map (fun p => (x :: p.1, p.2))

/-- The count that a pitch interval carries: the pitches strictly between and the pitch itself that are not recent. -/
def pitchDistance (recent : List Nat) (from' x : Nat) : Int :=
  if from' < x then ((List.range (x - from')).filter (fun i => !recent.contains (from' + 1 + i))).length
  else -(((List.range (from' - x)).filter (fun i => !recent.contains (x + i))).length : Int)

def writePitch (k : CodecCfg) (h : PitchHistory) (x : Nat) : Option (List Bool × PitchHistory) :=
  match h.recent.findIdx? (· == x) with
  | some i => some (true :: writeBits 3 i, ⟨x, pushFront recentPitches x (h.recent.eraseIdx i)⟩)
  | none =>
    (writePitchInterval k (pitchDistance h.recent h.last x)).map (fun l =>
      (false :: l, ⟨x, pushFront recentPitches x h.recent⟩))

def writePitches (k : CodecCfg) (h : PitchHistory) : List Nat → Option (List Bool × PitchHistory)
  | [] => some ([], h)
  | x :: xs =>
    match writePitch k h x with
    | none => none
    | some a => (writePitches k a.2 xs).map (fun b => (a.1 ++ b.1, b.2))

/-! The code of a recent-shape index (R421). -/

/-- Whether no codeword of an index below 10 begins another one. -/
def prefixFree (code : Nat → List Bool) : Bool :=
  (List.range recentShapes).all (fun i => (List.range recentShapes).all (fun j => i == j || !(code i).isPrefixOf (code j)))

/-- The codeword of an index: "any prefix-free code of `0 .. 9`"; a code of the configuration that is none is replaced
by the long-tail code `(0, 0)`. [DESIGN CHOICE, assumption 54] -/
def shapeIndexCode (k : CodecCfg) (i : Nat) : List Bool :=
  if prefixFree k.writeShapeIndex then k.writeShapeIndex i else longTailFrom (i + 1) 0 i

/-- The index whose codeword the bits begin with, and the bits behind it. -/
def readShapeIndex (k : CodecCfg) (bits : List Bool) : Option (Nat × List Bool) :=
  ((List.range recentShapes).find? (fun i => (shapeIndexCode k i).isPrefixOf bits)).map (fun i =>
    (i, bits.drop (shapeIndexCode k i).length))

/-! Notes (R421, R425). -/

/-- Pins after the first: time, interval and the bend pitches not used yet. -/
def buildPins (base : Nat) (time : Nat) (interval : Int) : List ShapePin → List Nat → List Pin
  | [], _ => []
  | p :: ps, bends =>
    let t := time + p.duration
    match p.bend, bends with
    | true, x :: xs =>
      ⟨t, (x : Int) - base, p.expression⟩ :: buildPins base t ((x : Int) - base) ps xs
    | _, _ => ⟨t, interval, p.expression⟩ :: buildPins base t interval ps bends

def shapeLength (s : Shape) : Nat := (s.pins.map ShapePin.duration).foldl (· + ·) 0

/-- What the pattern reader carries along a channel (R420). -/
structure PatternReader where
  shapes : List Shape
  pitches : PitchHistory
deriving DecidableEq, Repr

/-- The pitches of a note of a shape, and the note (R424, R425). -/
def readNote (c : Cfg) (top barParts curPart : Nat) (shape : Shape) (st : PatternReader) (bits : List Bool) :
    Except Nat (Note × PatternReader × List Bool) :=
  match readPitches c.codec top shape.size st.pitches bits with
  | .error e => .error e
  | .ok (chord, h1, b1) =>
    let h2 : PitchHistory := { h1 with last := chord.headD h1.last }
    match readPitches c.codec top (shape.pins.filter ShapePin.bend).length h2 b1 with
    | .error e => .error e
    | .ok (bends, h3, b2) =>
      let stop := curPart + shapeLength shape
      if barParts < stop then .error (b2.length + 1)
      else
        .ok (⟨curPart, stop, chord, ⟨0, 0, shape.expression⟩ :: buildPins (chord.headD 0) 0 0 shape.pins bends⟩,
          { st with pitches := h3 }, b2)

/-- Walking a pattern (R421): each turn moves `curPart` on by at least one part, so `fuel = barParts` is enough. -/
def readNotes (c : Cfg) (legacy : Bool) (top barParts : Nat) : Nat → Nat → PatternReader → List Bool →
    Except Nat (List Note × PatternReader × List Bool)
  | 0, _, st, bits => .ok ([], st, bits)
  | fuel + 1, curPart, st, bits =>
    if barParts ≤ curPart then .ok ([], st, bits)
    else
      let note (shape : Shape) (shapes : List Shape) (b : List Bool) :=
        match readNote c top barParts curPart shape { st with shapes := shapes } b with
        | .error e => .error e
        | .ok (n, st', b') =>
          (readNotes c legacy top barParts fuel n.stop st' b').map (fun p => (n :: p.1, p.2))
      match bits with
      | false :: false :: b =>
        (match readDuration legacy b with
        | .error e => .error e
        | .ok (d, b') => readNotes c legacy top barParts fuel (curPart + d) st b')
      | false :: true :: b =>
        (match readShape c legacy b with
        | .error e => .error e
        | .ok (shape, b') => note shape (pushFront recentShapes shape st.shapes) b')
      | true :: true :: b =>
        (match readShapeIndex c.codec b with
        | none => .error b.length
        | some (i, b') =>
          match st.shapes[i]? with
          | none => .error (b'.length + 1)
          | some shape => note shape (pushFront recentShapes shape (st.shapes.eraseIdx i)) b')
      | true :: false :: b => .error (b.length + 1)
      | _ => .error 0

/-- The patterns of a channel (R420). -/
def readPatterns (c : Cfg) (legacy : Bool) (top barParts instrumentBits : Nat) : Nat → PatternReader → List Bool →
    Except Nat (List Pattern × List Bool)
  | 0, _, bits => .ok ([], bits)
  | n + 1, st, bits =>
    match readBits instrumentBits bits with
    | .error e => .error e
    | .ok (ins, b1) =>
      match readBits 1 b1 with
      | .error e => .error e
      | .ok (has, b2) =>
        match (if has = 1 then readNotes c legacy top barParts barParts 0 st b2 else .ok ([], st, b2)) with
        | .error e => .error e
        | .ok (notes, st', b3) =>
          (readPatterns c legacy top barParts instrumentBits n st' b3).map (fun p => (⟨ins, notes⟩ :: p.1, p.2))

/-- The highest pitch of a channel by its place in the list. -/
def topPitch (c : Cfg) (song : Song) (channel : Nat) : Nat :=
  if channel < song.pitchChannelCount then c.ranges.pitchChannelPitch else c.ranges.noiseChannelPitch

/-- The lists of a channel before its first pattern (R423, R424); `lastPitch` is in the recent list from the start, as
"a repeated pitch is always in the recent-pitch list" (R399) asks.
[DESIGN CHOICE, assumption 54; DEDUCED, assumption 72] -/
def freshReader (c : Cfg) (song : Song) (channel : Nat) (ch : Channel) : PatternReader :=
  let pitch := decide (channel < song.pitchChannelCount)
  let last := c.codec.initialLastPitch pitch ch.octave
  let recent := (c.codec.initialRecentPitches pitch ch.octave).take recentPitches
  ⟨[], ⟨last, if recent.contains last then recent else pushFront recentPitches last recent⟩⟩

/-- The patterns of every channel (R420). -/
def readChannels (c : Cfg) (legacy : Bool) (song : Song) : Nat → List Channel → List Bool →
    Except Nat (List Channel × List Bool)
  | _, [], bits => .ok ([], bits)
  | i, ch :: rest, bits =>
    match readPatterns c legacy (topPitch c song i) (song.beatsPerBar * c.partsPerBeat)
        (bitsFor song.instrumentsPerChannel) song.patternsPerChannel (freshReader c song i ch) bits with
    | .error e => .error e
    | .ok (ps, b) => (readChannels c legacy song (i + 1) rest b).map (fun p => ({ ch with patterns := ps } :: p.1, p.2))

/-! The pattern writer. -/

/-- The pins after the first as a shape's pins; a pin bends where its interval differs from the one before. -/
def shapePins : Pin → List Pin → List ShapePin
  | _, [] => []
  | p, q :: t => ⟨decide (q.interval ≠ p.interval), q.time - p.time, q.expression⟩ :: shapePins q t

def shapeOfNote (n : Note) : Shape :=
  match n.pins with
  | [] => ⟨n.pitches.length, 0, []⟩
  | p :: t => ⟨n.pitches.length, p.expression, shapePins p t⟩

/-- "one pitch for every pin with `bend[j] = 1`, … that pitch being `pitches[0] + pins[j].interval`" (R424). -/
def bendPitches (base : Nat) : Pin → List Pin → List Nat
  | _, [] => []
  | p, q :: t =>
    if q.interval ≠ p.interval then ((base : Int) + q.interval).toNat :: bendPitches base q t else bendPitches base q t

/-- A note's bits, and the lists after it; none where a number has no code. -/
def writeNote (c : Cfg) (n : Note) (st : PatternReader) : Option (List Bool × PatternReader) :=
  let shape := shapeOfNote n
  let head : Option (List Bool × List Shape) := match st.shapes.findIdx? (· == shape) with
    | some i => some (true :: true :: shapeIndexCode c.codec i, pushFront recentShapes shape (st.shapes.eraseIdx i))
    | none => (writeShape c shape).map (fun l => (false :: true :: l, pushFront recentShapes shape st.shapes))
  let bent := match n.pins with
    | [] => []
    | p :: t => bendPitches (n.pitches.headD 0) p t
  match head, writePitches c.codec st.pitches n.pitches with
  | some h, some chord =>
    (writePitches c.codec { chord.2 with last := n.pitches.headD chord.2.last } bent).map (fun bends =>
      (h.1 ++ chord.1 ++ bends.1, ⟨h.2, bends.2⟩))
  | _, _ => none

/-- A rest; "it never writes a rest of duration 0". -/
def writeRest (d : Nat) : Option (List Bool) :=
  if d = 0 then some [] else (writePartDuration d).map (fun l => false :: false :: l)

def writeNotes (c : Cfg) (barParts : Nat) : Nat → List Note → PatternReader → Option (List Bool × PatternReader)
  | curPart, [], st => (writeRest (barParts - curPart)).map (fun l => (l, st))
  | curPart, n :: t, st =>
    match writeRest (n.start - curPart), writeNote c n st with
    | some rest, some a => (writeNotes c barParts n.stop t a.2).map (fun b => (rest ++ a.1 ++ b.1, b.2))
    | _, _ => none

def writePatterns (c : Cfg) (barParts instrumentBits : Nat) : List Pattern → PatternReader → Option (List Bool)
  | [], _ => some []
  | p :: t, st =>
    let head := writeBits instrumentBits p.instrument
    match p.notes with
    | [] => (writePatterns c barParts instrumentBits t st).map (fun l => head ++ false :: l)
    | notes =>
      match writeNotes c barParts 0 notes st with
      | none => none
      | some a => (writePatterns c barParts instrumentBits t a.2).map (fun l => head ++ true :: a.1 ++ l)

def writeChannels (c : Cfg) (song : Song) : Nat → List Channel → Option (List Bool)
  | _, [] => some []
  | i, ch :: t =>
    match writePatterns c (song.beatsPerBar * c.partsPerBeat) (bitsFor song.instrumentsPerChannel) ch.patterns
        (freshReader c song i ch), writeChannels c song (i + 1) t with
    | some a, some b => some (a ++ b)
    | _, _ => none

/-! The `p` length (R419). -/

/-- Base-64 digits, most significant first, the fewest; `fuel` bounds them. -/
def base64Digits : Nat → Nat → List Nat
  | 0, _ => []
  | fuel + 1, n => if n = 0 then [] else base64Digits fuel (n / 64) ++ [n % 64]

def digitsValue (l : List Nat) : Nat := l.foldl (fun a d => a * 64 + d) 0

def patternsPayload (bits : List Bool) : List Byte :=
  let stream := encodeBase64 bits
  let digits := base64Digits stream.length stream.length
  symbolOf digits.length :: digits.map symbolOf ++ stream

/-! Legacy forks (R430 to R434). -/

/-- The legacy record of an instrument, made if it is not there yet. [DEDUCED, assumption 50] -/
def legacyEntry (l : List LegacyFilter) (at' : Nat × Nat) (f : LegacyFilter → LegacyFilter) : List LegacyFilter :=
  match l with
  | [] => [f ⟨at'.1, at'.2, none, none, none⟩]
  | e :: t => if e.channel = at'.1 ∧ e.instrument = at'.2 then f e :: t else e :: legacyEntry t at' f

/-- `√0.5` as a binary64. -/
def rootHalf : Num := ⟨0x3FE6A09E667F3BCD#64⟩

/-- Base-2 logarithm. -/
def log2Of (c : Cfg) (v : Num) : Num := (c.logOf v).div (c.logOf .two)

/-- A setting below `count`, nearest to a position on the scale of settings. [DESIGN CHOICE, assumption 73] -/
def nearestSetting (count : Nat) (position : Num) : Nat := min (count - 1) (position.add .half).floorInt.toNat

/-- "converted to the nearest `freq` setting" (R432): R165 inverted, at the legacy rate. -/
def freqSetting (c : Cfg) (omega : Num) : Nat :=
  let hz := (omega.mul legacyRefSampleRate).div .twoPi
  nearestSetting c.filterFreqRange
    (((log2Of c (hz.div c.filterMaxHz)).div c.filterFreqStep).add (Num.ofNat (c.filterFreqRange - 1)))

/-- "converted to the nearest `gain` setting" (R432): R166 inverted. -/
def gainSetting (c : Cfg) (log : Num) : Nat :=
  nearestSetting c.filterGainRange ((log.div c.filterGainStep).add (Num.ofNat c.filterGainCenter))

/-- The legacy cutoff in radians at the reference rate of 48000 Hz. -/
def legacyRadians (c : Cfg) (cutoff : Nat) : Num :=
  (twoPiTimes (positiveOr .one (c.codec.legacyCutoffHz cutoff))).div legacyRefSampleRate

/-- The magnitude of a coefficient set's response at a corner. -/
def magnitudeOf (c : Cfg) (k : CoefSet) (omega : Num) : Num :=
  let c1 := c.cosOf omega
  let s1 := c.sinOf omega
  let c2 := c.cosOf (omega.mul .two)
  let s2 := c.sinOf (omega.mul .two)
  let size (a b d : Num) : Num :=
    let re := (a.add (b.mul c1)).add (d.mul c2)
    let im := (b.mul s1).add (d.mul s2)
    ((re.mul re).add (im.mul im)).sqrt
  (size k.b0 k.b1 k.b2).div (size .one k.a1 k.a2)

/-- −3.5 and −2, the octaves of gain of R432. -/
def legacyBias : Num := ⟨0xC00C000000000000#64⟩

def decayCap : Num := ⟨0xC000000000000000#64⟩

/-- "biasing toward −3.5 octaves of gain": the pulled logarithm lies between the logarithm and −3.5.
[DESIGN CHOICE, assumption 73] -/
def pulledLog (c : Cfg) (log : Num) : Num :=
  let v := c.codec.legacyPull log
  if (log.le v && v.le legacyBias) || (legacyBias.le v && v.le log) then v else legacyBias

/-- `legacyFirstOrderPoint` (R432), steps (1) to (6). [DESIGN CHOICE, assumption 73] -/
def legacyFirstOrderPoint (c : Cfg) (cutoff : Nat) (decays : Bool) : Nat × Nat :=
  let radians := legacyRadians c cutoff
  let target := positiveOr (radians.mul (c.exp2Of legacyBias.neg)) (c.codec.legacyRemap radians)
  let freq := freqSetting c target
  let log := pulledLog c (log2Of c (magnitudeOf c (c.lp1Of radians) (pointOmega c legacyRefSampleRate (Num.ofNat freq))))
  (freq, gainSetting c (if decays && decayCap.lt log then decayCap else log))

/-- `legacySecondOrderPoint` (R433), steps (1) to (5). [DESIGN CHOICE, assumption 73] -/
def legacySecondOrderPoint (c : Cfg) (cutoff resonance : Nat) (decays : Bool) : Nat × Nat :=
  let k := c.codec
  let radians := legacyRadians c cutoff
  let peak := positiveOr .one (k.legacyPeakGain resonance)
  let curved := positiveOr radians (k.legacyCurve radians peak decays)
  let gain := if k.legacyKeepsPeak resonance decays then peak else magnitudeOf c (c.lp2Of radians peak) curved
  let limited := if !k.legacyIsResonant resonance && rootHalf.lt gain then rootHalf else gain
  (freqSetting c curved, gainSetting c (log2Of c limited))

/-- `legacyFilterPoint` (R431): "A flat, no-envelope, cutoff-at-max case emits no points"; the
instrument's kind does not enter. [DESIGN CHOICE, assumption 80] -/
def legacyFilterPoint (c : Cfg) (cutoff resonance : Nat) (envelope : Nat) : List FilterPoint :=
  let k := c.codec
  let steady := (c.envelopes.get envelope).kind == 0
  if !k.legacyIsResonant resonance && steady && cutoff == legacyCutoffMax then []
  else
    let decays := k.legacyEnvelopeDecays envelope
    let p := if k.legacyIsFirstOrder resonance then legacyFirstOrderPoint c cutoff decays
      else legacySecondOrderPoint c cutoff resonance decays
    [⟨0, p.1, p.2⟩]

/-- The translator on one instrument, "with defaults for whichever of the three was absent" (R430).
[DEDUCED, assumption 50] -/
def translateLegacy (c : Cfg) (song : Song) (l : LegacyFilter) : Song :=
  let cutoff := min legacyCutoffMax (l.cutoff.getD c.codec.legacyCutoffDefault)
  let resonance := min legacyResonanceMax (l.resonance.getD c.codec.legacyResonanceDefault)
  modifyInstrument song (l.channel, l.instrument) (fun ins =>
    { ins with filter := legacyFilterPoint c cutoff resonance (l.envelope.getD ins.filterEnvelope) })

/-- The translator on every instrument that is complete: "at the next `T` or at the end of the string" (R430). -/
def translatePending (c : Cfg) (k : Codec) : Codec :=
  { k with song := k.legacy.foldl (translateLegacy c) k.song, legacy := [] }

/-- The legacy global reverb (R434): into every instrument of every pitch channel, with the reverb bit.
[DEDUCED, assumption 50] -/
def transferReverb (song : Song) (g : Nat) : Song :=
  { song with channels := song.channels.mapIdx (fun i ch =>
      if i < song.pitchChannelCount then
        { ch with instruments := ch.instruments.map (fun ins =>
            { ins with reverb := min legacyGlobalReverbMax g, effects := ins.effects ||| 2 ^ 4 }) }
      else ch) }

/-! Normalisation (R417). -/

def clampNat (lo hi v : Nat) : Nat := max lo (min hi v)

/-- A numeric list fitted to a length and a top value. [DESIGN CHOICE, assumption 52] -/
def clampList (n top : Nat) (l : List Nat) : List Nat := (resizeList n l (fun _ => 0)).map (min top)

def normalPoint (c : Cfg) (p : FilterPoint) : FilterPoint :=
  ⟨min 2 p.kind, min (c.filterFreqRange - 1) p.freq, min (c.filterGainRange - 1) p.gain⟩

def normalFilter (c : Cfg) (l : List FilterPoint) : List FilterPoint := (l.take c.filterMaxPoints).map (normalPoint c)

def normalOperator (c : Cfg) (o : Operator) : Operator :=
  { o with frequency := min c.ranges.operatorFrequency o.frequency, amplitude := min c.ranges.operatorAmplitude o.amplitude }

/-- The numeric fields of an instrument clamped into their ranges. [DESIGN CHOICE, assumption 52] -/
def normalInstrument (c : Cfg) (i : Instrument) : Instrument :=
  { i with
    volume := min c.ranges.volume i.volume
    filter := normalFilter c i.filter
    distortionFilter := normalFilter c i.distortionFilter
    effects := min (2 ^ 5 - 1) i.effects
    distortion := min (c.distortionRange - 1) i.distortion
    bitcrusherFreq := min c.ranges.bitcrusherFreq i.bitcrusherFreq
    bitcrusherQuantization := min c.ranges.bitcrusherQuantization i.bitcrusherQuantization
    pan := min c.panMax i.pan
    reverb := min (c.reverbRange - 1) i.reverb
    operators := (resizeList operatorCount i.operators (fun _ => ⟨0, 0, 0⟩)).map (normalOperator c)
    feedbackAmplitude := min c.ranges.feedbackAmplitude i.feedbackAmplitude
    spectrumWave := clampList spectrumPoints c.ranges.spectrumControl i.spectrumWave
    harmonicsWave := clampList harmonicsPoints c.ranges.harmonicsControl i.harmonicsWave
    pulseWidth := min c.ranges.pulseWidth i.pulseWidth
    sustain := min c.ranges.sustain i.sustain
    drumEnvelopes := resizeList drumCount i.drumEnvelopes (fun _ => 0)
    drumSpectrumWaves := (resizeList drumCount i.drumSpectrumWaves (fun _ => [])).map
      (clampList spectrumPoints c.ranges.spectrumControl) }

/-- A bend of a note at pitch `base`, clamped into `−range .. range` and to the pitches of the channel.
[DEDUCED, assumption 83] -/
def clampInterval (range top base : Nat) (v : Int) : Int :=
  max (max (-(range : Int)) (-(base : Int))) (min (min (range : Int) ((top : Int) - base)) v)

/-- Pins behind `last`, those that do not come later than the one before left out. -/
def risingPins (last : Nat) : List Pin → List Pin
  | [] => []
  | p :: t => if last < p.time then p :: risingPins p.time t else risingPins last t

/-- A note's numbers clamped: pitches into the channel's range, times into the bar and the note, bends and expressions
into theirs; the first pin at time 0 and interval 0. [DESIGN CHOICE, assumption 52] -/
def clampNote (c : Cfg) (top barParts : Nat) (n : Note) : Note :=
  let stop := min barParts n.stop
  let base := min top (n.pitches.headD 0)
  let fit (p : Pin) : Pin :=
    ⟨min (stop - n.start) p.time, clampInterval c.ranges.interval top base p.interval, min expressionMax p.expression⟩
  { n with
    stop := stop
    pitches := (n.pitches.take c.maxChordSize).map (min top)
    pins := match n.pins with
      | [] => []
      | p :: t => ⟨0, 0, min expressionMax p.expression⟩ :: risingPins 0 (t.map fit) }

/-- The notes of a pattern, clamped; one that is no note even so (no pitch, no length, over the one before) is left out,
since a decode's result satisfies "every invariant of rules R47 to R52" (R410). [DESIGN CHOICE, assumption 52] -/
def normalNotes (c : Cfg) (top barParts : Nat) (from' : Nat) : List Note → List Note
  | [] => []
  | n :: t =>
    let m := clampNote c top barParts n
    if noteLegal c top barParts m && decide (from' ≤ m.start) then m :: normalNotes c top barParts m.stop t
    else normalNotes c top barParts from' t

def normalChannel (c : Cfg) (song : Song) (i : Nat) (ch : Channel) : Channel :=
  { ch with
    octave := min c.ranges.octave ch.octave
    instruments := ch.instruments.map (normalInstrument c)
    patterns := ch.patterns.map (fun p =>
      { instrument := min (song.instrumentsPerChannel - 1) p.instrument
        notes := normalNotes c (topPitch c song i) (song.beatsPerBar * c.partsPerBeat) 0 p.notes })
    bars := ch.bars.map (min song.patternsPerChannel) }

/-- Every numeric field clamped into its legal range, every list at its count (R417). A pattern names an instrument of
its channel (R49), so that there is at least one where there are patterns. [DESIGN CHOICE, assumption 52] -/
def normaliseSong (c : Cfg) (song : Song) : Song :=
  let bars := clampNat 1 c.barCountMax song.barCount
  let pitch := min c.ranges.pitchChannelCount song.pitchChannelCount
  let noise := min c.ranges.noiseChannelCount song.noiseChannelCount
  let patterns := if c.ranges.instrumentsPerChannel = 0 ∧ 0 < pitch + noise then 0
    else min c.ranges.patternsPerChannel song.patternsPerChannel
  let least := if 0 < patterns ∧ 0 < pitch + noise then 1 else 0
  let counts : Song :=
    { song with
      pitchChannelCount := pitch
      noiseChannelCount := noise
      tempo := clampNat 1 c.tempoMax song.tempo
      beatsPerBar := clampNat 1 c.beatsPerBarMax song.beatsPerBar
      barCount := bars
      patternsPerChannel := patterns
      instrumentsPerChannel := clampNat least c.ranges.instrumentsPerChannel song.instrumentsPerChannel
      loopStart := min (bars - 1) song.loopStart
      loopLength := clampNat 1 (bars - min (bars - 1) song.loopStart) song.loopLength }
  let sized := resizeCounts c.initialSong song counts
  { sized with channels := sized.channels.mapIdx (normalChannel c sized) }

/-! What no record carries (R410, R412). -/

/-- An instrument whose fields that no record of its kind carries are those of the default one: `w` is `chipWave` or
`noiseWave` by the kind, `S` one spectrum or those of the drums, and drum envelopes travel for a drumset (R412, R427).
[DEDUCED, assumption 95] -/
def withUnwritten (dflt ins : Instrument) : Instrument :=
  { ins with
    chipWave := if ins.kind = kindNoise then dflt.chipWave else ins.chipWave
    noiseWave := if ins.kind = kindNoise then ins.noiseWave else dflt.noiseWave
    spectrumWave := if ins.kind = kindDrumset then dflt.spectrumWave else ins.spectrumWave
    drumSpectrumWaves := if ins.kind = kindDrumset then ins.drumSpectrumWaves else dflt.drumSpectrumWaves
    drumEnvelopes := if ins.kind = kindDrumset then ins.drumEnvelopes else dflt.drumEnvelopes }

/-- A song whose fields that no record carries keep their default (R410): the mute flags and the fields of the kinds
that its instruments do not have, so that "re-encoding at latest version and re-decoding yields the same model" (R441).
[DEDUCED, assumption 95] -/
def settleUnwritten (c : Cfg) (song : Song) : Song :=
  let dflt := (resizeCounts c.initialSong c.initialSong song).channels
  { song with
    channels := song.channels.mapIdx (fun i ch =>
      let d := dflt.getD i ch
      { ch with
        muted := d.muted
        instruments := ch.instruments.mapIdx (fun j ins => withUnwritten (d.instruments.getD j ins) ins) }) }

/-- The end of a decode: legacy filters, legacy reverb, normalisation (R417, R430, R434), and what no record carries.
[DEDUCED, assumption 95] -/
def finishDecode (c : Cfg) (k : Codec) : Codec :=
  let s1 := (translatePending c k).song
  let s2 := match k.legacyReverb with
    | some g => transferReverb s1 g
    | none => s1
  { k with song := settleUnwritten c (normaliseSong c s2), legacy := [], legacyReverb := none, status := .done }

/-! Framing (R411). -/

/-- "space, tab, carriage return and line feed" (D46). -/
def isBlank (ch : Byte) : Bool := ch.toNat == 32 || ch.toNat == 9 || ch.toNat == 13 || ch.toNat == 10

/-- The position after the blanks from `i` on. -/
def skipBlanks (i : Nat) : List Byte → Nat
  | [] => i
  | ch :: t => if isBlank ch then skipBlanks (i + 1) t else i

/-- The position of the version symbol or of the `{`. -/
def frameStart (text : List Byte) : Nat :=
  let i := skipBlanks 0 text
  if text[i]? = some 0x23#8 then i + 1 else i

/-- The version symbol (R411): the records follow; an empty string gives the default song.
[DESIGN CHOICE, assumption 49] -/
def frameVersion (c : Cfg) (k : Codec) : Codec :=
  let i := frameStart k.text
  let fresh : Codec :=
    { k with song := c.initialSong, cursor := none, legacy := [], legacyReverb := none, output := [] }
  match k.text[i]? with
  | none => { fresh with pos := i, version := latestVersion, status := .done }
  | some ch =>
    match symbolValue ch with
    | none => codecFail fresh none i
    | some v =>
      if v < oldestVersion ∨ latestVersion < v then codecFail fresh none i
      else { fresh with pos := i + 1, version := v, status := .records }

/-! The encoder (R441, R442). -/

def pointValues (l : List FilterPoint) : List Nat := l.flatMap (fun p => [p.kind, p.freq, p.gain])

/-- The operators' envelopes where they travel with a tag. -/
def envelopesWith (c : Cfg) (tag : Byte) (ins : Instrument) : List Nat :=
  if operatorEnvelopeTag c latestVersion = some tag then ins.operators.map Operator.envelope else []

/-- The field values that the writer gives to a tag's shape, the reader's values in reverse. -/
def tagValues (c : Cfg) (song : Song) (ins : Instrument) (tag : Byte) : List Nat :=
  let own :=
    match tag.toNat with
    | 0x61 => [song.beatsPerBar]
    | 0x63 => [ins.vibrato]
    | 0x64 => [ins.transition]
    | 0x65 => [song.loopLength - 1]
    | 0x66 => pointValues ins.filter ++ (if c.codec.filterEnvelopeInF then [ins.filterEnvelope] else [])
    | 0x67 => [song.barCount]
    | 0x68 => [ins.interval]
    | 0x69 => [song.instrumentsPerChannel]
    | 0x6A => [song.patternsPerChannel]
    | 0x6B => [song.key]
    | 0x6C => [song.loopStart]
    | 0x6D => [ins.reverb]
    | 0x6E => [song.pitchChannelCount, song.noiseChannelCount]
    | 0x6F => song.channels.map Channel.octave
    | 0x71 => [ins.effects]
    | 0x72 => [song.rhythm]
    | 0x73 => [song.scale]
    | 0x74 => [song.tempo]
    | 0x75 => [ins.preset]
    | 0x76 => [ins.volume]
    | 0x77 => [if ins.kind = kindNoise then ins.noiseWave else ins.chipWave]
    | 0x7A => [ins.filterEnvelope]
    | 0x41 => [ins.algorithm]
    | 0x42 => [ins.feedbackAmplitude, ins.feedbackEnvelope]
    | 0x43 => [ins.chord]
    | 0x44 => [ins.distortion]
    | 0x46 => [ins.feedbackType]
    | 0x47 => pointValues ins.distortionFilter
    | 0x4C => [ins.pan]
    | 0x50 => ins.operators.map Operator.amplitude ++ envelopesWith c tag ins
    | 0x51 => ins.operators.map Operator.frequency ++ envelopesWith c tag ins
    | 0x52 => [ins.bitcrusherFreq, ins.bitcrusherQuantization]
    | 0x54 => [ins.kind]
    | 0x55 => [ins.sustain]
    | 0x57 => [ins.pulseWidth, ins.pulseEnvelope]
    | _ => []
  own ++ (if tag = drumTag c ∧ ins.kind = kindDrumset then ins.drumEnvelopes else [])

/-- The context before the first record of a text of the latest version: the counts of the default song, no cursor. -/
def startContext (c : Cfg) : ShapeContext where
  version := latestVersion
  pitchChannels := c.initialSong.pitchChannelCount
  noiseChannels := c.initialSong.noiseChannelCount
  instrumentsPerChannel := c.initialSong.instrumentsPerChannel
  patternsPerChannel := c.initialSong.patternsPerChannel
  barCount := c.initialSong.barCount
  cursorChannel := 0
  cursorInstrument := 0
  cursorKind := 0

/-- The "counts so far" (R413) behind a song-level record. -/
def countContext (song : Song) (tag : Byte) (x : ShapeContext) : ShapeContext :=
  match tag.toNat with
  | 0x6E => { x with pitchChannels := song.pitchChannelCount, noiseChannels := song.noiseChannelCount }
  | 0x69 => { x with instrumentsPerChannel := song.instrumentsPerChannel }
  | 0x6A => { x with patternsPerChannel := song.patternsPerChannel }
  | 0x67 => { x with barCount := song.barCount }
  | _ => x

/-- The context behind a `T`. -/
def cursorContext (x : ShapeContext) (at' : Nat × Nat) (kind : Nat) : ShapeContext :=
  { x with cursorChannel := at'.1, cursorInstrument := at'.2, cursorKind := kind }

/-- A record with a payload shape. -/
def shapedRecord (c : Cfg) (x : ShapeContext) (song : Song) (ins : Instrument) (tag : Byte) : List Byte :=
  tag :: (tagSymbols c x tag (tagValues c song ins tag)).map symbolOf

/-- The song-level records, each in the context of those before it. -/
def songRecords (c : Cfg) (song : Song) : ShapeContext → List Byte → List Byte
  | _, [] => []
  | x, tag :: t => shapedRecord c x song blankInstrument tag ++ songRecords c song (countContext song tag x) t

/-- The control points of `S` and `H` (R427). -/
def controlBits (width : Nat) (l : List Nat) : List Bool := l.flatMap (writeBits width)

/-- A record of an instrument: the payloads of `S` and `H` are bits (R418). -/
def instrumentRecord (c : Cfg) (x : ShapeContext) (song : Song) (ins : Instrument) (tag : Byte) : List Byte :=
  match tag.toNat with
  | 0x53 =>
    tag :: encodeBase64 (controlBits (spectrumPointWidth c)
      (if ins.kind = kindDrumset then ins.drumSpectrumWaves.flatten else ins.spectrumWave))
  | 0x48 => tag :: encodeBase64 (controlBits (harmonicsPointWidth c) ins.harmonicsWave)
  | _ => shapedRecord c x song ins tag

/-- "for each channel and instrument a `T` record followed by that instrument's records"; `x` is the context of the
instrument before. -/
def instrumentRecords (c : Cfg) (song : Song) : ShapeContext → List ((Nat × Nat) × Instrument) → List Byte
  | _, [] => []
  | x, (at', ins) :: t =>
    let here := cursorContext x at' ins.kind
    shapedRecord c x song ins 0x54#8 ++ (instrumentTags c).flatMap (instrumentRecord c here song ins)
      ++ instrumentRecords c song here t

/-- The instruments of a song, "in channel order then instrument order" (R416). -/
def songInstruments (song : Song) : List ((Nat × Nat) × Instrument) :=
  (song.channels.mapIdx (fun i ch => ch.instruments.mapIdx (fun j ins => ((i, j), ins)))).flatten

/-- The `b` payload (R426). -/
def barsPayload (song : Song) : List Byte :=
  encodeBase64 (song.channels.flatMap (fun ch => ch.bars.flatMap (writeBits (bitsFor (song.patternsPerChannel + 1)))))

/-- The context behind the song-level records. -/
def songContext (c : Cfg) (song : Song) : ShapeContext :=
  (songTags c).foldl (fun x tag => countContext song tag x) (startContext c)

/-- `encodeSong(S)` (R442): the version symbol, the song-level records, the instruments' records, `b`, `p`; none where a
pattern holds a number that has no code, which no legal song does (R395). No record carries a mute flag, nor a field of
another kind than the instrument's (R412), so that a decode gives those their defaults. [DEDUCED, assumption 95] -/
def encodeSong (c : Cfg) (song : Song) : Option (List Byte) :=
  (writeChannels c song 0 song.channels).map (fun bits =>
    symbolOf latestVersion :: songRecords c song (startContext c) (songTags c)
      ++ instrumentRecords c song (songContext c song) (songInstruments song)
      ++ 0x62#8 :: barsPayload song ++ 0x70#8 :: patternsPayload bits)

end Sys2Proof.Machine
end

