-- ==== Sys2Proof/Machine/Tags.lean ====
section
/-! DEFINITION. The records of the URL form: what each tag of `49_song_codec.md` R412 reads and sets. The codec stands
at the tag character; a record leaves it behind its payload, or failed (R413, R440). A tag acts in the `records` phase
only. -/

namespace Sys2Proof.Machine

/-! Bits and leads (R416, R418). -/

/-- The symbols that `bits` bits take: "exactly `ceil(bits / 6)`" (R418). -/
def symbolsFor (bits : Nat) : Nat := (bits + 5) / 6

/-- The bits of `n` symbols from a position on. -/
def bitsAt (text : List Byte) (pos n : Nat) : Except Nat (List Bool) := (symbolsAt text pos n).map valueBits

/-- What stands before the bits of `b`, `S` and `H`: nothing, or before version 3 the channel (R416), "part of
`payloadShape`". -/
def leadPayload (c : Cfg) (k : Codec) (tag : Byte) : Except Nat (List Nat × Nat) :=
  if beforeVersion k 3 then payload c k tag else .ok ([], k.pos + 1)

/-! Setters. A setter that is given too few values leaves the field; one that is given an index outside its table, "an
enum index beyond its table" (R440), answers which of its values that is. -/

/-- An index into a table of `n` entries, put where `f` says. -/
def setEnum {α : Type} (n : Nat) (x : α) (f : Nat → α) : List Nat → Except Nat α
  | [] => .ok x
  | v :: _ => if v < n then .ok (f v) else .error 0

/-- A number, put where `f` says; it is clamped at the end of the decode (R417). -/
def setNumber {α : Type} (x : α) (f : Nat → α) : List Nat → Except Nat α
  | [] => .ok x
  | v :: _ => .ok (f v)

/-- The answer of a setter of the values behind the first `n`. -/
def behind {α : Type} (n : Nat) : Except Nat α → Except Nat α
  | .ok x => .ok x
  | .error j => .error (n + j)

/-- The control points that three values each give; the point type is an enum. -/
def pointsOf : List Nat → Except Nat (List FilterPoint)
  | kind :: freq :: gain :: t =>
    if kind < 3 then (behind 3 (pointsOf t)).map (fun l => ⟨kind, freq, gain⟩ :: l) else .error 0
  | _ => .ok []

/-- The first values of a list, one for each operator that has one. -/
def setOperators (f : Operator → Nat → Operator) : List Operator → List Nat → List Operator
  | o :: os, v :: vs => f o v :: setOperators f os vs
  | os, _ => os

/-- Indices into the envelope table, or the place of the first that is none. -/
def envelopeIndices (c : Cfg) (vs : List Nat) : Except Nat (List Nat) :=
  match vs.findIdx? (fun v => decide (c.envelopes.length ≤ v)) with
  | none => .ok vs
  | some j => .error j

/-- The operators' envelopes (R436). -/
def setOperatorEnvelopes (c : Cfg) (ins : Instrument) (vs : List Nat) : Except Nat Instrument :=
  (envelopeIndices c vs).map (fun l =>
    { ins with operators := setOperators (fun o v => { o with envelope := v }) ins.operators l })

/-- One value for each operator, and their envelopes where this tag carries them (R436).
[DESIGN CHOICE, assumption 51] -/
def setOperatorRow (c : Cfg) (version : Nat) (tag : Byte) (f : Operator → Nat → Operator) (ins : Instrument)
    (vs : List Nat) : Except Nat Instrument :=
  let own := { ins with operators := setOperators f ins.operators (vs.take operatorCount) }
  if operatorEnvelopeTag c version = some tag then
    behind operatorCount (setOperatorEnvelopes c own (vs.drop operatorCount))
  else .ok own

/-- The control points of the filter, and behind them `filterEnvelope` where the tag carries it.
[DESIGN CHOICE, assumption 51] -/
def setFilter (c : Cfg) (version : Nat) (ins : Instrument) (vs : List Nat) : Except Nat Instrument :=
  if filterEnvelopePacked c version then
    (pointsOf vs.dropLast).bind (fun l =>
      behind (vs.length - 1) (setEnum c.envelopes.length { ins with filter := l }
        (fun v => { ins with filter := l, filterEnvelope := v }) (vs.drop (vs.length - 1))))
  else (pointsOf vs).map (fun l => { ins with filter := l })

/-- The feedback amplitude, and the feedback envelope where the tag carries it (R436). [DESIGN CHOICE, assumption 51] -/
def setFeedback (c : Cfg) (version : Nat) (ins : Instrument) (vs : List Nat) : Except Nat Instrument :=
  (setNumber ins (fun v => { ins with feedbackAmplitude := v }) vs).bind (fun j =>
    if feedbackEnvelopePacked c version then
      behind 1 (setEnum c.envelopes.length j (fun v => { j with feedbackEnvelope := v }) (vs.drop 1))
    else .ok j)

/-- The twelve envelopes of a drumset (R427); fewer than twelve values leave them. [DESIGN CHOICE, assumption 51] -/
def setDrums (c : Cfg) (ins : Instrument) (vs : List Nat) : Except Nat Instrument :=
  if vs.length = drumCount then (envelopeIndices c vs).map (fun l => { ins with drumEnvelopes := l }) else .ok ins

/-- A setter of a record whose last twelve values are drum envelopes, if it is such a record.
[DESIGN CHOICE, assumption 51] -/
def withDrums (c : Cfg) (drums : Bool) (f : Instrument → List Nat → Except Nat Instrument) (ins : Instrument)
    (vs : List Nat) : Except Nat Instrument :=
  if drums then
    (f ins (vs.take (vs.length - drumCount))).bind (fun i =>
      behind (vs.length - drumCount) (setDrums c i (vs.drop (vs.length - drumCount))))
  else f ins vs

/-! Records. -/

/-- A record that sets song-level fields. -/
def songTag (c : Cfg) (tag : Byte) (f : Song → List Nat → Except Nat Song) (k : Codec) : Codec :=
  match payload c k tag with
  | .error e => codecFail k (some tag) e
  | .ok (vs, next) =>
    match f k.song vs with
    | .error j => codecFail k (some tag) (fieldPosition c k tag j)
    | .ok song => { k with song := song, pos := next }

/-- The instrument that a per-instrument record applies to, and its values: the cursor, or the explicit channel of the
versions before 3 (R416). [DEDUCED, assumption 50] -/
def recordPlace (k : Codec) (vs : List Nat) : Option ((Nat × Nat) × List Nat) :=
  if beforeVersion k 3 then
    (match vs with
    | ch :: t => some ((ch, 0), t)
    | [] => none)
  else k.cursor.map (fun at' => (at', vs))

/-- A record of the instrument at the cursor; `note` is what the translator of legacy filters is told. -/
def placedTag (c : Cfg) (tag : Byte) (f : Instrument → List Nat → Except Nat Instrument)
    (note : Nat × Nat → List Nat → List LegacyFilter → List LegacyFilter) (k : Codec) : Codec :=
  match payload c k tag with
  | .error e => codecFail k (some tag) e
  | .ok (vs, next) =>
    match recordPlace k vs with
    | none => codecFail k (some tag) k.pos
    | some (at', own) =>
      match codecInstrument k at' with
      | none => codecFail k (some tag) k.pos
      | some ins =>
        match withDrums c (carriesDrums c (shapeContext k) tag) f ins own with
        | .error j => codecFail k (some tag) (fieldPosition c k tag (vs.length - own.length + j))
        | .ok ins' =>
          { k with
            song := modifyInstrument k.song at' (fun _ => ins')
            legacy := note at' own k.legacy
            pos := next }

/-- A record of the instrument at the cursor. -/
def instrumentTag (c : Cfg) (tag : Byte) (f : Instrument → List Nat → Except Nat Instrument) : Codec → Codec :=
  placedTag c tag f (fun _ _ l => l)

/-- The same, with a note kept for the translator of legacy filters (R430). [DEDUCED, assumption 50] -/
def legacyTag (c : Cfg) (tag : Byte) (f : Instrument → List Nat → Except Nat Instrument)
    (note : Nat → LegacyFilter → LegacyFilter) : Codec → Codec :=
  placedTag c tag f (fun at' own l =>
    match own with
    | v :: _ => legacyEntry l at' (note v)
    | [] => l)

/-- The instrument after one, "in channel order then instrument order" (R416). -/
def nextInstrument (song : Song) (cursor : Option (Nat × Nat)) : Nat × Nat :=
  match cursor with
  | none => (0, 0)
  | some (ch, i) => if i + 1 < song.instrumentsPerChannel then (ch, i + 1) else (ch + 1, 0)

/-- The kind of an instrument, and the envelopes of a drumset where `T` carries them (R416, R427). -/
def setKind (c : Cfg) (ins : Instrument) (vs : List Nat) : Except Nat Instrument :=
  (setEnum 8 ins (fun v => { ins with kind := v }) vs).bind (fun typed =>
    if drumTag c = 0x54#8 ∧ typed.kind = kindDrumset then behind 1 (setDrums c typed (vs.drop 1)) else .ok typed)

/-- `T`: the cursor moves on and the instrument gets its kind. -/
def beginInstrument (c : Cfg) (k : Codec) : Codec :=
  let tag : Byte := 0x54#8
  match payload c k tag with
  | .error e => codecFail k (some tag) e
  | .ok (vs, next) =>
    match (if beforeVersion k 3 then recordPlace k vs else some (nextInstrument k.song k.cursor, vs)) with
    | none => codecFail k (some tag) k.pos
    | some (at', own) =>
      match codecInstrument k at' with
      | none => codecFail k (some tag) k.pos
      | some ins =>
        match setKind c ins own with
        | .error j => codecFail k (some tag) (fieldPosition c k tag (vs.length - own.length + j))
        | .ok ins' =>
          { k with
            song := modifyInstrument k.song at' (fun _ => ins')
            cursor := if beforeVersion k 3 then k.cursor else some at'
            legacy := if beforeVersion k 9 then legacyEntry k.legacy at' id else k.legacy
            pos := next }

/-- `T`; before version 9 the legacy filter of the instrument before it is translated now, "at the next `T`" (R430), and
that of its own is awaited. [DEDUCED, assumption 50] -/
def startInstrument (c : Cfg) (k : Codec) : Codec :=
  beginInstrument c (if beforeVersion k 9 then translatePending c k else k)

/-- A record of the instrument at the cursor that carries control points in bits (R418, R427): `count` of the instrument
gives how many points there are, `store` puts them. -/
def controlTag (c : Cfg) (tag : Byte) (width : Nat) (count : Instrument → Nat)
    (store : Instrument → List Nat → Instrument) (k : Codec) : Codec :=
  match leadPayload c k tag with
  | .error e => codecFail k (some tag) e
  | .ok (vs, start) =>
    match recordPlace k vs with
    | none => codecFail k (some tag) k.pos
    | some (at', _) =>
      match codecInstrument k at' with
      | none => codecFail k (some tag) k.pos
      | some ins =>
        let n := symbolsFor (width * count ins)
        match bitsAt k.text start n with
        | .error e => codecFail k (some tag) e
        | .ok bits =>
          match readFields width (count ins) bits with
          | .error _ => codecFail k (some tag) (start + n)
          | .ok (points, _) =>
            { k with song := modifyInstrument k.song at' (fun _ => store ins points), pos := start + n }

/-- A list cut into `n` lists of `size` values. -/
def chunks (size : Nat) : Nat → List Nat → List (List Nat)
  | 0, _ => []
  | n + 1, l => l.take size :: chunks size n (l.drop size)

/-- `b` (R426): every channel's bars, channel-major; before version 3 the bars of the channel that the payload names,
of none where there is no such channel. Every version has the width and the order of the latest.
[DESIGN CHOICE, assumption 82; DESIGN CHOICE, assumption 91] -/
def barsTag (c : Cfg) (k : Codec) : Codec :=
  let tag : Byte := 0x62#8
  let width := bitsFor (k.song.patternsPerChannel + 1)
  match leadPayload c k tag with
  | .error e => codecFail k (some tag) e
  | .ok (vs, start) =>
    let channels := match vs with
      | _ :: _ => 1
      | [] => k.song.channels.length
    let n := symbolsFor (width * (channels * k.song.barCount))
    match bitsAt k.text start n with
    | .error e => codecFail k (some tag) e
    | .ok bits =>
      match readFields width (channels * k.song.barCount) bits with
      | .error _ => codecFail k (some tag) (start + n)
      | .ok (fields, _) =>
        let lists := chunks k.song.barCount channels fields
        let song := match vs with
          | ch :: _ => modifyChannel k.song ch (fun x => { x with bars := lists.headD x.bars })
          | [] => { k.song with channels := k.song.channels.mapIdx (fun i x => { x with bars := lists.getD i x.bars }) }
        { k with song := song, pos := start + n }

/-- Whether part durations are read with the code `(1, 2)`: by older versions only (R398). -/
def legacyDuration (c : Cfg) (k : Codec) : Bool := beforeVersion k latestVersion && c.codec.usesLegacyDuration k.version

/-- `p` (R419, R420): the length of the length, the length in symbols, the bit-stream. -/
def patternsTag (c : Cfg) (k : Codec) : Codec :=
  let tag : Byte := 0x70#8
  match symbolsAt k.text (k.pos + 1) 1 with
  | .error e => codecFail k (some tag) e
  | .ok first =>
    let ll := first.headD 0
    match symbolsAt k.text (k.pos + 2) ll with
    | .error e => codecFail k (some tag) e
    | .ok digits =>
      let start := k.pos + 2 + ll
      let n := digitsValue digits
      if k.text.length < start + n then codecFail k (some tag) k.text.length
      else
        match bitsAt k.text start n with
        | .error e => codecFail k (some tag) e
        | .ok bits =>
          match readChannels c (legacyDuration c k) k.song 0 k.song.channels bits with
          | .error left => codecFail k (some tag) (start + (bits.length - left) / 6)
          | .ok (channels, _) => { k with song := { k.song with channels := channels }, pos := start + n }

/-- `o`: one octave for each channel, in channel order; before version 3 the channel is named (R416), and one that is not
there is passed over. [DESIGN CHOICE, assumption 82] -/
def octavesTag (beforeThree : Bool) (song : Song) (vs : List Nat) : Except Nat Song :=
  if beforeThree then
    (match vs with
    | ch :: v :: _ => .ok (modifyChannel song ch (fun x => { x with octave := v }))
    | _ => .ok song)
  else .ok { song with channels := song.channels.mapIdx (fun i x => { x with octave := vs.getD i x.octave }) }

/-- `n`: the counts of pitch and of noise channels; the channels are resized at once (R417). -/
def channelCountTag (c : Cfg) (song : Song) (vs : List Nat) : Except Nat Song :=
  match vs with
  | p :: n :: _ => .ok (resizeCounts c.initialSong song { song with pitchChannelCount := p, noiseChannelCount := n })
  | _ => .ok song

/-- A record runs in the `records` phase. -/
def onCodec (s : State) (f : Codec → Codec) : State :=
  if s.codec.status = .records then { s with codec := f s.codec } else s

/-! The codec's side of each record. -/

def readBeatsPerBar (c : Cfg) : Codec → Codec :=
  songTag c 0x61#8 (fun song => setNumber song (fun v => { song with beatsPerBar := v }))

def readVibrato (c : Cfg) : Codec → Codec :=
  instrumentTag c 0x63#8 (fun i => setEnum c.vibratos.length i (fun v => { i with vibrato := v }))

def readTransition (c : Cfg) : Codec → Codec :=
  instrumentTag c 0x64#8 (fun i => setEnum c.transitions.length i (fun v => { i with transition := v }))

/-- "stored as length − 1" (R412). -/
def readLoopEnd (c : Cfg) : Codec → Codec :=
  songTag c 0x65#8 (fun song => setNumber song (fun v => { song with loopLength := v + 1 }))

/-- The control points, or before version 9 the legacy cutoff (R430). -/
def readFilter (c : Cfg) (k : Codec) : Codec :=
  if beforeVersion k 9 then legacyTag c 0x66#8 (fun i _ => .ok i) (fun v l => { l with cutoff := some v }) k
  else instrumentTag c 0x66#8 (setFilter c k.version) k

def readBarCount (c : Cfg) : Codec → Codec :=
  songTag c 0x67#8 (fun song => setNumber song (fun v => resizeCounts c.initialSong song { song with barCount := v }))

def readInterval (c : Cfg) : Codec → Codec :=
  instrumentTag c 0x68#8 (fun i => setEnum c.intervals.length i (fun v => { i with interval := v }))

def readInstrumentCount (c : Cfg) : Codec → Codec :=
  songTag c 0x69#8 (fun song =>
    setNumber song (fun v => resizeCounts c.initialSong song { song with instrumentsPerChannel := v }))

def readPatternCount (c : Cfg) : Codec → Codec :=
  songTag c 0x6A#8 (fun song =>
    setNumber song (fun v => resizeCounts c.initialSong song { song with patternsPerChannel := v }))

def readKey (c : Cfg) : Codec → Codec :=
  songTag c 0x6B#8 (fun song => setEnum c.keyCount song (fun v => { song with key := v }))

def readLoopStart (c : Cfg) : Codec → Codec :=
  songTag c 0x6C#8 (fun song => setNumber song (fun v => { song with loopStart := v }))

/-- From version 7 on the instrument's reverb; before it a record of the song (R434). -/
def readReverb (c : Cfg) (k : Codec) : Codec :=
  if beforeVersion k 7 then
    (match payload c k 0x6D#8 with
    | .error e => codecFail k (some 0x6D#8) e
    | .ok (vs, next) => { k with legacyReverb := vs.head?.or k.legacyReverb, pos := next })
  else instrumentTag c 0x6D#8 (fun i => setNumber i (fun v => { i with reverb := v })) k

def readChannelCount (c : Cfg) : Codec → Codec := songTag c 0x6E#8 (channelCountTag c)

def readChannelOctave (c : Cfg) (k : Codec) : Codec := songTag c 0x6F#8 (octavesTag (beforeVersion k 3)) k

/-- The bitmask, or before version 6 an index into the legacy list (R435). -/
def readEffects (c : Cfg) (k : Codec) : Codec :=
  if beforeVersion k 6 then
    instrumentTag c 0x71#8 (fun i => setEnum c.codec.legacyEffects.length i
      (fun v => { i with effects := c.codec.legacyEffects.getD v 0 })) k
  else instrumentTag c 0x71#8 (fun i => setNumber i (fun v => { i with effects := v })) k

def readRhythm (c : Cfg) : Codec → Codec :=
  songTag c 0x72#8 (fun song => setEnum c.rhythmCount song (fun v => { song with rhythm := v }))

def readScale (c : Cfg) : Codec → Codec :=
  songTag c 0x73#8 (fun song => setEnum c.scaleCount song (fun v => { song with scale := v }))

def readTempo (c : Cfg) : Codec → Codec :=
  songTag c 0x74#8 (fun song => setNumber song (fun v => { song with tempo := v }))

def readPreset (c : Cfg) : Codec → Codec :=
  instrumentTag c 0x75#8 (fun i => setEnum c.presetCount i (fun v => { i with preset := v }))

def readVolume (c : Cfg) : Codec → Codec :=
  instrumentTag c 0x76#8 (fun i => setNumber i (fun v => { i with volume := v }))

/-- "`chipWave` or `noiseWave` by the instrument's kind" (R412): of a noise instrument `noiseWave`, of every other kind
`chipWave`. [DESIGN CHOICE, assumption 112] -/
def readWave (c : Cfg) : Codec → Codec :=
  instrumentTag c 0x77#8 (fun i =>
    if i.kind = kindNoise then setEnum c.noiseWaveCount i (fun v => { i with noiseWave := v })
    else setEnum c.chipWaves.length i (fun v => { i with chipWave := v }))

/-- The legacy resonance, "read by legacy versions only" (R412, R430). -/
def readFilterResonance (c : Cfg) (k : Codec) : Codec :=
  if beforeVersion k 9 then legacyTag c 0x79#8 (fun i _ => .ok i) (fun v l => { l with resonance := some v }) k
  else instrumentTag c 0x79#8 (fun i _ => .ok i) k

/-- "`z` … remains readable and sets `filterEnvelope`" (R430). -/
def readFilterEnvelope (c : Cfg) (k : Codec) : Codec :=
  let f := fun (i : Instrument) => setEnum c.envelopes.length i (fun v => { i with filterEnvelope := v })
  if beforeVersion k 9 then legacyTag c 0x7A#8 f (fun v l => { l with envelope := some v }) k
  else instrumentTag c 0x7A#8 f k

def readAlgorithm (c : Cfg) : Codec → Codec :=
  instrumentTag c 0x41#8 (fun i => setEnum c.algorithms.length i (fun v => { i with algorithm := v }))

/-- The amplitude, and with it the feedback envelope (R436). -/
def readFeedbackAmplitude (c : Cfg) (k : Codec) : Codec := instrumentTag c 0x42#8 (setFeedback c k.version) k

def readChord (c : Cfg) : Codec → Codec :=
  instrumentTag c 0x43#8 (fun i => setEnum c.chords.length i (fun v => { i with chord := v }))

def readDistortion (c : Cfg) : Codec → Codec :=
  instrumentTag c 0x44#8 (fun i => setNumber i (fun v => { i with distortion := v }))

/-- "read by legacy versions only" (R412). -/
def readOperatorEnvelopes (c : Cfg) (k : Codec) : Codec :=
  instrumentTag c 0x45#8
    (fun i vs => if beforeVersion k 9 then setOperatorEnvelopes c i (vs.take operatorCount) else .ok i) k

def readFeedbackType (c : Cfg) : Codec → Codec :=
  instrumentTag c 0x46#8 (fun i => setEnum c.feedbacks.length i (fun v => { i with feedbackType := v }))

def readDistortionFilter (c : Cfg) : Codec → Codec :=
  instrumentTag c 0x47#8 (fun i vs => (pointsOf vs).map (fun l => { i with distortionFilter := l }))

def readHarmonics (c : Cfg) : Codec → Codec :=
  controlTag c 0x48#8 (harmonicsPointWidth c) (fun _ => harmonicsPoints)
    (fun i l => { i with harmonicsWave := l })

def readPan (c : Cfg) : Codec → Codec :=
  instrumentTag c 0x4C#8 (fun i => setNumber i (fun v => { i with pan := v }))

/-- The amplitudes, and the envelopes if they follow (R436). -/
def readOperatorAmplitudes (c : Cfg) (k : Codec) : Codec :=
  instrumentTag c 0x50#8 (setOperatorRow c k.version 0x50#8 (fun o v => { o with amplitude := v })) k

/-- The frequencies, and the envelopes if they follow (R436). -/
def readOperatorFrequencies (c : Cfg) (k : Codec) : Codec :=
  instrumentTag c 0x51#8 (setOperatorRow c k.version 0x51#8 (fun o v => { o with frequency := v })) k

def readBitcrusher (c : Cfg) : Codec → Codec :=
  instrumentTag c 0x52#8 (fun i vs =>
    (setNumber i (fun v => { i with bitcrusherFreq := v }) vs).bind (fun j =>
      setNumber j (fun v => { j with bitcrusherQuantization := v }) (vs.drop 1)))

/-- "For a drumset instrument `S` carries all twelve spectrum arrays, drum 0 first" (R427). -/
def readSpectrum (c : Cfg) : Codec → Codec :=
  controlTag c 0x53#8 (spectrumPointWidth c)
    (fun i => if i.kind = kindDrumset then drumCount * spectrumPoints else spectrumPoints)
    (fun i l =>
      if i.kind = kindDrumset then { i with drumSpectrumWaves := chunks spectrumPoints drumCount l }
      else { i with spectrumWave := l })

def readSustain (c : Cfg) : Codec → Codec :=
  instrumentTag c 0x55#8 (fun i => setNumber i (fun v => { i with sustain := v }))

/-- "read by legacy versions only" (R412). -/
def readFeedbackEnvelope (c : Cfg) (k : Codec) : Codec :=
  instrumentTag c 0x56#8 (fun i =>
    if beforeVersion k 9 then setEnum c.envelopes.length i (fun v => { i with feedbackEnvelope := v })
    else fun _ => .ok i) k

/-- "`W` carries `pulseWidth` and `pulseEnvelope` together" (R436). -/
def readPulseWidth (c : Cfg) : Codec → Codec :=
  instrumentTag c 0x57#8 (fun i vs =>
    (setNumber i (fun v => { i with pulseWidth := v }) vs).bind (fun j =>
      behind 1 (setEnum c.envelopes.length j (fun v => { j with pulseEnvelope := v }) (vs.drop 1))))

/-! Meanings. -/

/-- URL tag `a`. -/
def execTagBeatsPerBar (s : State) : Host.Outcome State Fault Refusal :=
  .next (onCodec s (readBeatsPerBar Config.cfg))

/-- URL tag `b`. -/
def execTagBars (s : State) : Host.Outcome State Fault Refusal :=
  .next (onCodec s (barsTag Config.cfg))

/-- URL tag `c`. -/
def execTagVibrato (s : State) : Host.Outcome State Fault Refusal :=
  .next (onCodec s (readVibrato Config.cfg))

/-- URL tag `d`. -/
def execTagTransition (s : State) : Host.Outcome State Fault Refusal :=
  .next (onCodec s (readTransition Config.cfg))

/-- URL tag `e`. -/
def execTagLoopEnd (s : State) : Host.Outcome State Fault Refusal :=
  .next (onCodec s (readLoopEnd Config.cfg))

/-- URL tag `f`. -/
def execTagFilter (s : State) : Host.Outcome State Fault Refusal :=
  .next (onCodec s (readFilter Config.cfg))

/-- URL tag `g`. -/
def execTagBarCount (s : State) : Host.Outcome State Fault Refusal :=
  .next (onCodec s (readBarCount Config.cfg))

/-- URL tag `h`. -/
def execTagInterval (s : State) : Host.Outcome State Fault Refusal :=
  .next (onCodec s (readInterval Config.cfg))

/-- URL tag `i`. -/
def execTagInstrumentCount (s : State) : Host.Outcome State Fault Refusal :=
  .next (onCodec s (readInstrumentCount Config.cfg))

/-- URL tag `j`. -/
def execTagPatternCount (s : State) : Host.Outcome State Fault Refusal :=
  .next (onCodec s (readPatternCount Config.cfg))

/-- URL tag `k`. -/
def execTagKey (s : State) : Host.Outcome State Fault Refusal :=
  .next (onCodec s (readKey Config.cfg))

/-- URL tag `l`. -/
def execTagLoopStart (s : State) : Host.Outcome State Fault Refusal :=
  .next (onCodec s (readLoopStart Config.cfg))

/-- URL tag `m`. -/
def execTagReverb (s : State) : Host.Outcome State Fault Refusal :=
  .next (onCodec s (readReverb Config.cfg))

/-- URL tag `n`. -/
def execTagChannelCount (s : State) : Host.Outcome State Fault Refusal :=
  .next (onCodec s (readChannelCount Config.cfg))

/-- URL tag `o`. -/
def execTagChannelOctave (s : State) : Host.Outcome State Fault Refusal :=
  .next (onCodec s (readChannelOctave Config.cfg))

/-- URL tag `p`. -/
def execTagPatterns (s : State) : Host.Outcome State Fault Refusal :=
  .next (onCodec s (patternsTag Config.cfg))

/-- URL tag `q`. -/
def execTagEffects (s : State) : Host.Outcome State Fault Refusal :=
  .next (onCodec s (readEffects Config.cfg))

/-- URL tag `r`. -/
def execTagRhythm (s : State) : Host.Outcome State Fault Refusal :=
  .next (onCodec s (readRhythm Config.cfg))

/-- URL tag `s`. -/
def execTagScale (s : State) : Host.Outcome State Fault Refusal :=
  .next (onCodec s (readScale Config.cfg))

/-- URL tag `t`. -/
def execTagTempo (s : State) : Host.Outcome State Fault Refusal :=
  .next (onCodec s (readTempo Config.cfg))

/-- URL tag `u`. -/
def execTagPreset (s : State) : Host.Outcome State Fault Refusal :=
  .next (onCodec s (readPreset Config.cfg))

/-- URL tag `v`. -/
def execTagVolume (s : State) : Host.Outcome State Fault Refusal :=
  .next (onCodec s (readVolume Config.cfg))

/-- URL tag `w`. -/
def execTagWave (s : State) : Host.Outcome State Fault Refusal :=
  .next (onCodec s (readWave Config.cfg))

/-- URL tag `y`. -/
def execTagFilterResonance (s : State) : Host.Outcome State Fault Refusal :=
  .next (onCodec s (readFilterResonance Config.cfg))

/-- URL tag `z`. -/
def execTagFilterEnvelope (s : State) : Host.Outcome State Fault Refusal :=
  .next (onCodec s (readFilterEnvelope Config.cfg))

/-- URL tag `A`. -/
def execTagAlgorithm (s : State) : Host.Outcome State Fault Refusal :=
  .next (onCodec s (readAlgorithm Config.cfg))

/-- URL tag `B`. -/
def execTagFeedbackAmplitude (s : State) : Host.Outcome State Fault Refusal :=
  .next (onCodec s (readFeedbackAmplitude Config.cfg))

/-- URL tag `C`. -/
def execTagChord (s : State) : Host.Outcome State Fault Refusal :=
  .next (onCodec s (readChord Config.cfg))

/-- URL tag `D`. -/
def execTagDistortion (s : State) : Host.Outcome State Fault Refusal :=
  .next (onCodec s (readDistortion Config.cfg))

/-- URL tag `E`. -/
def execTagOperatorEnvelopes (s : State) : Host.Outcome State Fault Refusal :=
  .next (onCodec s (readOperatorEnvelopes Config.cfg))

/-- URL tag `F`. -/
def execTagFeedbackType (s : State) : Host.Outcome State Fault Refusal :=
  .next (onCodec s (readFeedbackType Config.cfg))

/-- URL tag `G`. -/
def execTagDistortionFilter (s : State) : Host.Outcome State Fault Refusal :=
  .next (onCodec s (readDistortionFilter Config.cfg))

/-- URL tag `H`. -/
def execTagHarmonics (s : State) : Host.Outcome State Fault Refusal :=
  .next (onCodec s (readHarmonics Config.cfg))

/-- URL tag `L`. -/
def execTagPan (s : State) : Host.Outcome State Fault Refusal :=
  .next (onCodec s (readPan Config.cfg))

/-- URL tag `P`. -/
def execTagOperatorAmplitudes (s : State) : Host.Outcome State Fault Refusal :=
  .next (onCodec s (readOperatorAmplitudes Config.cfg))

/-- URL tag `Q`. -/
def execTagOperatorFrequencies (s : State) : Host.Outcome State Fault Refusal :=
  .next (onCodec s (readOperatorFrequencies Config.cfg))

/-- URL tag `R`. -/
def execTagBitcrusher (s : State) : Host.Outcome State Fault Refusal :=
  .next (onCodec s (readBitcrusher Config.cfg))

/-- URL tag `S`. -/
def execTagSpectrum (s : State) : Host.Outcome State Fault Refusal :=
  .next (onCodec s (readSpectrum Config.cfg))

/-- URL tag `T`. -/
def execTagStartInstrument (s : State) : Host.Outcome State Fault Refusal :=
  .next (onCodec s (startInstrument Config.cfg))

/-- URL tag `U`. -/
def execTagSustain (s : State) : Host.Outcome State Fault Refusal :=
  .next (onCodec s (readSustain Config.cfg))

/-- URL tag `V`. -/
def execTagFeedbackEnvelope (s : State) : Host.Outcome State Fault Refusal :=
  .next (onCodec s (readFeedbackEnvelope Config.cfg))

/-- URL tag `W`. -/
def execTagPulseWidth (s : State) : Host.Outcome State Fault Refusal :=
  .next (onCodec s (readPulseWidth Config.cfg))

end Sys2Proof.Machine
end

