-- ==== Sys2Proof/Machine/Dispatch.lean ====
section
/-! DEFINITION. One arm for each instruction of the opcode table. -/

namespace Sys2Proof.Machine

def exec (i : Instr) (s : State) : Host.Outcome State Fault Refusal :=
  match i with
  | .reset => Sys2Proof.Machine.execReset s
  | .play => Sys2Proof.Machine.execPlay s
  | .pause => Sys2Proof.Machine.execPause s
  | .live => Sys2Proof.Machine.execLive s
  | .run count => Sys2Proof.Machine.execRun count s
  | .cfgw u value => Sys2Proof.Machine.execCfgw u value s
  | .cfgr u => Sys2Proof.Machine.execCfgr u s
  | .songLoad => Sys2Proof.Machine.execSongLoad s
  | .songSet => Sys2Proof.Machine.execSongSet s
  | .setr u value => Sys2Proof.Machine.execSetr u value s
  | .rdr u => Sys2Proof.Machine.execRdr u s
  | .wrw index value => Sys2Proof.Machine.execWrw index value s
  | .rdw index => Sys2Proof.Machine.execRdw index s
  | .rdm u v w index => Sys2Proof.Machine.execRdm u v w index s
  | .sanitize => Sys2Proof.Machine.execSanitize s
  | .ifft size => Sys2Proof.Machine.execIfft size s
  | .waveSine => Sys2Proof.Machine.execWaveSine s
  | .waveChip u => Sys2Proof.Machine.execWaveChip u s
  | .waveNoise u => Sys2Proof.Machine.execWaveNoise u s
  | .waveSpectrum u v => Sys2Proof.Machine.execWaveSpectrum u v s
  | .waveHarmonics u => Sys2Proof.Machine.execWaveHarmonics u s
  | .waveImpulse => Sys2Proof.Machine.execWaveImpulse s
  | .waveInval => Sys2Proof.Machine.execWaveInval s
  | .bqLoadgrad u v w start finish invN => Sys2Proof.Machine.execBqLoadgrad u v w start finish invN s
  | .bqStep u v w x => Sys2Proof.Machine.execBqStep u v w x s
  | .coefLp1 omega => Sys2Proof.Machine.execCoefLp1 omega s
  | .coefHp1 omega => Sys2Proof.Machine.execCoefHp1 omega s
  | .coefLp2 omega gain => Sys2Proof.Machine.execCoefLp2 omega gain s
  | .coefHp2 omega gain => Sys2Proof.Machine.execCoefHp2 omega gain s
  | .coefPeak omega gain => Sys2Proof.Machine.execCoefPeak omega gain s
  | .coefHshelf1 omega shelfGain => Sys2Proof.Machine.execCoefHshelf1 omega shelfGain s
  | .coefAp1 omega => Sys2Proof.Machine.execCoefAp1 omega s
  | .coefFdap d => Sys2Proof.Machine.execCoefFdap d s
  | .fptHz freq => Sys2Proof.Machine.execFptHz freq s
  | .fptGain gain => Sys2Proof.Machine.execFptGain gain s
  | .volcomp kind freq gain => Sys2Proof.Machine.execVolcomp kind freq gain s
  | .envSteady t beats speed noteExpression => Sys2Proof.Machine.execEnvSteady t beats speed noteExpression s
  | .envCustom t beats speed noteExpression => Sys2Proof.Machine.execEnvCustom t beats speed noteExpression s
  | .envTwang t beats speed noteExpression => Sys2Proof.Machine.execEnvTwang t beats speed noteExpression s
  | .envSwell t beats speed noteExpression => Sys2Proof.Machine.execEnvSwell t beats speed noteExpression s
  | .envTremolo t beats speed noteExpression => Sys2Proof.Machine.execEnvTremolo t beats speed noteExpression s
  | .envTremolo2 t beats speed noteExpression => Sys2Proof.Machine.execEnvTremolo2 t beats speed noteExpression s
  | .envPunch t beats speed noteExpression => Sys2Proof.Machine.execEnvPunch t beats speed noteExpression s
  | .envFlare t beats speed noteExpression => Sys2Proof.Machine.execEnvFlare t beats speed noteExpression s
  | .envDecay t beats speed noteExpression => Sys2Proof.Machine.execEnvDecay t beats speed noteExpression s
  | .lfo u tau => Sys2Proof.Machine.execLfo u tau s
  | .expr x => Sys2Proof.Machine.execExpr x s
  | .relscale ticksSinceReleased releaseTicks => Sys2Proof.Machine.execRelscale ticksSinceReleased releaseTicks s
  | .vibRamp ticks delayTicks => Sys2Proof.Machine.execVibRamp ticks delayTicks s
  | .pitchHz pitch => Sys2Proof.Machine.execPitchHz pitch s
  | .toneNew u => Sys2Proof.Machine.execToneNew u s
  | .toneCompute u runLength => Sys2Proof.Machine.execToneCompute u runLength s
  | .toneRelease u => Sys2Proof.Machine.execToneRelease u s
  | .toneFree u => Sys2Proof.Machine.execToneFree u s
  | .arpIndex pitchCount rhythm arpStep => Sys2Proof.Machine.execArpIndex pitchCount rhythm arpStep s
  | .synChip u runLength => Sys2Proof.Machine.execSynChip u runLength s
  | .synFm u runLength => Sys2Proof.Machine.execSynFm u runLength s
  | .synNoise u runLength => Sys2Proof.Machine.execSynNoise u runLength s
  | .synSpectrum u runLength => Sys2Proof.Machine.execSynSpectrum u runLength s
  | .synDrumset u runLength => Sys2Proof.Machine.execSynDrumset u runLength s
  | .synHarmonics u runLength => Sys2Proof.Machine.execSynHarmonics u runLength s
  | .synPwm u runLength => Sys2Proof.Machine.execSynPwm u runLength s
  | .synGuitar u runLength => Sys2Proof.Machine.execSynGuitar u runLength s
  | .gtrPluck u v => Sys2Proof.Machine.execGtrPluck u v s
  | .fxDistort u x => Sys2Proof.Machine.execFxDistort u x s
  | .fxBitcrush u x => Sys2Proof.Machine.execFxBitcrush u x s
  | .fxFilter u x => Sys2Proof.Machine.execFxFilter u x s
  | .fxPan u x => Sys2Proof.Machine.execFxPan u x s
  | .fxChorus u left right => Sys2Proof.Machine.execFxChorus u left right s
  | .fxReverb u left right => Sys2Proof.Machine.execFxReverb u left right s
  | .fxRun u pos runLength => Sys2Proof.Machine.execFxRun u pos runLength s
  | .fxTail u => Sys2Proof.Machine.execFxTail u s
  | .limit left right => Sys2Proof.Machine.execLimit left right s
  | .clkAdv runLength => Sys2Proof.Machine.execClkAdv runLength s
  | .tickEnd => Sys2Proof.Machine.execTickEnd s
  | .partEnd => Sys2Proof.Machine.execPartEnd s
  | .barNext => Sys2Proof.Machine.execBarNext s
  | .syncTones u => Sys2Proof.Machine.execSyncTones u s
  | .tagBeatsPerBar => Sys2Proof.Machine.execTagBeatsPerBar s
  | .tagBars => Sys2Proof.Machine.execTagBars s
  | .tagVibrato => Sys2Proof.Machine.execTagVibrato s
  | .tagTransition => Sys2Proof.Machine.execTagTransition s
  | .tagLoopEnd => Sys2Proof.Machine.execTagLoopEnd s
  | .tagFilter => Sys2Proof.Machine.execTagFilter s
  | .tagBarCount => Sys2Proof.Machine.execTagBarCount s
  | .tagInterval => Sys2Proof.Machine.execTagInterval s
  | .tagInstrumentCount => Sys2Proof.Machine.execTagInstrumentCount s
  | .tagPatternCount => Sys2Proof.Machine.execTagPatternCount s
  | .tagKey => Sys2Proof.Machine.execTagKey s
  | .tagLoopStart => Sys2Proof.Machine.execTagLoopStart s
  | .tagReverb => Sys2Proof.Machine.execTagReverb s
  | .tagChannelCount => Sys2Proof.Machine.execTagChannelCount s
  | .tagChannelOctave => Sys2Proof.Machine.execTagChannelOctave s
  | .tagPatterns => Sys2Proof.Machine.execTagPatterns s
  | .tagEffects => Sys2Proof.Machine.execTagEffects s
  | .tagRhythm => Sys2Proof.Machine.execTagRhythm s
  | .tagScale => Sys2Proof.Machine.execTagScale s
  | .tagTempo => Sys2Proof.Machine.execTagTempo s
  | .tagPreset => Sys2Proof.Machine.execTagPreset s
  | .tagVolume => Sys2Proof.Machine.execTagVolume s
  | .tagWave => Sys2Proof.Machine.execTagWave s
  | .tagFilterResonance => Sys2Proof.Machine.execTagFilterResonance s
  | .tagFilterEnvelope => Sys2Proof.Machine.execTagFilterEnvelope s
  | .tagAlgorithm => Sys2Proof.Machine.execTagAlgorithm s
  | .tagFeedbackAmplitude => Sys2Proof.Machine.execTagFeedbackAmplitude s
  | .tagChord => Sys2Proof.Machine.execTagChord s
  | .tagDistortion => Sys2Proof.Machine.execTagDistortion s
  | .tagOperatorEnvelopes => Sys2Proof.Machine.execTagOperatorEnvelopes s
  | .tagFeedbackType => Sys2Proof.Machine.execTagFeedbackType s
  | .tagDistortionFilter => Sys2Proof.Machine.execTagDistortionFilter s
  | .tagHarmonics => Sys2Proof.Machine.execTagHarmonics s
  | .tagPan => Sys2Proof.Machine.execTagPan s
  | .tagOperatorAmplitudes => Sys2Proof.Machine.execTagOperatorAmplitudes s
  | .tagOperatorFrequencies => Sys2Proof.Machine.execTagOperatorFrequencies s
  | .tagBitcrusher => Sys2Proof.Machine.execTagBitcrusher s
  | .tagSpectrum => Sys2Proof.Machine.execTagSpectrum s
  | .tagStartInstrument => Sys2Proof.Machine.execTagStartInstrument s
  | .tagSustain => Sys2Proof.Machine.execTagSustain s
  | .tagFeedbackEnvelope => Sys2Proof.Machine.execTagFeedbackEnvelope s
  | .tagPulseWidth => Sys2Proof.Machine.execTagPulseWidth s

end Sys2Proof.Machine
end

