-- ==== Sys2Proof/Machine/Json.lean ====
section
/-! DEFINITION. The JSON form of a song (`49_song_codec.md` R438, R439): JSON text both ways, the import with its
tolerances and the export. -/

namespace Sys2Proof.Machine

/-- A JSON value; a number is `mantissa × 10^exponent`. -/
inductive Json where
  | null
  | bool (b : Bool)
  | num (mantissa exponent : Int)
  | str (s : List Byte)
  | arr (l : List Json)
  | obj (l : List (List Byte × Json))

/-- The characters of an ASCII text. -/
def ascii (s : String) : List Byte := s.toList.map (fun ch => BitVec.ofNat 8 ch.toNat)

/-! Reading. -/

def dropBlanks : List Byte → List Byte
  | [] => []
  | ch :: t => if isBlank ch then dropBlanks t else ch :: t

def isDigit (ch : Byte) : Bool := decide (48 ≤ ch.toNat) && decide (ch.toNat ≤ 57)

/-- The digits at the front: their value behind `acc`, how many there are, and the rest. -/
def readDigits (acc count : Nat) : List Byte → Nat × Nat × List Byte
  | [] => (acc, count, [])
  | ch :: t => if isDigit ch then readDigits (acc * 10 + (ch.toNat - 48)) (count + 1) t else (acc, count, ch :: t)

/-- The exponent of a number, if there is one. -/
def readExponent (text : List Byte) : Option (Int × List Byte) :=
  match text with
  | ch :: t =>
    if ch.toNat = 0x65 ∨ ch.toNat = 0x45 then
      (let neg := t.head? = some 0x2D#8
       let u := if neg ∨ t.head? = some 0x2B#8 then t.drop 1 else t
       match readDigits 0 0 u with
       | (_, 0, _) => none
       | (v, _, rest) => some (if neg then -(v : Int) else v, rest))
    else some (0, text)
  | [] => some (0, [])

def readJsonNumber (text : List Byte) : Option (Json × List Byte) :=
  let neg := text.head? = some 0x2D#8
  match readDigits 0 0 (if neg then text.drop 1 else text) with
  | (_, 0, _) => none
  | (whole, n, rest) =>
    let zeroLed := decide (1 < n) && ((if neg then text.drop 1 else text).head? == some 0x30#8)
    let fraction : Option (Nat × Nat × List Byte) :=
      match rest with
      | 0x2E#8 :: t => (match readDigits whole 0 t with
        | (_, 0, _) => none
        | p => some p)
      | _ => some (whole, 0, rest)
    if zeroLed then none
    else
      fraction.bind (fun f => (readExponent f.2.2).map (fun e =>
        (.num (if neg then -(f.1 : Int) else f.1) (e.1 - f.2.1), e.2)))

def hexDigit (ch : Byte) : Option Nat :=
  let n := ch.toNat
  if 48 ≤ n ∧ n ≤ 57 then some (n - 48)
  else if 97 ≤ n ∧ n ≤ 102 then some (n - 87)
  else if 65 ≤ n ∧ n ≤ 70 then some (n - 55)
  else none

/-- The bytes of a code unit. -/
def utf8 (n : Nat) : List Byte :=
  if n < 128 then [BitVec.ofNat 8 n]
  else if n < 2048 then [BitVec.ofNat 8 (192 + n / 64), BitVec.ofNat 8 (128 + n % 64)]
  else [BitVec.ofNat 8 (224 + n / 4096), BitVec.ofNat 8 (128 + n / 64 % 64), BitVec.ofNat 8 (128 + n % 64)]

/-- The character of a one-letter escape. -/
def escaped (ch : Byte) : Option Byte :=
  match ch.toNat with
  | 0x22 | 0x5C | 0x2F => some ch
  | 0x62 => some 0x08#8
  | 0x66 => some 0x0C#8
  | 0x6E => some 0x0A#8
  | 0x72 => some 0x0D#8
  | 0x74 => some 0x09#8
  | _ => none

/-- The rest of a string behind its opening quote. -/
def readString : List Byte → Option (List Byte × List Byte)
  | [] => none
  | 0x22#8 :: t => some ([], t)
  | 0x5C#8 :: 0x75#8 :: a :: b :: c :: d :: t =>
    (match hexDigit a, hexDigit b, hexDigit c, hexDigit d with
    | some w, some x, some y, some z =>
      (readString t).map (fun p => (utf8 (((w * 16 + x) * 16 + y) * 16 + z) ++ p.1, p.2))
    | _, _, _, _ => none)
  | 0x5C#8 :: ch :: t =>
    (match escaped ch with
    | some e => (readString t).map (fun p => (e :: p.1, p.2))
    | none => none)
  | ch :: t => if ch.toNat < 32 then none else (readString t).map (fun p => (ch :: p.1, p.2))

/-- The rest of a text that begins with a word. -/
def afterWord (w text : List Byte) : Option (List Byte) :=
  if text.take w.length = w then some (text.drop w.length) else none

mutual
/-- A value; `fuel` bounds the values and the characters between them. -/
def readJson : Nat → List Byte → Option (Json × List Byte)
  | 0, _ => none
  | fuel + 1, text =>
    match dropBlanks text with
    | 0x7B#8 :: t =>
      (match dropBlanks t with
      | 0x7D#8 :: u => some (.obj [], u)
      | u => (readMembers fuel u).map (fun p => (.obj p.1, p.2)))
    | 0x5B#8 :: t =>
      (match dropBlanks t with
      | 0x5D#8 :: u => some (.arr [], u)
      | u => (readElements fuel u).map (fun p => (.arr p.1, p.2)))
    | 0x22#8 :: t => (readString t).map (fun p => (.str p.1, p.2))
    | t =>
      match afterWord (ascii "true") t, afterWord (ascii "false") t, afterWord (ascii "null") t with
      | some u, _, _ => some (.bool true, u)
      | _, some u, _ => some (.bool false, u)
      | _, _, some u => some (.null, u)
      | _, _, _ => readJsonNumber t

/-- The elements of an array up to its closing bracket. -/
def readElements : Nat → List Byte → Option (List Json × List Byte)
  | 0, _ => none
  | fuel + 1, text =>
    match readJson fuel text with
    | none => none
    | some (v, t) =>
      match dropBlanks t with
      | 0x5D#8 :: u => some ([v], u)
      | 0x2C#8 :: u => (readElements fuel u).map (fun p => (v :: p.1, p.2))
      | _ => none

/-- The members of an object up to its closing brace. -/
def readMembers : Nat → List Byte → Option (List (List Byte × Json) × List Byte)
  | 0, _ => none
  | fuel + 1, text =>
    match dropBlanks text with
    | 0x22#8 :: t =>
      (match readString t with
      | none => none
      | some (name, u) =>
        match dropBlanks u with
        | 0x3A#8 :: w =>
          (match readJson fuel w with
          | none => none
          | some (v, x) =>
            match dropBlanks x with
            | 0x7D#8 :: y => some ([(name, v)], y)
            | 0x2C#8 :: y => (readMembers fuel y).map (fun p => ((name, v) :: p.1, p.2))
            | _ => none)
        | _ => none)
    | _ => none
end

/-- A whole text as JSON. [DESIGN CHOICE, assumption 53] -/
def parseJson (text : List Byte) : Option Json :=
  match readJson (2 * text.length + 2) text with
  | some (v, rest) => if dropBlanks rest = [] then some v else none
  | none => none

/-! What the import reads in a value; a value of another kind is as a missing one. -/

/-- The value of a field; of a name that stands twice the first. [DESIGN CHOICE, assumption 93] -/
def Json.field (j : Json) (name : String) : Option Json :=
  match j with
  | .obj l => (l.find? (fun p => p.1 == ascii name)).map Prod.snd
  | _ => none

/-- The elements of an array. -/
def Json.list? (j : Json) : Option (List Json) :=
  match j with
  | .arr l => some l
  | _ => none

/-- A field that holds a list; one of another JSON kind reads as missing. [DESIGN CHOICE, assumption 53] -/
def Json.listField (j : Json) (name : String) : Option (List Json) := (j.field name).bind Json.list?

def Json.text? (j : Json) : Option (List Byte) :=
  match j with
  | .str s => some s
  | _ => none

/-- `(a × n / d)` rounded to the nearest integer, ties away from zero (R6). -/
def roundedQuotient (a : Int) (n d : Nat) : Int :=
  let q : Nat := (2 * (a.natAbs * n) + d) / (2 * d)
  if a < 0 then -(q : Int) else q

/-- A number times `n / d`, rounded. -/
def Json.scaled (j : Json) (n d : Nat) : Option Int :=
  match j with
  | .num m e => some (if e < 0 then roundedQuotient m n (d * 10 ^ e.natAbs) else roundedQuotient (m * 10 ^ e.natAbs) n d)
  | _ => none

/-- A number of an integer field: a fraction is rounded to the nearest integer. [DESIGN CHOICE, assumption 104] -/
def Json.int? (j : Json) : Option Int := j.scaled 1 1

/-- A number of a field that holds no negative value: "Out-of-range numbers are clamped" (R439). -/
def Json.nat? (j : Json) : Option Nat := j.int?.map Int.toNat

def Json.natField (j : Json) (name : String) (dflt : Nat) : Nat := ((j.field name).bind Json.nat?).getD dflt

/-! Import (R438, R439). -/

/-- The alias map, "of which the source gives that one entry" (R439), then the configuration's. -/
def nameAliases (k : CodecCfg) : List (List Byte × List Byte) := (ascii "romani :)", ascii "dbl harmonic :)") :: k.aliases

/-- The index of a name, after the alias map; a name that is not there gives the documented default. -/
def lookUpName (k : CodecCfg) (names : List (List Byte)) (dflt : Nat) (name : List Byte) : Nat :=
  let real := (((nameAliases k).find? (fun p => p.1 == name)).map Prod.snd).getD name
  (names.findIdx? (· == real)).getD dflt

/-- The default of an unknown scale: "expert"; where the configuration's table has no such name, its own default.
[DESIGN CHOICE, assumption 53] -/
def defaultScale (k : CodecCfg) : Nat := (k.scaleNames.findIdx? (· == ascii "expert")).getD k.scaleDefault

/-- "scale → expert" (R417, R439). -/
def lookUpScale (c : Cfg) (name : List Byte) : Nat :=
  min (c.scaleCount - 1) (lookUpName c.codec c.codec.scaleNames (defaultScale c.codec) name)

/-- "transition → index 1" (R417, R439). -/
def lookUpTransition (c : Cfg) (name : List Byte) : Nat :=
  min (c.transitions.length - 1) (lookUpName c.codec c.codec.transitionNames 1 name)

/-- A chord, or `dflt`: the documented default of an unknown chord is not in the source. [DESIGN CHOICE, assumption 53] -/
def lookUpChord (c : Cfg) (dflt : Nat) (name : List Byte) : Nat :=
  min (c.chords.length - 1) (lookUpName c.codec c.codec.chordNames dflt name)

/-- A field that holds a name, looked up; a missing field, or one that holds no name, takes its default. -/
def Json.nameField (j : Json) (name : String) (dflt : Nat) (look : List Byte → Nat) : Nat :=
  (((j.field name).bind Json.text?).map look).getD dflt

/-- `round(volume × 3 / 100)`. -/
def expressionOfVolume (j : Json) : Nat := min expressionMax ((j.scaled 3 100).map Int.toNat |>.getD 0)

/-- A point as a pin; a missing tick, bend or volume is 0 (R439). [DESIGN CHOICE, assumption 81] -/
def importPin (start : Nat) (j : Json) : Pin where
  time := j.natField "tick" 0 - start
  interval := ((j.field "pitchBend").bind Json.int?).getD 0
  expression := ((j.field "volume").map expressionOfVolume).getD 0

def importNote (j : Json) : Note :=
  let points := (j.listField "points").getD []
  let start := (points.head?.map (fun p => p.natField "tick" 0)).getD 0
  { start := start
    stop := (points.getLast?.map (fun p => p.natField "tick" 0)).getD start
    pitches := ((j.listField "pitches").getD []).filterMap Json.nat?
    pins := points.map (importPin start) }

def importPattern (j : Json) : Pattern where
  instrument := j.natField "instrument" 1 - 1
  notes := ((j.listField "notes").getD []).map importNote

/-- An instrument object: its fields "are not listed in the source" (R438); the two whose names R439 speaks of are read
by name, the others keep their defaults. [DESIGN CHOICE, assumption 53] -/
def importInstrument (c : Cfg) (dflt : Instrument) (j : Json) : Instrument :=
  { dflt with
    transition := j.nameField "transition" dflt.transition (lookUpTransition c)
    chord := j.nameField "chord" dflt.chord (lookUpChord c dflt.chord) }

def importChannel (c : Cfg) (dflt : Channel) (j : Json) : Channel :=
  let objects := (j.listField "instruments").getD []
  { dflt with
    octave := j.natField "octaveScrollBar" dflt.octave
    instruments := dflt.instruments.mapIdx (fun i ins => ((objects[i]?).map (importInstrument c ins)).getD ins)
    patterns := ((j.listField "patterns").map (List.map importPattern)).getD dflt.patterns
    bars := ((j.listField "sequence").map (List.map (fun v => v.nat?.getD 0))).getD dflt.bars }

/-- Whether a channel object is of type `"drum"` (R438); any other is a pitch channel. [DESIGN CHOICE, assumption 103] -/
def isDrumChannel (j : Json) : Bool := (j.field "type").bind Json.text? == some (ascii "drum")

/-- A count of the song: the longest of a list that every channel object has, the default song's where none has an entry.
[DESIGN CHOICE, assumption 92] -/
def longestList (l : List Json) (name : String) (dflt : Nat) : Nat :=
  (l.filterMap (fun j => (j.listField name).map List.length)).foldl max 0 |> fun n => if n = 0 then dflt else n

/-- The channel objects of a song. [DESIGN CHOICE, assumption 92] -/
def importChannels (c : Cfg) (song : Song) (l : List Json) : Song :=
  let pitch := l.filter (fun j => !isDrumChannel j)
  let noise := l.filter isDrumChannel
  let sized := resizeCounts c.initialSong song { song with
    pitchChannelCount := pitch.length
    noiseChannelCount := noise.length
    barCount := longestList l "sequence" song.barCount
    patternsPerChannel := longestList l "patterns" song.patternsPerChannel
    instrumentsPerChannel := longestList l "instruments" song.instrumentsPerChannel }
  { sized with channels := (sized.channels.zip (pitch ++ noise)).map (fun p => importChannel c p.1 p.2) }

/-- `importJson(obj)`; lists and numbers are fitted by the normalisation (R417). `format` and `version`, to which R438
gives no meaning, are not looked at.
[DESIGN CHOICE, assumption 53; DEDUCED, assumption 95; DESIGN CHOICE, assumption 113] -/
def importJson (c : Cfg) (j : Json) : Song :=
  let k := c.codec
  let dflt := c.initialSong
  let heads : Song :=
    { dflt with
      scale := j.nameField "scale" dflt.scale (lookUpScale c)
      key := j.nameField "key" dflt.key (fun n => min (c.keyCount - 1) (lookUpName k k.keyNames dflt.key n))
      rhythm := min (c.rhythmCount - 1)
        (((j.field "ticksPerBeat").bind Json.nat?).map k.rhythmOfTicksPerBeat |>.getD dflt.rhythm)
      loopStart := j.natField "introBars" dflt.loopStart
      loopLength := j.natField "loopBars" dflt.loopLength
      beatsPerBar := j.natField "beatsPerBar" dflt.beatsPerBar
      tempo := j.natField "beatsPerMinute" dflt.tempo }
  let song := ((j.listField "channels").map (importChannels c heads)).getD heads
  let wet := (((j.field "reverb").bind Json.nat?).map (transferReverb song)).getD song
  settleUnwritten c (normaliseSong c wet)

/-- The JSON branch of a decode: text that is not JSON is the only error (R439). [DESIGN CHOICE, assumption 49] -/
def importText (c : Cfg) (k : Codec) (i : Nat) : Codec :=
  match parseJson (k.text.drop i) with
  | none => codecFail k none i
  | some j =>
    { k with
      song := importJson c j
      cursor := none
      legacy := []
      legacyReverb := none
      pos := k.text.length
      version := latestVersion
      status := .done }

/-! Export (R438, R439). -/

def Json.ofNat (n : Nat) : Json := .num n 0

def Json.named (l : List (String × Json)) : Json := .obj (l.map (fun p => (ascii p.1, p.2)))

/-- `round(expression × 100 / 3)`. -/
def volumeOfExpression (e : Nat) : Nat := (roundedQuotient e 100 3).toNat

def exportPin (start : Nat) (p : Pin) : Json :=
  .named [("tick", .ofNat (start + p.time)), ("pitchBend", .num p.interval 0),
    ("volume", .ofNat (volumeOfExpression p.expression))]

def exportNote (n : Note) : Json :=
  .named [("pitches", .arr (n.pitches.map .ofNat)), ("points", .arr (n.pins.map (exportPin n.start)))]

def exportPattern (p : Pattern) : Json :=
  .named [("instrument", .ofNat (p.instrument + 1)), ("notes", .arr (p.notes.map exportNote))]

/-- A field that holds a name, where the table of names has it. -/
def namedField (field : String) (names : List (List Byte)) (i : Nat) : List (String × Json) :=
  match names[i]? with
  | some n => [(field, .str n)]
  | none => []

def exportInstrument (k : CodecCfg) (ins : Instrument) : Json :=
  .named (namedField "transition" k.transitionNames ins.transition ++ namedField "chord" k.chordNames ins.chord)

def exportChannel (k : CodecCfg) (drum : Bool) (ch : Channel) : Json :=
  .named [("type", .str (ascii (if drum then "drum" else "pitch"))), ("octaveScrollBar", .ofNat ch.octave),
    ("instruments", .arr (ch.instruments.map (exportInstrument k))),
    ("patterns", .arr (ch.patterns.map exportPattern)), ("sequence", .arr (ch.bars.map .ofNat))]

/-- `exportJson(S)`. [DESIGN CHOICE, assumption 53] -/
def exportJson (c : Cfg) (song : Song) : Json :=
  let k := c.codec
  .named [("format", .str (ascii "BeepBox")), ("version", .ofNat latestVersion),
    ("scale", .str (k.scaleNames.getD song.scale [])), ("key", .str (k.keyNames.getD song.key [])),
    ("introBars", .ofNat song.loopStart), ("loopBars", .ofNat song.loopLength),
    ("beatsPerBar", .ofNat song.beatsPerBar), ("ticksPerBeat", .ofNat (k.ticksPerBeatOfRhythm song.rhythm)),
    ("beatsPerMinute", .ofNat song.tempo),
    ("channels", .arr (song.channels.mapIdx (fun i ch => exportChannel k (decide (song.pitchChannelCount ≤ i)) ch)))]

/-! Writing. -/

/-- Decimal digits; `fuel` bounds them. -/
def decimal : Nat → Nat → List Byte
  | 0, _ => []
  | fuel + 1, n => (if n < 10 then [] else decimal fuel (n / 10)) ++ [BitVec.ofNat 8 (48 + n % 10)]

def writeInt (n : Int) : List Byte := (if n < 0 then [0x2D#8] else []) ++ decimal (n.natAbs + 1) n.natAbs

def hexOf (n : Nat) : Byte := BitVec.ofNat 8 (if n < 10 then 48 + n else 87 + n)

/-- A string with its quotes. -/
def writeString (s : List Byte) : List Byte :=
  0x22#8 :: s.flatMap (fun ch =>
    if ch = 0x22#8 ∨ ch = 0x5C#8 then [0x5C#8, ch]
    else if ch.toNat < 32 then ascii "\\u00" ++ [hexOf (ch.toNat / 16), hexOf (ch.toNat % 16)]
    else [ch]) ++ [0x22#8]

/-- Pieces with commas between. -/
def joined : List (List Byte) → List Byte
  | [] => []
  | [x] => x
  | x :: t => x ++ 0x2C#8 :: joined t

mutual
/-- The text of a value. -/
def writeJson : Json → List Byte
  | .null => ascii "null"
  | .bool b => ascii (if b then "true" else "false")
  | .num m e => writeInt m ++ (if e = 0 then [] else 0x65#8 :: writeInt e)
  | .str s => writeString s
  | .arr l => 0x5B#8 :: joined (writeElements l) ++ [0x5D#8]
  | .obj l => 0x7B#8 :: joined (writeMembers l) ++ [0x7D#8]

def writeElements : List Json → List (List Byte)
  | [] => []
  | j :: t => writeJson j :: writeElements t

def writeMembers : List (List Byte × Json) → List (List Byte)
  | [] => []
  | (name, j) :: t => (writeString name ++ 0x3A#8 :: writeJson j) :: writeMembers t
end

end Sys2Proof.Machine
end

