-- ==== Sys2Proof/Machine/Fetch.lean ====
section
/-! DEFINITION. One step of each agent: the block accepts the command at the head of its port (`47_system.md` R371,
`60_exceptions.md` R454), the host's codec frames its text or reads one record (`49_song_codec.md` R411, R413). And
where the next instruction of either stands. -/

namespace Sys2Proof.Machine

/-! The block. -/

/-- What stands at the head of the command port. -/
inductive Fetched where
  /-- no word, an incomplete descriptor (R73), or a structured value that has not come yet -/
  | wait
  /-- a descriptor that fails the checks of R454, with the detail word and the words after it -/
  | illegal (info : BitVec 32) (rest : List Word)
  /-- a command, and the words after it -/
  | command (i : Instr) (rest : List Word)

/-- `SONG.LOAD` and `SONG.SET` take a structured value from the payload port (R370); ignored ones take none (R457).
[DEDUCED, assumption 33] -/
def awaitsPayload (i : Instr) (s : State) : Bool :=
  match i with
  | .songLoad => s.payload.isEmpty && !s.fault
  | .songSet => s.payload.isEmpty && !s.fault
  | _ => false

/-- The head of the command port, decoded. [DESIGN CHOICE, assumption 47] -/
def fetch (s : State) : Fetched :=
  match decodeCommand s.port with
  | .ok (i, rest) => if awaitsPayload i s then .wait else .command i rest
  | .error .noWord => .wait
  | .error .incomplete => .wait
  | .error _ => .illegal (headerInfo (s.port.headD 0#64)) (skipDescriptor s.port)

/-- Acceptance (R371): the descriptor's words are taken, `busy` rises, and the deadline check runs, for every descriptor
taken (R377). [DESIGN CHOICE, assumption 7; DESIGN CHOICE, assumption 41; DEDUCED, assumption 106] -/
def accept (rest : List Word) (s : State) : State :=
  checkDeadline (readTime (s.epoch + 1) s.monoTime) { s with port := rest, busy := true, epoch := s.epoch + 1 }

/-- The end of a command: `busy` falls (R371). -/
def complete (o : Host.Outcome State Fault Refusal) : Host.Outcome State Fault Refusal :=
  match o with
  | .next s => .next { s with busy := false }
  | .fault f => .fault f
  | .refused r => .refused r

/-- A word presented while `busy`: the platform stalls the host or turns the word away (D6).
[DESIGN CHOICE, assumption 39] -/
def presentBusy (c : Cfg) (s : State) : State :=
  match c.busyPolicy with
  | .stall => s
  | .reject => { s with port := s.port.drop 1 }

/-- One step of the block. [DESIGN CHOICE, assumption 39; DESIGN CHOICE, assumption 46] -/
def engineStep (s : State) : Host.Outcome State Fault Refusal :=
  if s.busy then .next (presentBusy Config.cfg s)
  else
    match fetch s with
    | .wait => .next s
    | .illegal info rest => complete (.next (raise ⟨.illegalCommand, info⟩ (accept rest s)))
    | .command i rest => complete (exec i (accept rest s))

/-! The host's codec. -/

/-- The frame of a text (R411): the JSON form where the first character is an opening brace, else the version. -/
def readFrame (c : Cfg) (k : Codec) : Codec :=
  let i := frameStart k.text
  if k.text[i]? = some 0x7B#8 then importText c k i else frameVersion c k

/-- The text of the codec's song; a pattern that no code stands for is an error of `p` (R395). -/
def writeText (c : Cfg) (k : Codec) : Codec :=
  match encodeSong c k.song with
  | none => codecFail k (some 0x70#8) k.pos
  | some text => { k with output := text, status := .done }

/-- One step of the codec: the frame, one record, or the end of a decode; or a whole text written.
[DESIGN CHOICE, assumption 46] -/
def codecStep (s : State) : Host.Outcome State Fault Refusal :=
  let k := s.codec
  match k.status with
  | .idle => .next s
  | .done => .next s
  | .failed _ _ => .next s
  | .framing => .next { s with codec := readFrame Config.cfg k }
  | .encoding => .next { s with codec := writeText Config.cfg k }
  | .exporting =>
    .next { s with codec := { k with output := writeJson (exportJson Config.cfg k.song), status := .done } }
  | .records =>
    match k.text[k.pos]? with
    | none => .next { s with codec := finishDecode Config.cfg k }
    | some ch =>
      match decodeTag ch with
      | none => .next { s with codec := codecFail k (some ch) k.pos }
      | some i => exec i s

/-! Placing an instruction. -/

/-- The command words of a number: its own 64-bit words, then zeros up to what its header announces.
[DESIGN CHOICE, assumption 47] -/
def tableWords (nbits w : Nat) : List Word :=
  let own := (List.range ((nbits + 63) / 64)).map (fun i => BitVec.ofNat 64 (w / 2 ^ (64 * i)))
  own ++ List.replicate (headerCount (BitVec.ofNat 64 w) + 1 - own.length) 0#64

/-- A value for the payload port where a command needs one: the song that stands, or its tempo.
[DESIGN CHOICE, assumption 47] -/
def payloadFor (s : State) (words : List Word) : List Payload :=
  if s.payload.isEmpty then
    (match decodeCommand words with
    | .ok (.songLoad, _) => [.song s.song]
    | .ok (.songSet, _) => [.edit (.tempo s.song.tempo)]
    | _ => [])
  else s.payload

/-- A command on the port, the block ready for it. [DESIGN CHOICE, assumption 47] -/
def placeCommand (s : State) (nbits w : Nat) : State :=
  { s with
    port := tableWords nbits w
    payload := payloadFor s (tableWords nbits w)
    busy := false
    resetPin := false
    turn := .engine }

/-- A tag character under the codec's position, with a payload of zeros behind it; the cursor stands on the first
instrument, or before it for `T`. [DESIGN CHOICE, assumption 47] -/
def placeTag (s : State) (w : Nat) : State :=
  { s with
    codec :=
      { s.codec with
        text := BitVec.ofNat 8 w :: List.replicate 64 (symbolOf 0)
        pos := 0
        status := .records
        cursor := if w = 0x54 then none else some (0, 0) }
    resetPin := false
    turn := .codec }

end Sys2Proof.Machine
end

