-- ==== Sys2Proof/Machine/Step.lean ====
section
/-! DEFINITION. One step of the machine: the platform's reset line first (`70_reset_and_hazards.md` R482), then the agent
whose turn it is. -/

namespace Sys2Proof.Machine

/-- One step: a next state, a fault or a refusal. [DESIGN CHOICE, assumption 46] -/
def step (s : State) : Host.Outcome State Fault Refusal :=
  if s.resetPin then .next (platformReset Config.cfg s)
  else
    match s.turn with
    | .engine => engineStep s
    | .codec => codecStep s

/-- `s` with an instruction of the opcode table where the next step finds it. [DESIGN CHOICE, assumption 47] -/
def State.withFetchWord (s : State) (nbits w : Nat) : State :=
  if nbits ≤ 8 then placeTag s w else placeCommand s nbits w

end Sys2Proof.Machine
end

