-- ==== Sys2Proof/Safety.lean ====
section
/-! DEFINITION. What counts as a safe run, in the terms that statements use: the fault latch is clear, and the invariants
of the block hold (`10_state.md` R15, R43, R44, R46, R71; `60_exceptions.md` R452, R453). -/

namespace Sys2Proof.Machine

/-- The block works: no fault has been taken since reset (R457). -/
def State.safe (s : State) : Prop := s.fault = false

/-- The latch (R43, R452, R453): clear with code and detail 0, or set with one of the seven codes. -/
def State.latchLegal (s : State) : Prop :=
  (s.fault = false → s.faultCode = 0#8 ∧ s.faultInfo = 0#32) ∧
    (s.fault = true → 1 ≤ s.faultCode.toNat ∧ s.faultCode.toNat ≤ 7)

/-- The legal values of the read/write control registers 0 to 2 (R44). -/
def State.controlsLegal (s : State) : Prop :=
  (s.sampleRate.isFinite = true ∧ Num.zero.lt s.sampleRate = true) ∧
    (s.volume.isFinite = true ∧ Num.zero.le s.volume = true) ∧
      (s.liveDeadlineSeconds.isFinite = true ∧ Num.zero.le s.liveDeadlineSeconds = true)

/-- Between two commands: the sequencer idle, `busy` low (R14, R371). -/
def State.quiet (s : State) : Prop := s.seq = .idle ∧ s.busy = false

/-- The invariant of the block's control state. -/
structure State.ControlInv (s : State) : Prop where
  latch : s.latchLegal
  controls : s.controlsLegal
  quiet : s.quiet
  song : songLegal Config.cfg s.song = true

/-- The clock's four integers are inside their ranges (R15). -/
structure Clock.Legal (c : Cfg) (song : Song) (k : Clock) : Prop where
  bar : k.bar < song.barCount
  beat : k.beat < song.beatsPerBar
  part : k.part < c.partsPerBeat
  tick : k.tick < c.ticksPerPart

/-- The invariant of the song clock. -/
structure State.ClockInv (s : State) : Prop where
  song : songLegal Config.cfg s.song = true
  clock : s.eng.clock.Legal Config.cfg s.song

/-- The canonical form of a string's memory. -/
def StringState.Canonical (s : StringState) : Prop := Memory.numWf s.ring = true

/-- The canonical form of an instrument slot's memories. -/
structure Slot.Canonical (i : Slot) : Prop where
  pan : Memory.numWf i.panRing = true
  chorusL : Memory.numWf i.chorusRingL = true
  chorusR : Memory.numWf i.chorusRingR = true
  reverb : Memory.numWf i.reverbRing = true

/-- Every memory of the block is in its canonical form (R70, R71). -/
structure Engine.Canonical (e : Engine) : Prop where
  work : Memory.wf none e.work = true
  scratch : Memory.numWf e.scratch = true
  mixL : Memory.wf none e.mixL = true
  mixR : Memory.wf none e.mixR = true
  outL : Memory.wf none e.outL = true
  outR : Memory.wf none e.outR = true
  strings : ∀ t ∈ e.tones, ∀ w ∈ t.strings, w.Canonical
  slots : ∀ i ∈ e.slots, i.Canonical

/-! Terms of the statements. -/

/-- The state in which a first fault was just taken: the latch set, the sequencer idle, `busy` low (R452). -/
def State.withFault (s : State) (code : BitVec 8) (info : BitVec 32) : State :=
  { s with fault := true, faultCode := code, faultInfo := info, seq := .idle, busy := false }

/-- `t` differs from `s` in the result registers `r[0]` to `r[n − 1]` at most. -/
def State.onlyResults (s t : State) (n : Nat) : Prop :=
  t = { s with r := t.r } ∧ ∀ j, n ≤ j → t.r.toArray[j]? = s.r.toArray[j]?

/-- Result register `i`. -/
def State.result (t : State) (i : Nat) : Option Num := t.r.toArray[i]?

/-- The six results of a coefficient helper (R155). -/
def State.showsCoefs (t : State) (k : CoefSet) (order : Nat) : Prop :=
  t.result 0 = some k.a1 ∧ t.result 1 = some k.a2 ∧ t.result 2 = some k.b0 ∧ t.result 3 = some k.b1 ∧
    t.result 4 = some k.b2 ∧ t.result 5 = some (Num.ofNat order)

/-- Result register `i` as a number. -/
def State.value (t : State) (i : Nat) : Num := (t.result i).getD .zero

/-- The state after a command: a command that the block ignores or refuses leaves it. -/
def State.after (s : State) (i : Instr) : State :=
  match exec i s with
  | .next t => t
  | .fault _ => s
  | .refused _ => s

/-- The state after commands, one behind the other. -/
def State.afterAll (s : State) (l : List Instr) : State := l.foldl State.after s

/-- The synth loop of an instrument kind as a command (R265). -/
def synCommand (kind u n : Nat) : Instr :=
  if kind = kindChip then .synChip u n
  else if kind = kindFm then .synFm u n
  else if kind = kindNoise then .synNoise u n
  else if kind = kindSpectrum then .synSpectrum u n
  else if kind = kindDrumset then .synDrumset u n
  else if kind = kindHarmonics then .synHarmonics u n
  else if kind = kindPwm then .synPwm u n
  else .synGuitar u n

/-- One tone of a run, as commands: its parameter update, then the loop of its instrument's kind (R331). -/
def State.voiceTone (n : Nat) (s : State) (u : Nat) : State :=
  match s.eng.tones[u]? with
  | none => s
  | some t =>
    match slotInstrument s.song t.instrument with
    | none => s.after (.toneCompute u n)
    | some ins => s.afterAll [.toneCompute u n, synCommand ins.kind u n]

/-- One instrument slot of a run that starts at sample 0, as commands: its tones in their order, then its effects where
it is awake (R331, R333). -/
def State.voiceSlot (n : Nat) (s : State) (islot : Nat) : State :=
  let t := (tonesOf s.eng (slotChannel s.song islot) islot).foldl (State.voiceTone n) s
  match t.eng.slots[islot]? with
  | some i => if i.awake then t.after (.fxRun islot 0 n) else t
  | none => t

/-- One sample of the master stage: `LIMIT` of the mix, its two results rounded into the outputs (R334). -/
def State.limitSample (s : State) (j : Nat) : State :=
  let t := s.after (.limit (s.eng.readMixL j) (s.eng.readMixR j))
  { t with eng := { t.eng with
      outL := Memory.write none t.eng.outL j (t.value 0).round32
      outR := Memory.write none t.eng.outR j (t.value 1).round32 } }

/-- An iteration of `RUN` at sample 0, as commands: `SYNC.TONES` of every channel, every instrument slot, the master
stage of each sample, `CLK.ADV` (R330, R331, R334, R336). -/
def State.oneRun (n : Nat) (s : State) : State :=
  let synced := s.afterAll ((List.range s.song.channelCount).map Instr.syncTones)
  let voiced := (List.range s.song.slotCount).foldl (State.voiceSlot n) synced
  ((List.range n).foldl State.limitSample voiced).after (.clkAdv n)

/-- One sample through the enabled stages of a slot's effects, as commands in their order, the sample in `r[0]` and from
`FX.PAN` on in `r[0]`, `r[1]` (R280). -/
def State.effectStages (s : State) (u : Nat) (ins : Instrument) (v : Num) : State :=
  let s0 := s.after (.setr 0 v)
  let s1 := if effectOn ins 0 then s0.after (.fxDistort u (s0.value 0)) else s0
  let s2 := if effectOn ins 1 then s1.after (.fxBitcrush u (s1.value 0)) else s1
  let s3 := if ins.distortionFilter.isEmpty then s2 else s2.after (.fxFilter u (s2.value 0))
  let s4 := s3.after (if effectOn ins 2 then .fxPan u (s3.value 0) else .setr 1 (s3.value 0))
  let s5 := if effectOn ins 3 then s4.after (.fxChorus u (s4.value 0) (s4.value 1)) else s4
  if effectOn ins 4 then s5.after (.fxReverb u (s5.value 0) (s5.value 1)) else s5

/-- One sample of `FX.RUN`: `SCRATCH[j]` through the stages, zeroed, and the two results added to the mix (R300). -/
def State.effectSample (u pos : Nat) (ins : Instrument) (s : State) (j : Nat) : State :=
  let t := s.effectStages u ins (Memory.getNum s.eng.scratch j)
  { t with eng := ({ t.eng with scratch := Memory.setNum t.eng.scratch j .zero }).addMix (pos + j) (t.value 0) (t.value 1) }

/-- The effect filter of a slot loaded for a run of `n` samples: stage `j` from point `j`, the same coefficients at both
ends (R286). -/
def State.loadedSlot (s : State) (ins : Instrument) (n : Nat) (i : Slot) : Slot :=
  { i with
    fxFilterCount := ins.distortionFilter.length
    fxFilters := i.fxFilters.mapIdx (fun j f =>
      match ins.distortionFilter[j]? with
      | none => f
      | some p =>
        let k := pointCoefs Config.cfg s.sampleRate p.kind (Num.ofNat p.freq) p.gain
        loadGradient f k k (Num.one.div (Num.ofNat n))) }

/-- A song without notes, no tone in any queue, no slot awake (R335). -/
structure State.Silent (s : State) : Prop where
  notes : ∀ ch ∈ s.song.channels, ∀ p ∈ ch.patterns, p.notes = []
  active : ∀ q ∈ s.eng.activeTones, q = []
  released : ∀ q ∈ s.eng.releasedTones, q = []
  asleep : ∀ i ∈ s.eng.slots, i.awake = false

/-- The envelopes that the update of a tone evaluates (R217, R218). -/
def usedEnvelopes (ins : Instrument) (t : Tone) : List Nat :=
  (if ins.filter.isEmpty then []
   else if ins.kind = kindDrumset then [ins.drumEnvelopes.getD (drumsetPitchOf t) 0] else [ins.filterEnvelope])
    ++ (if ins.kind = kindFm then ins.feedbackEnvelope :: ins.operators.map Operator.envelope else [])
    ++ (if ins.kind = kindPwm then [ins.pulseEnvelope] else [])

/-- What a load of a song leaves of the engine (R380): tones freed, slots at rest, waves invalid, the clock at its start;
while playing the countdown of the first tick is set. -/
structure State.restarted (s : State) (v : Song) (e : Engine) : Prop where
  rest : e = { s.eng with
    tones := e.tones, activeTones := e.activeTones, releasedTones := e.releasedTones, slots := e.slots
    waves := e.waves, clock := e.clock }
  free : ∀ a ∈ e.tones, a.state = .free
  active : e.activeTones = List.replicate v.channelCount []
  released : e.releasedTones = List.replicate v.slotCount []
  slots : e.slots = List.replicate v.slotCount (Slot.zero Config.cfg)
  waves : ∀ k, findWave e.waves k = none
  start : e.clock.bar = 0 ∧ e.clock.beat = 0 ∧ e.clock.part = 0 ∧ e.clock.tick = 0
  playing : s.playing = true → e.clock.countdownSet = true ∧
    e.clock.tickSampleCountdown = Config.cfg.samplesPerTickOf s.sampleRate v.tempo
  paused : s.playing = false → e.clock.countdownSet = false

end Sys2Proof.Machine
end

