-- ==== Sys2Proof/Certificates/Slice0/Obligations.lean ====
section
/-! DEFINITION. The statements for the provers. Each says which rules of the spec it formalises. A statement that says
`s.fault = false` is about the block at work; what a set latch does is said once, in `FaultIgnoresCommands`. -/

open Sys2Proof Sys2Proof.Machine

/-! Encoding (R100 to R107, R412). -/

/-- Decoding what the encoder wrote gives the instruction back, with every operand at every value, whatever words
follow; a tag is read from its character (R100, R101, R103, R107, R412). -/
def Obligations.DecodeOfEncode : Prop :=
  ∀ i : Instr, i.WellFormed →
    (∀ ch, i.tagCode = some ch → decodeTag (BitVec.ofNat 8 ch) = some i) ∧
      (i.tagCode = none → ∀ rest : List Word, decodeCommand (encode i ++ rest) = .ok (i, rest))

/-- Only an instruction's own words decode to it: what the decoder takes is the encoding of the well-formed command it
answers, and a character that decodes to a tag is that tag's (R100, R101, R107, R412, R454). -/
def Obligations.EncodeOfDecode : Prop :=
  (∀ (ws rest : List Word) (i : Instr), decodeCommand ws = .ok (i, rest) →
    i.WellFormed ∧ i.tagCode = none ∧ ws = encode i ++ rest) ∧
      (∀ (ch : Byte) (i : Instr), decodeTag ch = some i → i.tagCode = some ch.toNat)

/-- Words written out from the spec's encoding decode to the command that they stand for (R101, R107). -/
def Obligations.SpecWordsDecode : Prop :=
  decodeCommand [0x0100000000000000#64] = .ok (.reset, []) ∧
    decodeCommand [0x0500000001000000#64, 1024#64] = .ok (.run 1024, []) ∧
      decodeCommand [0x0607000001000000#64, 3#64] = .ok (.cfgw 7 3#64, []) ∧
        decodeCommand [0x0E04020101000000#64, 5#64] = .ok (.rdm 4 2 1 5, []) ∧
          decodeCommand [0x6003000001000000#64, 32#64] = .ok (.synChip 3 32, []) ∧
            decodeTag 0x54#8 = some .tagStartInstrument

/-! One step (R73, R371, R377, R413, R454). -/

/-- A step of the idle block accepts the command at the head of its port and runs it: the words are taken, `busy` is up
while the command runs and down after it, and the deadline check comes first (R85, R371, R377).
Where it rests on the model's choice, that is logged as assumptions 41, 106. -/
def Obligations.StepRunsCommand : Prop :=
  ∀ (s : State) (i : Instr) (rest : List Word), s.resetPin = false → s.turn = .engine → s.busy = false →
    decodeCommand s.port = .ok (i, rest) → awaitsPayload i s = false →
      let now := readTime (s.epoch + 1) s.monoTime
      let expired := match s.liveDeadline with
        | none => false
        | some d => d.le now
      let s' : State := { s with
        port := rest
        busy := true
        epoch := s.epoch + 1
        monoTime := now
        liveDeadline := if expired then none else s.liveDeadline
        audioActive := if expired && !s.playing then false else s.audioActive }
      step s = match exec i s' with
        | .next t => .next { t with busy := false }
        | .fault f => .fault f
        | .refused r => .refused r

/-- A step of the codec in its records phase reads the tag under its position and runs that tag's record; a character
that is no tag is a `CodecError` naming it and its position (R413, R440). -/
def Obligations.StepReadsTag : Prop :=
  ∀ (s : State) (ch : Byte), s.resetPin = false → s.turn = .codec → s.codec.status = .records →
    s.codec.text[s.codec.pos]? = some ch →
      (∀ i : Instr, decodeTag ch = some i → step s = exec i s) ∧
      (decodeTag ch = none →
        step s = .next { s with codec := { s.codec with status := .failed (some ch) s.codec.pos } })

/-- A descriptor that fails a check of R454 takes `IllegalCommand`: code 1, the header's upper half as detail, the
announced words consumed, and no state of the engine, the song, the result registers or the control registers 0 to 3
changed (R44, R100, R452, R454).
Where it rests on the model's choice, that is logged as assumptions 41, 106. -/
def Obligations.IllegalCommandIsTaken : Prop :=
  ∀ (s : State) (h : Word) (rest : List Word), s.resetPin = false → s.turn = .engine → s.busy = false →
    s.fault = false → s.port = h :: rest → headerCount h ≤ rest.length →
      (opcodeShape (headerOp h) = none ∨
        ∃ used count, opcodeShape (headerOp h) = some (used, count) ∧
          (headerCount h ≠ count ∨ h.toNat % 2 ^ 24 ≠ 0 ∨ (used < 1 ∧ headerU h ≠ 0) ∨
            (used < 2 ∧ headerV h ≠ 0) ∨ (used < 3 ∧ headerW h ≠ 0))) →
        ∃ t, step s = .next t ∧ t.fault = true ∧ t.faultCode = 1#8 ∧ t.faultInfo.toNat = h.toNat / 2 ^ 32 ∧
          t.port = rest.drop (headerCount h) ∧ t.seq = .idle ∧ t.busy = false ∧ t.r = s.r ∧ t.eng = s.eng ∧
            t.song = s.song ∧ t.playing = s.playing ∧ t.responses = s.responses ∧ t.payload = s.payload ∧
              t.sampleRate = s.sampleRate ∧ t.volume = s.volume ∧
                t.liveDeadlineSeconds = s.liveDeadlineSeconds ∧ t.rngSeed = s.rngSeed ∧ t.codec = s.codec

/-- When a step of the block accepts nothing: with no word, or with a descriptor cut short, the decoder waits; `SONG.LOAD`
and `SONG.SET` wait for their value; a word presented while `busy` waits or is turned away, as the platform's policy
says (R73, R370, R490).
Where it rests on the model's choice, that is logged as assumptions 33, 39. -/
def Obligations.PartialDescriptorWaits : Prop :=
  ∀ s : State, s.resetPin = false → s.turn = .engine →
    (s.busy = false → (s.port = [] ∨ ∃ h rest, s.port = h :: rest ∧ rest.length < headerCount h) →
      step s = .next s) ∧
    (s.busy = false → s.fault = false → s.payload = [] →
      ∀ i rest, (i = Instr.songLoad ∨ i = Instr.songSet) → decodeCommand s.port = .ok (i, rest) → step s = .next s) ∧
    (s.busy = true →
      (Config.cfg.busyPolicy = .stall ∧ step s = .next s) ∨
        (Config.cfg.busyPolicy = .reject ∧ step s = .next { s with port := s.port.drop 1 }))

/-! The fault latch (R452, R456, R457). -/

/-- While the latch is set every command but `RESET` and the four reads leaves the state as it is; a read executes, and
one that would itself raise does nothing; `RESET` clears the latch (R457). -/
def Obligations.FaultIgnoresCommands : Prop :=
  ∀ s : State, s.fault = true →
    (∀ (i : Instr) (op : Nat), i.opcode = some op → op ∉ [0x01, 0x07, 0x0B, 0x0D, 0x0E] → exec i s = .next s) ∧
      (∀ u, ∃ w, exec (.cfgr u) s = .next { s with responses := s.responses ++ [w] }) ∧
        (∀ u, u ≤ 15 → ∃ w, exec (.rdr u) s = .next { s with responses := s.responses ++ [w] }) ∧
          (∀ u, 15 < u → exec (.rdr u) s = .next s) ∧
            (∀ k, k < Config.cfg.workSize →
              ∃ w, exec (.rdw k) s = .next { s with responses := s.responses ++ [w] }) ∧
              (∀ k, Config.cfg.workSize ≤ k → exec (.rdw k) s = .next s) ∧
                (∀ u v w k, 7 < u → exec (.rdm u v w k) s = .next s) ∧
                  (∃ t, exec .reset s = .next t ∧ t.fault = false ∧ t.faultCode = 0#8 ∧ t.faultInfo = 0#32)

/-- Only the first fault since reset is recorded: under a set latch no instruction but `RESET` and no step but one that
runs `RESET` or the reset line changes code or detail, an illegal descriptor included, which is consumed; the host
reads both with `CFGR 5` and `CFGR 6` (R456). -/
def Obligations.FaultKeepsFirst : Prop :=
  let keeps (s t : State) : Prop := t.fault = true ∧ t.faultCode = s.faultCode ∧ t.faultInfo = s.faultInfo
  (∀ (i : Instr) (s t : State), s.fault = true → i ≠ .reset → exec i s = .next t → keeps s t) ∧
    (∀ s t : State, s.fault = true → s.resetPin = false → (∀ rest, decodeCommand s.port ≠ .ok (.reset, rest)) →
      step s = .next t → keeps s t) ∧
    (∀ (s : State) (h : Word) (rest : List Word), s.fault = true → s.resetPin = false → s.turn = .engine →
      s.busy = false → s.port = h :: rest → headerCount h ≤ rest.length → opcodeShape (headerOp h) = none →
        ∃ t, step s = .next t ∧ keeps s t ∧ t.port = rest.drop (headerCount h)) ∧
    (∀ s : State,
      (∃ w : Word, exec (.cfgr 5) s = .next { s with responses := s.responses ++ [w] } ∧
        w.toNat = s.faultCode.toNat) ∧
      (∃ w : Word, exec (.cfgr 6) s = .next { s with responses := s.responses ++ [w] } ∧
        w.toNat = s.faultInfo.toNat))

/-! Invariants (R15, R43, R44, R70). -/

/-- Every step keeps the control invariant: the latch is clear with zeros or set with a code of R453, the control
registers hold legal values, the sequencer is idle and `busy` low, and the song satisfies the rules of the store. -/
def Obligations.ControlInvariantKept : Prop :=
  ∀ s t : State, s.ControlInv → step s = .next t → t.ControlInv

/-- Every step keeps the song legal, that of a `RESET` and of a load or an edit among them, and the clock's bar, beat,
part and tick inside their ranges (R15, R46, R380, R381). That the default song is legal under every configuration is
assumption 8, and that a `RUN` that faults leaves the clock inside its ranges, assumption 37.
Where it rests on the model's choice, that is logged as assumptions 8, 37. -/
def Obligations.ClockInvariantKept : Prop :=
  ∀ s t : State, s.ClockInv → step s = .next t → t.ClockInv

/-- Every step keeps every memory of the block in its canonical form: elements strictly rising, none listed that equals
what an unlisted one reads as (R70; the form is the model's own, assumption 2). -/
def Obligations.MemoryCanonicalKept : Prop :=
  ∀ s t : State, s.eng.Canonical → step s = .next t → t.eng.Canonical

/-- The state after reset has the three invariants. The legality of its song rests on the model's choice to take the
empty song where the configuration's default song is not legal (assumption 8). -/
def Obligations.InvariantsAtReset : Prop :=
  State.reset.ControlInv ∧ State.reset.ClockInv ∧ State.reset.eng.Canonical

/-! System commands (R374 to R379, R480). -/

/-- What `RESET` leaves, in every state: the values of R64 and R480 (the default song as the model reads it,
assumption 8), and the ports, the time and the host's codec as they were. What the platform's reset line leaves: the
same, without the responses that were not taken and without a descriptor that was cut short (R482).
Where it rests on the model's choice, that is logged as assumptions 5, 43, 56. -/
def Obligations.ResetLeaves : Prop :=
  let fresh (t : State) : Prop :=
    (t.fault = false ∧ t.faultCode = 0#8 ∧ t.faultInfo = 0#32) ∧
    (t.playing = false ∧ t.audioActive = false ∧ t.liveDeadline = none ∧ t.busy = false ∧ t.seq = .idle) ∧
    (t.eng.clock.bar = 0 ∧ t.eng.clock.beat = 0 ∧ t.eng.clock.part = 0 ∧ t.eng.clock.tick = 0 ∧
      t.eng.clock.countdownSet = false) ∧
    (t.eng.tones = List.replicate Config.cfg.toneSlots (Tone.zero Config.cfg)) ∧
    ((∀ q ∈ t.eng.activeTones, q = []) ∧ (∀ q ∈ t.eng.releasedTones, q = [])) ∧
    (t.eng.slots = List.replicate t.song.slotCount (Slot.zero Config.cfg)) ∧
    ((∀ k, Memory.getNum t.eng.scratch k = Sys2Proof.Num.zero) ∧ t.eng.limit = Sys2Proof.Num.zero) ∧
    (t.sampleRate.bits = 0x40E5888000000000#64 ∧ t.volume.bits = 0x3FF0000000000000#64 ∧
      t.liveDeadlineSeconds.bits = 0x4024000000000000#64 ∧ t.rngSeed = 0#64) ∧
    (t.song = Config.cfg.initialSong ∧ (∀ k, findWave t.eng.waves k = none) ∧ t.eng.rng = ⟨0#64, 0⟩)
  (∀ s : State, ∃ t, exec .reset s = .next t ∧ fresh t ∧
    (t.port = s.port ∧ t.payload = s.payload ∧ t.responses = s.responses ∧ t.monoTime = s.monoTime ∧
      t.resetPin = s.resetPin ∧ t.turn = s.turn ∧ t.codec = s.codec)) ∧
    (∀ s : State, s.resetPin = true → ∃ t, step s = .next t ∧ fresh t ∧
      (t.payload = s.payload ∧ t.responses = [] ∧ t.monoTime = s.monoTime ∧ t.resetPin = false ∧
        t.turn = s.turn ∧ t.codec = s.codec) ∧
      (s.port = [] → t.port = []) ∧
      (∀ h rest, s.port = h :: rest → rest.length < headerCount h → t.port = []) ∧
      (∀ i, decodeCommand s.port = .ok (i, []) → t.port = s.port))

/-- `PLAY`, `PAUSE` and `LIVE`: their flags, the countdown that `PLAY` gives where it was unspecified, the armed
deadline, and nothing else (R374, R375, R376).
Where it rests on the model's choice, that is logged as assumptions 5, 29. -/
def Obligations.PlaybackControl : Prop :=
  ∀ s : State, s.fault = false →
    (s.playing = true → exec .play s = .next s) ∧
    (s.playing = false → exec .play s = .next { s with
      playing := true
      audioActive := true
      eng := { s.eng with clock := { s.eng.clock with
        samplesPerTick := Config.cfg.samplesPerTickOf s.sampleRate s.song.tempo
        tickSampleCountdown :=
          if s.eng.clock.countdownSet then s.eng.clock.tickSampleCountdown
          else Config.cfg.samplesPerTickOf s.sampleRate s.song.tempo
        countdownSet := true } } }) ∧
    (s.liveDeadline = none → exec .pause s = .next { s with playing := false, audioActive := false }) ∧
    (s.liveDeadline ≠ none → exec .pause s = .next { s with playing := false }) ∧
    exec .live s = .next { s with
      liveDeadline := some (s.monoTime.add s.liveDeadlineSeconds)
      audioActive := true }

/-- A legal `CFGW`: the register takes the value, with the side effects of R45, R61 and R378, and nothing else changes
(R44, R45, R378).
Where it rests on the model's choice, that is logged as assumptions 5, 31, 40. -/
def Obligations.ControlWrite : Prop :=
  ∀ (s : State) (value : Word), s.fault = false →
    let v : Sys2Proof.Num := ⟨value⟩
    (v.isFinite = true → Sys2Proof.Num.zero.lt v = true → ∃ t, exec (.cfgw 0 value) s = .next t ∧
      t = { s with sampleRate := v, eng := t.eng } ∧
      t.eng = { s.eng with
        scratch := t.eng.scratch, tones := t.eng.tones, activeTones := t.eng.activeTones,
        releasedTones := t.eng.releasedTones, slots := t.eng.slots } ∧
      t.eng.tones = List.replicate Config.cfg.toneSlots (Tone.zero Config.cfg) ∧
      (∀ q ∈ t.eng.activeTones, q = []) ∧ (∀ q ∈ t.eng.releasedTones, q = []) ∧
      t.eng.slots = List.replicate s.song.slotCount (Slot.zero Config.cfg) ∧
      ∀ k, Memory.getNum t.eng.scratch k = Sys2Proof.Num.zero) ∧
    (v.isFinite = true → Sys2Proof.Num.zero.le v = true → exec (.cfgw 1 value) s = .next { s with volume := v }) ∧
    (v.isFinite = true → Sys2Proof.Num.zero.le v = true →
      exec (.cfgw 2 value) s = .next { s with liveDeadlineSeconds := v }) ∧
    exec (.cfgw 3 value) s = .next { s with rngSeed := value, eng := { s.eng with rng := ⟨value, 0⟩ } } ∧
    (s.playing = false → value.toNat < s.song.barCount → ∃ t, exec (.cfgw 7 value) s = .next t ∧
      t = { s with eng := t.eng } ∧
      t.eng = { s.eng with
        clock := t.eng.clock, tones := t.eng.tones, activeTones := t.eng.activeTones,
        releasedTones := t.eng.releasedTones } ∧
      t.eng.clock.bar = value.toNat ∧ t.eng.clock.beat = 0 ∧ t.eng.clock.part = 0 ∧ t.eng.clock.tick = 0 ∧
      t.eng.clock.countdownSet = false ∧ (∀ a ∈ t.eng.tones, a.state = .free) ∧
      (∀ q ∈ t.eng.activeTones, q = []) ∧ (∀ q ∈ t.eng.releasedTones, q = []))

/-- An illegal `CFGW` takes `BadConfig` and changes no register (R44, R378). -/
def Obligations.ControlWriteRefused : Prop :=
  ∀ (s : State) (u : Nat) (value : Word), s.fault = false →
    let v : Sys2Proof.Num := ⟨value⟩
    ((4 ≤ u ∧ u ≤ 6) ∨ 8 ≤ u ∨ (u = 0 ∧ (v.isFinite = false ∨ Sys2Proof.Num.zero.lt v = false)) ∨
      ((u = 1 ∨ u = 2) ∧ (v.isFinite = false ∨ Sys2Proof.Num.zero.le v = false)) ∨
      (u = 7 ∧ (s.playing = true ∨ s.song.barCount ≤ value.toNat))) →
      exec (.cfgw u value) s = .next (s.withFault 3#8 (headerInfo (Instr.header (.cfgw u value))))

/-- `CFGR` returns the register in one response word, in every state, and changes nothing else (R44, R379). A NaN may
be returned as any NaN pattern (R7), so the value clauses of the `Num` registers are about the others.
Where it rests on the model's choice, that is logged as assumptions 1, 42. -/
def Obligations.ControlRead : Prop :=
  ∀ (s : State) (u : Nat), ∃ w : Word, exec (.cfgr u) s = .next { s with responses := s.responses ++ [w] } ∧
    (u = 0 → s.sampleRate.isNaN = false → w = s.sampleRate.bits) ∧
    (u = 1 → s.volume.isNaN = false → w = s.volume.bits) ∧
    (u = 2 → s.liveDeadlineSeconds.isNaN = false → w = s.liveDeadlineSeconds.bits) ∧
    (u = 3 → w = s.rngSeed) ∧
    (u = 4 → w.toNat =
      (if s.playing then 2 else 0) + (if s.fault then 4 else 0) + (if s.audioActive then 8 else 0)) ∧
    (u = 5 → w.toNat = s.faultCode.toNat) ∧
    (u = 6 → w.toNat = s.faultInfo.toNat) ∧
    (u = 7 → w = BitVec.ofNat 64 s.eng.clock.bar) ∧
    (u = 8 → w = BitVec.ofNat 64 s.eng.clock.beat) ∧
    (u = 9 → w = BitVec.ofNat 64 s.eng.clock.part) ∧
    (u = 10 → w = BitVec.ofNat 64 s.eng.clock.tick) ∧
    (u = 11 → s.eng.limit.isNaN = false → w = s.eng.limit.bits) ∧
    (12 ≤ u → w = 0#64)

/-! Registers and memories (R382 to R386). -/

/-- `SETR`, opcode 0x0A with one `F` operand, writes one result register and nothing else; `BadIndex` for a number
above 15 (R382). -/
def Obligations.SetResultRegister : Prop :=
  ∀ (s : State) (u : Nat) (v : Sys2Proof.Num), s.fault = false →
    ((Instr.setr u v).opcode = some 0x0A ∧ encode (.setr u v) = [Instr.header (.setr u v), v.bits]) ∧
    (u ≤ 15 → ∃ t, exec (.setr u v) s = .next t ∧ t = { s with r := t.r } ∧ t.result u = some v ∧
      ∀ k, k ≠ u → t.result k = s.result k) ∧
    (15 < u → exec (.setr u v) s = .next (s.withFault 2#8 (headerInfo (Instr.header (.setr u v)))))

/-- `RDR` returns a result register as its pattern (a NaN as some NaN pattern); `BadIndex` for a number above 15
(R383).
Where it rests on the model's choice, that is logged as assumption 1. -/
def Obligations.ReadResultRegister : Prop :=
  ∀ (s : State) (u : Nat),
    (∀ v, s.result u = some v → ∃ w : Word, exec (.rdr u) s = .next { s with responses := s.responses ++ [w] } ∧
      (v.isNaN = false → w = v.bits) ∧ (v.isNaN = true → Sys2Proof.Num.isNaN ⟨w⟩ = true)) ∧
    (u ≤ 15 → ∃ v, s.result u = some v) ∧
    (15 < u → s.fault = false → exec (.rdr u) s = .next (s.withFault 2#8 (headerInfo (Instr.header (.rdr u)))))

/-- `WRW`, opcode 0x0C with an `I` and an `F` operand, writes one element of `WORK` and nothing else; `BadIndex` at or
above `workSize` (R384). -/
def Obligations.WriteWork : Prop :=
  ∀ (s : State) (index : Nat) (v : Sys2Proof.Num), s.fault = false →
    ((Instr.wrw index v).opcode = some 0x0C ∧
      encode (.wrw index v) = [Instr.header (.wrw index v), BitVec.ofNat 64 index, v.bits]) ∧
    (index < Config.cfg.workSize → ∃ t, exec (.wrw index v) s = .next t ∧
      t = { s with eng := { s.eng with work := t.eng.work } } ∧ t.eng.readWork index = v ∧
      ∀ k, k ≠ index → t.eng.readWork k = s.eng.readWork k) ∧
    (Config.cfg.workSize ≤ index →
      exec (.wrw index v) s = .next (s.withFault 2#8 (headerInfo (Instr.header (.wrw index v)))))

/-- `RDW` returns an element of `WORK`, the same as `RDM 0, 0, 0`; `BadIndex` at or above `workSize` (R386). -/
def Obligations.ReadWork : Prop :=
  ∀ (s : State) (index : Nat),
    (index < Config.cfg.workSize → ∃ w : Word,
      exec (.rdw index) s = .next { s with responses := s.responses ++ [w] } ∧
      exec (.rdm 0 0 0 index) s = .next { s with responses := s.responses ++ [w] } ∧
      ((s.eng.readWork index).isNaN = false → w = (s.eng.readWork index).bits)) ∧
    (Config.cfg.workSize ≤ index → s.fault = false →
      exec (.rdw index) s = .next (s.withFault 2#8 (headerInfo (Instr.header (.rdw index)))))

/-- `RDM` returns one element of the space that its selectors name, without side effect: `WORK`, the
outputs, `SCRATCH`, the mix buffers, an instrument's four rings, a string ring, an entry of the wave caches whose
`valid` flag is set; `BadIndex` at or beyond the end of the space, for a selector that names none, for an unknown
space, and for a wave whose flag is clear (R70, R71, R385, R386).
Where it rests on the model's choice, that is logged as assumptions 1, 10, 57. -/
def Obligations.ReadMemory : Prop :=
  ∀ (s : State) (v w index : Nat),
    let c := Config.cfg
    let answers (i : Instr) (y : Word) : Prop := exec i s = .next { s with responses := s.responses ++ [y] }
    let returns (i : Instr) (x : Sys2Proof.Num) : Prop := ∃ y, answers i y ∧ (x.isNaN = false → y = x.bits)
    let refused (i : Instr) : Prop := s.fault = false → exec i s = .next (s.withFault 2#8 (headerInfo i.header))
    let inside (i : Instr) (m : Memory Sys2Proof.Num) (size : Nat) : Prop :=
      (index < size → returns i (Memory.getNum m index)) ∧ (size ≤ index → refused i)
    let wave (i : Instr) (k : WaveKey) (j : Nat) : Prop :=
      (∀ d x, findWave s.eng.waves k = some d → d[j]? = some x → returns i x) ∧
      (∀ d, findWave s.eng.waves k = some d → d.length ≤ j → refused i) ∧ (findWave s.eng.waves k = none → refused i)
    (index < c.workSize → returns (.rdm 0 0 0 index) (s.eng.readWork index)) ∧
    (c.workSize ≤ index → refused (.rdm 0 0 0 index)) ∧
    (index < c.outMax → answers (.rdm 1 0 0 index) (singleResponse (s.eng.readOutL index)) ∧
      answers (.rdm 2 0 0 index) (singleResponse (s.eng.readOutR index))) ∧
    (∀ x : Single, (x.toNat / 2 ^ 23 % 2 ^ 8 ≠ 255 ∨ x.toNat % 2 ^ 23 = 0) → (singleResponse x).toNat = x.toNat) ∧
    (c.outMax ≤ index → refused (.rdm 1 0 0 index) ∧ refused (.rdm 2 0 0 index)) ∧
    inside (.rdm 3 0 0 index) s.eng.scratch (s.eng.runMax c) ∧
    (index < s.eng.mixSize c →
      returns (.rdm 7 0 0 index) (s.eng.readMixL index) ∧ returns (.rdm 7 1 0 index) (s.eng.readMixR index)) ∧
    (s.eng.mixSize c ≤ index → refused (.rdm 7 0 0 index) ∧ refused (.rdm 7 1 0 index)) ∧
    (∀ i, s.eng.slots[v]? = some i →
      inside (.rdm 4 v 0 index) i.panRing (c.panRingSize s.sampleRate) ∧
      inside (.rdm 4 v 1 index) i.chorusRingL (c.chorusRingSize s.sampleRate) ∧
      inside (.rdm 4 v 2 index) i.chorusRingR (c.chorusRingSize s.sampleRate) ∧
      inside (.rdm 4 v 3 index) i.reverbRing reverbRingSize) ∧
    ((s.eng.slots[v]? = none ∨ 3 < w) → refused (.rdm 4 v w index)) ∧
    (∀ a st, s.eng.tones[v]? = some a → a.strings[w]? = some st →
      inside (.rdm 5 v w index) st.ring (c.stringRingSize s.sampleRate)) ∧
    (s.eng.tones[v]? = none → refused (.rdm 5 v w index)) ∧
    (∀ a, s.eng.tones[v]? = some a → a.strings[w]? = none → refused (.rdm 5 v w index)) ∧
    wave (.rdm 6 0 0 index) .sine index ∧ wave (.rdm 6 1 w index) (.chip w) index ∧
    wave (.rdm 6 2 w index) (.noise w) index ∧ wave (.rdm 6 3 w index) (.spectrum w) index ∧
    wave (.rdm 6 4 w index) (.harmonics w) index ∧ wave (.rdm 6 6 0 index) .impulse index ∧
    (index < 12 * (c.spectrumWaveLength + 1) → wave (.rdm 6 5 w index)
      (.drum w (index / (c.spectrumWaveLength + 1))) (index % (c.spectrumWaveLength + 1))) ∧
    (12 * (c.spectrumWaveLength + 1) ≤ index → refused (.rdm 6 5 w index)) ∧
    ((6 < v ∨ ((v = 0 ∨ v = 6) ∧ w ≠ 0)) → refused (.rdm 6 v w index)) ∧
    (∀ u, u ≤ 3 → (v ≠ 0 ∨ w ≠ 0) → refused (.rdm u v w index)) ∧
    ((1 < v ∨ w ≠ 0) → refused (.rdm 7 v w index)) ∧ (∀ u, 7 < u → refused (.rdm u v w index))

/-! The song store (R380, R381). -/

/-- `SONG.LOAD` of a song that the rules of the store and the `algorithms` table accept makes it the song, frees every
tone, resets every instrument slot, invalidates every wave and rewinds the clock, and leaves the rest; of any other
song, or of a value that is no song, it takes `BadConfig` and the song stays (R256, R380).
Where it rests on the model's choice, that is logged as assumptions 5, 29, 32, 33, 83, 89. -/
def Obligations.SongLoad : Prop :=
  ∀ (s : State) (rest : List Payload), s.fault = false →
    let badConfig : State := { s with payload := rest }.withFault 3#8 (headerInfo (Instr.header .songLoad))
    (∀ v, s.payload = .song v :: rest → ∃ t, exec .songLoad s = .next t ∧
      (songAccepted Config.cfg v = true → t = { s with song := v, payload := rest, eng := t.eng } ∧
        s.restarted v t.eng) ∧
      (songAccepted Config.cfg v = false → t = badConfig)) ∧
    (∀ e, s.payload = .edit e :: rest → exec .songLoad s = .next badConfig)

/-- `SONG.SET`: an edit that the rules of the store accept changes the field that its path names. A song-level setting
changes alone; a count field resizes the lists, each entry that stays keeping its contents, and restarts as a load
does; an edit of a bar or of a pattern frees the
tones of that channel and of no other; a new `kind` frees the tones of that instrument and resets its slot; a control
point clears the flag of the wave built from it; a new list of channels does these for every channel and slot of it and
leaves the clock and every other wave. An edit that is not accepted, a path that names no channel, bar, pattern or
instrument, and a value that is no edit take `BadConfig` and the song stays (R86, R87, R381).
Where it rests on the model's choice, that is logged as assumptions 33, 34, 79, 89. -/
def Obligations.SongSet : Prop :=
  ∀ (s : State) (rest : List Payload), s.fault = false →
    let c := Config.cfg
    let badConfig : State := { s with payload := rest }.withFault 3#8 (headerInfo (Instr.header .songSet))
    let sets (ed : SongEdit) (song : Song) (good : Engine → Prop) : Prop :=
      s.payload = .edit ed :: rest → ∃ t, exec .songSet s = .next t ∧
        (songAccepted c song = true → t = { s with song := song, payload := rest, eng := t.eng } ∧ good t.eng) ∧
        (songAccepted c song = false → t = badConfig)
    let frees (p : Tone → Prop) (e : Engine) : Prop :=
      ∀ (u : Nat) (a : Tone), s.eng.tones[u]? = some a → ∃ b : Tone, e.tones[u]? = some b ∧
        (p a → b.state = .free) ∧ (¬ p a → b = a)
    let queues (e : Engine) : Engine := { s.eng with
      tones := e.tones, activeTones := e.activeTones, releasedTones := e.releasedTones }
    (∀ (v : Nat) (ed : SongEdit) (song : Song), (ed, song) ∈ [(SongEdit.tempo v, { s.song with tempo := v }),
        (.key v, { s.song with key := v }), (.scale v, { s.song with scale := v }),
        (.rhythm v, { s.song with rhythm := v }), (.loopStart v, { s.song with loopStart := v }),
        (.loopLength v, { s.song with loopLength := v })] → sets ed song (fun e => e = s.eng)) ∧
    (∀ (v : Nat) (ed : SongEdit) (song : Song), (ed, song) ∈ [(SongEdit.barCount v, { s.song with barCount := v }),
        (.beatsPerBar v, { s.song with beatsPerBar := v }),
        (.patternsPerChannel v, { s.song with patternsPerChannel := v }),
        (.instrumentsPerChannel v, { s.song with instrumentsPerChannel := v }),
        (.pitchChannelCount v, { s.song with pitchChannelCount := v }),
        (.noiseChannelCount v, { s.song with noiseChannelCount := v })] →
      let sized := resizeCounts c.initialSong s.song song
      sized = { song with channels := sized.channels } ∧
      sized.channels.length = song.pitchChannelCount + song.noiseChannelCount ∧
      (∀ ch ∈ sized.channels, ch.bars.length = song.barCount ∧ ch.patterns.length = song.patternsPerChannel ∧
        ch.instruments.length = song.instrumentsPerChannel) ∧
      (∀ (n m : Nat) (ch : Channel), s.song.channels[n]? = some ch →
        ((n < s.song.pitchChannelCount ∧ n < song.pitchChannelCount ∧ m = n) ∨
          (s.song.pitchChannelCount ≤ n ∧ n - s.song.pitchChannelCount < song.noiseChannelCount ∧
            m = song.pitchChannelCount + (n - s.song.pitchChannelCount))) →
        ∃ new, sized.channels[m]? = some new ∧
          new = { ch with instruments := new.instruments, patterns := new.patterns, bars := new.bars } ∧
          (∀ j, j < song.instrumentsPerChannel → j < ch.instruments.length → new.instruments[j]? = ch.instruments[j]?) ∧
          (∀ j, j < song.patternsPerChannel → j < ch.patterns.length → new.patterns[j]? = ch.patterns[j]?) ∧
          (∀ j, j < song.barCount → j < ch.bars.length → new.bars[j]? = ch.bars[j]?)) ∧
      sets ed sized (s.restarted sized)) ∧
    (∀ l : List Channel, sets (.channels l) { s.song with channels := l } (fun e =>
      let slots := l.length * s.song.instrumentsPerChannel
      e = { queues e with slots := e.slots, waves := e.waves } ∧
      frees (fun a => a.channel < l.length ∨ a.instrument < slots) e ∧
      e.slots = s.eng.slots.mapIdx (fun u i => if u < slots then Slot.zero c else i) ∧
      ∀ k, ((∃ u, u < slots ∧ slotWave u k = true) → findWave e.waves k = none) ∧
        ((∀ u, u < slots → slotWave u k = false) → findWave e.waves k = findWave s.eng.waves k))) ∧
    (∀ (n i : Nat) (ch : Channel), s.song.channels[n]? = some ch →
      (∀ v, i < ch.bars.length → sets (.channel n (.bar i v))
        { s.song with channels := s.song.channels.set n { ch with bars := ch.bars.set i v } }
        (fun e => e = queues e ∧ frees (fun a => a.channel = n) e)) ∧
      (∀ v, i < ch.patterns.length → sets (.channel n (.pattern i v))
        { s.song with channels := s.song.channels.set n { ch with patterns := ch.patterns.set i v } }
        (fun e => e = queues e ∧ frees (fun a => a.channel = n) e)) ∧
      (∀ ins : Instrument, ch.instruments[i]? = some ins →
        let slot := n * s.song.instrumentsPerChannel + i
        let changed (j : Instrument) : Song :=
          { s.song with channels := s.song.channels.set n { ch with instruments := ch.instruments.set i j } }
        let clears (p : WaveKey → Prop) (e : Engine) : Prop := e = { s.eng with waves := e.waves } ∧
          ∀ k, (p k → findWave e.waves k = none) ∧ (¬ p k → findWave e.waves k = findWave s.eng.waves k)
        (∀ v, sets (.channel n (.instrumentField i (.scalar .kind v))) (changed { ins with kind := v })
          (fun e => e = { queues e with slots := s.eng.slots.set slot (Slot.zero c) } ∧
            frees (fun a => a.instrument = slot) e)) ∧
        (∀ v, sets (.channel n (.instrumentField i (.scalar .volume v))) (changed { ins with volume := v })
          (fun e => e = s.eng)) ∧
        (∀ p v, p < ins.spectrumWave.length → sets (.channel n (.instrumentField i (.spectrumPoint p v)))
          (changed { ins with spectrumWave := ins.spectrumWave.set p v }) (clears (fun k => k = .spectrum slot))) ∧
        (∀ p v, p < ins.harmonicsWave.length → sets (.channel n (.instrumentField i (.harmonicsPoint p v)))
          (changed { ins with harmonicsWave := ins.harmonicsWave.set p v }) (clears (fun k => k = .harmonics slot))) ∧
        (∀ d v, d < ins.drumSpectrumWaves.length → sets (.channel n (.instrumentField i (.drumSpectrumWave d v)))
          (changed { ins with drumSpectrumWaves := ins.drumSpectrumWaves.set d v })
          (clears (fun k => k = .drum slot d))))) ∧
    (∀ (n : Nat) (ed : ChannelEdit), s.song.channels.length ≤ n → s.payload = .edit (.channel n ed) :: rest →
      exec .songSet s = .next badConfig) ∧
    (∀ (n i : Nat) (ch : Channel) (ed : ChannelEdit), s.song.channels[n]? = some ch →
      ((∃ v, ed = .bar i v ∧ ch.bars.length ≤ i) ∨
        ((∃ v, ed = .pattern i v) ∨ ∃ e, ed = .patternField i e) ∧ ch.patterns.length ≤ i ∨
        ((∃ v, ed = .instrument i v) ∨ ∃ e, ed = .instrumentField i e) ∧ ch.instruments.length ≤ i) →
      s.payload = .edit (.channel n ed) :: rest → exec .songSet s = .next badConfig) ∧
    (∀ v, s.payload = .song v :: rest → exec .songSet s = .next badConfig)

/-! `RUN` (R330 to R335). -/

/-- How a `RUN` ends: `N = 0` does nothing; `N > outMax` takes `BadOperand`; a block that plays completes, or takes the
`UnknownInstrument` (5) or the `UnknownEnvelope` (6) of a tone update, with the instrument's or the tone's slot and the
kind as its detail, or the `ToneOverflow` (7) of `SYNC.TONES` with a channel as its detail, and then `SCRATCH` is all 0
(R40, R345, R453, R455; that the detail of 7 is the channel, assumption 35; that a faulted run leaves `SCRATCH` so,
assumption 37); a paused block refuses the step or renders silence in `[0, N)` as the platform's policy says; and no
`RUN` writes a result register, the song, a control register or a response (R12, R105, R332; the policy is the
configuration's, assumption 38).
What a `RUN` does whose `N` is one run length: on a mix of zeros, `SYNC.TONES` of every channel; slot by slot
`TONE.COMPUTE` and the synth loop of each tone and `FX.RUN` of the slot if it is awake; `LIMIT` of each sample of the
mix, rounded into the outputs; `CLK.ADV`. Where these commands take no fault, it leaves the engine as they do, but for
`WORK`, which is open after it (R330, R331, R333, R334, R336; assumption 3). -/
def Obligations.RunOutcomes : Prop :=
  ∀ (s : State) (n : Nat), s.fault = false →
    exec (.run 0) s = .next s ∧
    (Config.cfg.outMax < n → exec (.run n) s = .next (s.withFault 4#8 (headerInfo (Instr.header (.run n))))) ∧
    (0 < n → n ≤ Config.cfg.outMax → s.playing = true →
      (∃ e, exec (.run n) s = .next { s with eng := e }) ∨
        ∃ e code info, exec (.run n) s = .next ({ s with eng := e }.withFault code info) ∧
          (∀ k, Memory.getNum e.scratch k = Sys2Proof.Num.zero) ∧
          ((code = 5#8 ∧ ∃ i ins, slotInstrument s.song i = some ins ∧ 8 ≤ ins.kind ∧
              info = BitVec.ofNat 32 (i % 2 ^ 16 + ins.kind % 2 ^ 8 * 2 ^ 16)) ∨
            (code = 6#8 ∧ ∃ u k, u < s.eng.tones.length ∧ 9 ≤ (Config.cfg.envelopes.get k).kind ∧
              info = BitVec.ofNat 32 (u % 2 ^ 16 + (Config.cfg.envelopes.get k).kind % 2 ^ 8 * 2 ^ 16)) ∨
            (code = 7#8 ∧ ∃ c, c < s.song.channelCount ∧ info = BitVec.ofNat 32 (c % 2 ^ 16)))) ∧
    (0 < n → n ≤ Config.cfg.outMax → s.playing = false →
      (Config.cfg.pausedRunPolicy = .refuse ∧ exec (.run n) s = .refused .runWhilePaused) ∨
        (Config.cfg.pausedRunPolicy = .silence ∧ ∃ e, exec (.run n) s = .next { s with eng := e } ∧
          e = { s.eng with
            work := e.work, workEpoch := e.workEpoch, mixL := e.mixL, mixR := e.mixR, mixEpoch := e.mixEpoch
            outL := e.outL, outR := e.outR, outEpoch := e.outEpoch } ∧
          ∀ j, j < n → e.readOutL j = 0#32 ∧ e.readOutR j = 0#32)) ∧
    (0 < n → n ≤ Config.cfg.outMax → s.playing = true → n ≤ ceilCount s.eng.clock.tickSampleCountdown →
      n ≤ s.eng.runMax Config.cfg →
      let s0 : State := { s with eng := openBuffers (s.ctx Config.cfg (.run n)) n s.eng }
      let t := s0.oneRun n
      (∀ j, j < n → s0.eng.readMixL j = Sys2Proof.Num.zero ∧ s0.eng.readMixR j = Sys2Proof.Num.zero) ∧
        (t.fault = false →
          exec (.run n) s = .next { s with eng := { t.eng with work := [], workEpoch := s.epoch } })) ∧
    (∀ t, exec (.run n) s = .next t →
      t = { s with
        eng := t.eng, fault := t.fault, faultCode := t.faultCode, faultInfo := t.faultInfo, seq := t.seq,
        busy := t.busy })

/-- A song without notes plays exact silence: from `limit = 0`, with no tone sounding and no slot awake, `RUN` fills
every output element with a zero, keeps `limit` at 0, takes no fault, and leaves the block as silent as it was. The
countdown may be any value: that a run is at least one sample long is the model's choice (R330, R334, R335;
assumption 37). -/
def Obligations.RunOfSilentSong : Prop :=
  ∀ (s : State) (n : Nat), s.fault = false → s.playing = true → 1 ≤ n → n ≤ Config.cfg.outMax →
    s.controlsLegal → s.eng.limit = Sys2Proof.Num.zero → s.Silent →
      ∃ t, exec (.run n) s = .next t ∧ t = { s with eng := t.eng } ∧ t.Silent ∧
        t.eng.limit = Sys2Proof.Num.zero ∧
        ∀ j, j < n → ∃ l r, Memory.find t.eng.outL j = some l ∧ Memory.find t.eng.outR j = some r ∧
          l.toNat % 2 ^ 31 = 0 ∧ r.toNat % 2 ^ 31 = 0

/-! Transform and waves (R131 to R140). -/

/-- `IFFT` of a power of two from 2 to `workSize` changes those elements of `WORK` alone. Of finite inputs every output
lies within the bound of R132 (a) of the sum of R131, or is that sum rounded once (where no value is near enough), or
no value is; an all-zero input gives an all-zero output. Every other size takes `BadOperand` with `WORK` unchanged
(R131, R132).
Where it rests on the model's choice, that is logged as assumption 14. -/
def Obligations.InverseTransform : Prop :=
  ∀ (s : State) (n : Nat), s.fault = false →
    let inputs := s.eng.workPrefix n
    let units := inputs.map Sys2Proof.Num.units
    let exact (j : Nat) : Int := exactSum n (circle n) units j
    let rounded (j : Nat) : Sys2Proof.Num :=
      Sys2Proof.Num.round (decide (exact j < 0)) (exact j).natAbs (-(1074 + 256))
    let near (j : Nat) (y : Sys2Proof.Num) : Prop := withinBound n (exact j) (magnitudeSum units) y = true
    (∀ k, n = 2 ^ k → 2 ≤ n → n ≤ Config.cfg.workSize → ∃ t, exec (.ifft n) s = .next t ∧
      t = { s with eng := { s.eng with work := t.eng.work } } ∧
      (∀ j, n ≤ j → t.eng.readWork j = s.eng.readWork j) ∧
      (inputs.all Sys2Proof.Num.isFinite = true → ∀ j, j < n →
        near j (t.eng.readWork j) ∨ ((rounded j).isFinite = true ∧ t.eng.readWork j = rounded j) ∨
          ((rounded j).isFinite = false ∧ ¬ near j (Sys2Proof.Num.largest (decide (exact j < 0))))) ∧
      ((∀ j, j < n → (s.eng.readWork j).eq Sys2Proof.Num.zero = true) →
        ∀ j, j < n → (t.eng.readWork j).eq Sys2Proof.Num.zero = true)) ∧
    ((n < 2 ∨ Config.cfg.workSize < n ∨ ∀ k, n ≠ 2 ^ k) →
      exec (.ifft n) s = .next (s.withFault 4#8 (headerInfo (Instr.header (.ifft n)))))

/-- The builders that need no transform: the sine table with element 0 repeated at its end, the running sums of a chip
wave, the samples of a noise wave with element 0 repeated, the impulse wave. Each makes its entry valid and changes no
other entry and nothing else but `WORK`, which is open after it; an id outside the table takes `BadIndex` (R77, R134,
R135, R136, R139; of the sine table's last element, assumption 62, of `WORK`, assumption 107, of
the impulse wave's length, assumption 109). -/
def Obligations.TableWaves : Prop :=
  ∀ (s : State) (u : Nat), s.fault = false →
    let builds (i : Instr) (k : WaveKey) (good : List Sys2Proof.Num → Prop) : Prop :=
      ∃ t d, exec i s = .next t ∧
        t = { s with eng := { s.eng with waves := t.eng.waves, work := [], workEpoch := s.epoch } } ∧
        findWave t.eng.waves k = some d ∧ good d ∧ ∀ k', k' ≠ k → findWave t.eng.waves k' = findWave s.eng.waves k'
    builds .waveSine .sine (fun d => d.length = Config.cfg.sineWaveLength + 1 ∧
      d[Config.cfg.sineWaveLength]? = d[0]? ∧
      ∀ i, i < Config.cfg.sineWaveLength → d[i]? = some (Config.cfg.sinOf
        ((twoPiTimes (Sys2Proof.Num.ofNat i)).div (Sys2Proof.Num.ofNat Config.cfg.sineWaveLength)))) ∧
    (u < Config.cfg.chipWaves.length → builds (.waveChip u) (.chip u) (fun d =>
      d.length = (Config.cfg.chipSamples u).length + 1 ∧ d[0]? = some Sys2Proof.Num.zero ∧
      ∀ i x y, d[i]? = some x → (Config.cfg.chipSamples u)[i]? = some y → d[i + 1]? = some (x.add y))) ∧
    (u < Config.cfg.noiseWaveCount → builds (.waveNoise u) (.noise u) (fun d =>
      d.length = (Config.cfg.noiseSamples u).length + 1 ∧ d[(Config.cfg.noiseSamples u).length]? = d[0]? ∧
      ∀ i, i < (Config.cfg.noiseSamples u).length → d[i]? = (Config.cfg.noiseSamples u)[i]?)) ∧
    builds .waveImpulse .impulse (fun d => d = Config.cfg.impulseSamples) ∧
    (Config.cfg.chipWaves.length ≤ u →
      exec (.waveChip u) s = .next (s.withFault 2#8 (headerInfo (Instr.header (.waveChip u))))) ∧
    (Config.cfg.noiseWaveCount ≤ u →
      exec (.waveNoise u) s = .next (s.withFault 2#8 (headerInfo (Instr.header (.waveNoise u)))))

/-- The builders that use the transform: `WAVE.SPECTRUM` for a spectrum instrument and for a drum of a drumset, and
`WAVE.HARMONICS`. `WORK` is filled with the bins of the instrument's control points and transformed as `IFFT` does; a
spectrum's entry is `WORK` with element 0 repeated at the end, a harmonics table the running sums of `WORK` from 0. No
other entry changes, and nothing else but `WORK` below the wave's length. Operands that name no such wave take
`BadIndex` (R131, R137, R138). -/
def Obligations.SpectralWaves : Prop :=
  ∀ (s : State) (u v : Nat) (ins : Instrument), s.fault = false → slotInstrument s.song u = some ins →
    let c := Config.cfg
    let builds (i : Instr) (k : WaveKey) (bins : List Sys2Proof.Num) (n : Nat)
        (good : (Nat → Sys2Proof.Num) → List Sys2Proof.Num → Prop) : Prop :=
      bins.length = n ∧ ∃ t t1 d, exec i s = .next t ∧
        exec (.ifft n) { s with eng := s.eng.fillWork bins } = .next t1 ∧ t1.fault = false ∧
        t = { s with eng := { s.eng with waves := t.eng.waves, work := t1.eng.work } } ∧
        findWave t.eng.waves k = some d ∧ d.length = n + 1 ∧ good t1.eng.readWork d ∧
        (∀ k', k' ≠ k → findWave t.eng.waves k' = findWave s.eng.waves k') ∧
        ∀ j, n ≤ j → t.eng.readWork j = s.eng.readWork j
    let closed (n : Nat) (work : Nat → Sys2Proof.Num) (d : List Sys2Proof.Num) : Prop :=
      (∀ j, j < n → d[j]? = some (work j)) ∧ d[n]? = d[0]?
    let refused (i : Instr) : Prop := exec i s = .next (s.withFault 2#8 (headerInfo i.header))
    (ins.kind = kindSpectrum → builds (.waveSpectrum u 0xFF) (.spectrum u) (c.spectrumBins ins.spectrumWave)
      c.spectrumWaveLength (closed c.spectrumWaveLength)) ∧
    (ins.kind = kindDrumset → v < 12 → builds (.waveSpectrum u v) (.drum u v)
      (c.spectrumBins (ins.drumSpectrumWaves.getD v [])) c.spectrumWaveLength (closed c.spectrumWaveLength)) ∧
    (ins.kind = kindHarmonics → builds (.waveHarmonics u) (.harmonics u) (c.harmonicsBins ins.harmonicsWave)
      c.harmonicsWaveLength (fun work d => d[0]? = some Sys2Proof.Num.zero ∧
        ∀ j x, j < c.harmonicsWaveLength → d[j]? = some x → d[j + 1]? = some (x.add (work j)))) ∧
    (∀ l : List Nat, (∀ p ∈ l, p = 0) →
      (∀ y ∈ c.spectrumBins l, y = Sys2Proof.Num.zero) ∧ (∀ y ∈ c.harmonicsBins l, y = Sys2Proof.Num.zero)) ∧
    (ins.kind ≠ kindSpectrum → refused (.waveSpectrum u 0xFF)) ∧
    (v ≠ 0xFF → (12 ≤ v ∨ ins.kind ≠ kindDrumset) → refused (.waveSpectrum u v)) ∧
    (ins.kind ≠ kindHarmonics → refused (.waveHarmonics u)) ∧
    (∀ u', slotInstrument s.song u' = none → refused (.waveSpectrum u' v) ∧ refused (.waveHarmonics u'))

/-- `WAVE.INVAL` clears the `valid` flag of every wave cache entry and changes nothing else (R140). -/
def Obligations.WaveInvalidate : Prop :=
  ∀ s : State, s.fault = false → ∃ t, exec .waveInval s = .next t ∧
    t = { s with eng := { s.eng with waves := t.eng.waves } } ∧
    (∀ w ∈ t.eng.waves, w.valid = false) ∧ t.eng.waves.map WaveEntry.key = s.eng.waves.map WaveEntry.key

/-! Filters (R151 to R167). -/

/-- The first-order helpers: for every operand the six results are written and nothing else; inside the domain
`0 < ω < π` the set has the poles, the symmetries and the gains of R156, R157, R161, R162 (the gains up to the rounding
of the coefficients, assumption 12), and `COEF.FDAP` is the formula of R163 from its limit `d = −1` up.
Where it rests on the model's choice, that is logged as assumptions 12, 13, 110. -/
def Obligations.FirstOrderCoefficients : Prop :=
  ∀ (s : State) (ω g : Sys2Proof.Num), s.fault = false →
    let gives (i : Instr) (dom : Bool) (good : CoefSet → Prop) : Prop :=
      ∃ t k, exec i s = .next t ∧ s.onlyResults t 6 ∧ t.showsCoefs k 1 ∧ (dom = true → good k)
    let first (k : CoefSet) : Prop :=
      k.a1.abs.lt Sys2Proof.Num.one = true ∧ k.a2 = Sys2Proof.Num.zero ∧ k.b2 = Sys2Proof.Num.zero
    gives (.coefLp1 ω) (inOmegaDomain ω) (fun k => first k ∧ k.b0 = k.b1 ∧ k.gainAtZero Sys2Proof.Num.one = true) ∧
    gives (.coefHp1 ω) (inOmegaDomain ω) (fun k => first k ∧ k.b1 = k.b0.neg ∧
      k.gainAtNyquist Sys2Proof.Num.one = true) ∧
    gives (.coefHshelf1 ω g) (inOmegaDomain ω && Sys2Proof.Num.zero.lt g) (fun k => first k ∧
      ((k.gainAtZero Sys2Proof.Num.one = true ∧ k.gainAtNyquist g = true) ∨
        k = firstOrder Sys2Proof.Num.zero ((Sys2Proof.Num.one.add g).mul Sys2Proof.Num.half)
          ((Sys2Proof.Num.one.sub g).mul Sys2Proof.Num.half))) ∧
    gives (.coefAp1 ω) (inOmegaDomain ω) (fun k => first k ∧
      ((k.b0 = k.a1 ∧ k.b1 = Sys2Proof.Num.one) ∨ (k.b0 = k.a1.neg ∧ k.b1 = Sys2Proof.Num.one.neg))) ∧
    gives (.coefFdap ω) (!ω.lt Sys2Proof.Num.one.neg) (fun k =>
      k.a1 = (Sys2Proof.Num.one.sub ω).div (Sys2Proof.Num.one.add ω) ∧ k.b0 = k.a1 ∧ k.b1 = Sys2Proof.Num.one ∧
        k.a2 = Sys2Proof.Num.zero ∧ k.b2 = Sys2Proof.Num.zero)

/-- The second-order helpers: for every operand the six results are written and nothing else; inside the domain both
poles lie inside the unit circle, a lowpass and a highpass have their gains at zero frequency and at Nyquist, a peak
has unit gain at both and its gain at the corner (or is the model's stand-in for a set that has not, assumption 12),
and a peak of gain 1 is the identity filter (R158, R159, R160). -/
def Obligations.SecondOrderCoefficients : Prop :=
  ∀ (s : State) (ω g : Sys2Proof.Num), s.fault = false →
    let gives (i : Instr) (good : CoefSet → Prop) : Prop :=
      ∃ t k, exec i s = .next t ∧ s.onlyResults t 6 ∧ t.showsCoefs k 2 ∧
        (inOmegaDomain ω = true → Sys2Proof.Num.zero.lt g = true → good k)
    let stable (k : CoefSet) : Prop :=
      k.a2.abs.lt Sys2Proof.Num.one = true ∧ k.a1.abs.lt (Sys2Proof.Num.one.add k.a2) = true
    gives (.coefLp2 ω g) (fun k => stable k ∧ k.gainAtZero Sys2Proof.Num.one = true ∧
      k.gainAtNyquist Sys2Proof.Num.zero = true) ∧
    gives (.coefHp2 ω g) (fun k => stable k ∧ k.gainAtZero Sys2Proof.Num.zero = true ∧
      k.gainAtNyquist Sys2Proof.Num.one = true) ∧
    gives (.coefPeak ω g) (fun k => stable k ∧
      (g.eq Sys2Proof.Num.one = true → k.b0 = Sys2Proof.Num.one ∧ k.b1 = k.a1 ∧ k.b2 = k.a2) ∧
      (g.eq Sys2Proof.Num.one = false →
        (k.gainAtZero Sys2Proof.Num.one = true ∧ k.gainAtNyquist Sys2Proof.Num.one = true ∧
          k.gainAtCorner ω g = true) ∨ k = plainPeak Config.cfg ω g))

/-- `FPT.HZ`, `FPT.GAIN` and `VOLCOMP` leave their value in `r[0]` and change nothing else; a setting out of range takes
`BadOperand` (R165, R166, R167).
Where it rests on the model's choice, that is logged as assumptions 11, 60, 96, 97. -/
def Obligations.FilterPoints : Prop :=
  ∀ (s : State) (kind freq gain : Nat), s.fault = false →
    let c := Config.cfg
    let gives (i : Instr) (x : Sys2Proof.Num) : Prop :=
      ∃ t, exec i s = .next t ∧ s.onlyResults t 1 ∧ t.result 0 = some x
    let refused (i : Instr) : Prop := exec i s = .next (s.withFault 4#8 (headerInfo i.header))
    (freq < c.filterFreqRange → gives (.fptHz freq) (c.filterMaxHz.mul
      (c.exp2Of (((Sys2Proof.Num.ofNat freq).sub (Sys2Proof.Num.ofNat (c.filterFreqRange - 1))).mul
        c.filterFreqStep)))) ∧
    (c.filterFreqRange ≤ freq → refused (.fptHz freq)) ∧
    (gain < c.filterGainRange → gives (.fptGain gain)
      (c.exp2Of (((Sys2Proof.Num.ofNat gain).sub (Sys2Proof.Num.ofNat c.filterGainCenter)).mul c.filterGainStep))) ∧
    (c.filterGainRange ≤ gain → refused (.fptGain gain)) ∧
    (kind ≤ 2 → freq < c.filterFreqRange → gain < c.filterGainRange →
      ∃ x, x.isFinite = true ∧ Sys2Proof.Num.zero.lt x = true ∧ gives (.volcomp kind freq gain) x) ∧
    ((2 < kind ∨ c.filterFreqRange ≤ freq ∨ c.filterGainRange ≤ gain) → refused (.volcomp kind freq gain))

/-- `BQ.LOADGRAD` and `BQ.STEP` on the biquad that the selectors name, in each of the four banks: the coefficients and
deltas of R151 with the history untouched; the output of R152 in `r[0]`, the shifted history and the advanced
coefficients. The tone or the slot keeps every other field, and no other tone, slot, register or memory changes;
selectors that name no biquad take `BadIndex` (R104, R151, R152).
Where it rests on the model's choice, that is logged as assumption 36. -/
def Obligations.BiquadOperations : Prop :=
  ∀ (s : State) (v w : Nat) (a b : CoefSet) (n x : Sys2Proof.Num), s.fault = false →
    let loaded (f : Biquad) : Biquad := { f with
      a1 := a.a1, a2 := a.a2, b0 := a.b0, b1 := a.b1, b2 := a.b2
      a1Delta := (b.a1.sub a.a1).mul n, a2Delta := (b.a2.sub a.a2).mul n, b0Delta := (b.b0.sub a.b0).mul n
      b1Delta := (b.b1.sub a.b1).mul n, b2Delta := (b.b2.sub a.b2).mul n }
    let output (f : Biquad) : Sys2Proof.Num :=
      ((((f.b0.mul x).add (f.b1.mul f.in1)).add (f.b2.mul f.in2)).sub (f.a1.mul f.out1)).sub (f.a2.mul f.out2)
    let stepped (f : Biquad) : Biquad := { f with
      in1 := x, in2 := f.in1, out1 := output f, out2 := f.out1
      a1 := f.a1.add f.a1Delta, a2 := f.a2.add f.a2Delta, b0 := f.b0.add f.b0Delta
      b1 := f.b1.add f.b1Delta, b2 := f.b2.add f.b2Delta }
    let works (u : Nat) (f : Biquad) (put : Biquad → Engine) : Prop :=
      exec (.bqLoadgrad u v w a b n) s = .next { s with eng := put (loaded f) } ∧
      ∃ t, exec (.bqStep u v w x) s = .next t ∧ t = { s with r := t.r, eng := put (stepped f) } ∧
        t.result 0 = some (output f) ∧ ∀ k, k ≠ 0 → t.result k = s.result k
    (∀ (t : Tone) (f : Biquad), s.eng.tones[v]? = some t → t.filters[w]? = some f → works 0 f (fun g =>
      { s.eng with tones := s.eng.tones.set v { t with filters := t.filters.set w g } })) ∧
    (∀ (i : Slot) (f : Biquad), s.eng.slots[v]? = some i → i.fxFilters[w]? = some f → works 1 f (fun g =>
      { s.eng with slots := s.eng.slots.set v { i with fxFilters := i.fxFilters.set w g } })) ∧
    (∀ (t : Tone) (z : StringState), s.eng.tones[v]? = some t → t.strings[w]? = some z →
      works 2 z.dispersion (fun g => { s.eng with
        tones := s.eng.tones.set v { t with strings := t.strings.set w { z with dispersion := g } } }) ∧
      works 3 z.shelf (fun g => { s.eng with
        tones := s.eng.tones.set v { t with strings := t.strings.set w { z with shelf := g } } })) ∧
    (∀ u, biquadAt s.eng u v w = none →
      exec (.bqLoadgrad u v w a b n) s =
        .next (s.withFault 2#8 (headerInfo (Instr.header (.bqLoadgrad u v w a b n)))) ∧
      exec (.bqStep u v w x) s = .next (s.withFault 2#8 (headerInfo (Instr.header (.bqStep u v w x))))) ∧
    (∀ u, 3 < u → biquadAt s.eng u v w = none) ∧
    (s.eng.tones[v]? = none → ∀ u, u = 0 ∨ u = 2 ∨ u = 3 → biquadAt s.eng u v w = none) ∧
    (s.eng.slots[v]? = none → biquadAt s.eng 1 v w = none)

/-! Envelopes and scalar helpers (R181 to R198, R214). -/

/-- The nine curves: each leaves its value in `r[0]` and changes nothing else, for every operand; the value is the
formula of its rule, for the curves with a domain on operands that are no NaN and not negative (R181 to R189).
Where it rests on the model's choice, that is logged as assumptions 15, 17, 85. -/
def Obligations.EnvelopeCurves : Prop :=
  ∀ (s : State) (t b v e : Sys2Proof.Num), s.fault = false →
    let c := Config.cfg
    let inside (x : Sys2Proof.Num) : Prop := x.isNaN = false ∧ x.lt Sys2Proof.Num.zero = false
    let gives (i : Instr) (dom : Prop) (x : Sys2Proof.Num) : Prop :=
      ∃ s', exec i s = .next s' ∧ s.onlyResults s' 1 ∧ (dom → s'.result 0 = some x)
    let one := Sys2Proof.Num.one
    let cosine := c.cosOf (((Sys2Proof.Num.twoPi).mul b).mul v)
    let attack := quarter.div v.sqrt
    gives (.envSteady t b v e) True one ∧
    gives (.envCustom t b v e) True e ∧
    gives (.envTwang t b v e) (inside t ∧ inside v) (one.div (one.add (t.mul v))) ∧
    gives (.envSwell t b v e) (inside t ∧ inside v) (one.sub (one.div (one.add (t.mul v)))) ∧
    gives (.envTremolo t b v e) (inside b ∧ inside v) (Sys2Proof.Num.half.sub (Sys2Proof.Num.half.mul cosine)) ∧
    gives (.envTremolo2 t b v e) (inside b ∧ inside v) (threeQuarters.sub (quarter.mul cosine)) ∧
    gives (.envPunch t b v e) (inside t)
      (Sys2Proof.Num.max one (Sys2Proof.Num.two.sub ((Sys2Proof.Num.ofNat 10).mul t))) ∧
    gives (.envFlare t b v e) (inside t ∧ inside v)
      (if t.lt attack then t.div attack else one.div (one.add ((t.sub attack).mul v))) ∧
    gives (.envDecay t b v e) (inside t ∧ inside v) (c.exp2Of (v.mul t).neg)

/-- `LFO`, `EXPR`, `RELSCALE`, `VIB.RAMP`, `PITCH.HZ` and `ARP.INDEX` leave one value in `r[0]` and change nothing else:
`LFO` sums the sines over the vibrato's positive periods, `EXPR` gives 0 at 0 and 1 at 3, `RELSCALE` 0 where
`releaseTicks ≤ 0`, `ARP.INDEX` an index below the pitch count; an `LFO` outside the table takes `BadIndex`, an
`ARP.INDEX` out of range `BadOperand` (R193, R194, R196, R197, R198, R214).
Where it rests on the model's choice, that is logged as assumptions 9, 11, 15. -/
def Obligations.VoiceHelpers : Prop :=
  ∀ (s : State) (u n rhythm k : Nat) (x y : Sys2Proof.Num), s.fault = false →
    let c := Config.cfg
    let gives (i : Instr) (good : Sys2Proof.Num → Prop) : Prop :=
      ∃ t v, exec i s = .next t ∧ s.onlyResults t 1 ∧ t.result 0 = some v ∧ good v
    (∀ vib, c.vibratos.get? u = some vib →
      (∀ p ∈ vibratoPeriods vib, Sys2Proof.Num.zero.lt p = true) ∧ vibratoPeriods vib ≠ [] ∧
      gives (.lfo u x) (fun v => v = (vibratoPeriods vib).foldl
        (fun a p => a.add (c.sinOf ((Sys2Proof.Num.twoPi.mul x).div p))) Sys2Proof.Num.zero)) ∧
    (c.vibratos.get? u = none → exec (.lfo u x) s = .next (s.withFault 2#8 (headerInfo (Instr.header (.lfo u x))))) ∧
    gives (.expr x) (fun v =>
      (x = Sys2Proof.Num.zero → v.eq Sys2Proof.Num.zero = true) ∧
      (x = Sys2Proof.Num.ofNat 3 → v = Sys2Proof.Num.one) ∧
      (Sys2Proof.Num.zero.le x = true → x.le (Sys2Proof.Num.ofNat 3) = true →
        v = c.powOf (x.div (Sys2Proof.Num.ofNat 3)) threeHalves)) ∧
    gives (.relscale x y) (fun v => (y.le Sys2Proof.Num.zero = true → v = Sys2Proof.Num.zero) ∧
      (Sys2Proof.Num.zero.le x = true → Sys2Proof.Num.zero.lt y = true →
        v = c.powOf (Sys2Proof.Num.max Sys2Proof.Num.zero (Sys2Proof.Num.one.sub (x.div y))) threeHalves)) ∧
    gives (.vibRamp x y) (fun v => v = Sys2Proof.Num.max Sys2Proof.Num.zero
      (Sys2Proof.Num.min Sys2Proof.Num.one ((x.sub y).div Sys2Proof.Num.two))) ∧
    gives (.pitchHz x) (fun v => v = (Sys2Proof.Num.ofNat 440).mul
      (c.exp2Of ((x.sub (Sys2Proof.Num.ofNat 69)).div (Sys2Proof.Num.ofNat 12)))) ∧
    (1 ≤ n → n ≤ c.maxChordSize → rhythm < c.rhythmCount →
      gives (.arpIndex n rhythm k) (fun v => ∃ i, i < n ∧ v = Sys2Proof.Num.ofNat i)) ∧
    ((n = 0 ∨ c.maxChordSize < n ∨ c.rhythmCount ≤ rhythm) → exec (.arpIndex n rhythm k) s =
      .next (s.withFault 4#8 (headerInfo (Instr.header (.arpIndex n rhythm k)))))

/-! Tones (R211 to R225). -/

/-- `TONE.NEW` takes the lowest-numbered free slot: it becomes the reset tone, active, of the instrument slot, at the end
of its channel's queue; the instrument slot wakes; the slot's index is the response. No other tone, queue or slot
changes, and no memory. With no slot free it takes `ToneOverflow` and changes nothing; an instrument slot that does not
exist takes `BadIndex` (R27, R28, R211, R310, R455).
Where it rests on the model's choice, that is logged as assumption 35. -/
def Obligations.ToneNew : Prop :=
  (∀ (s : State) (u : Nat), s.fault = false → s.eng.slots[u]? = none →
    exec (.toneNew u) s = .next (s.withFault 2#8 (headerInfo (Instr.header (.toneNew u))))) ∧
  ∀ (s : State) (u : Nat) (i : Slot) (ins : Instrument) (q : List Nat), s.fault = false →
    s.eng.slots[u]? = some i → slotInstrument s.song u = some ins →
    s.eng.activeTones[slotChannel s.song u]? = some q →
    (∀ (v : Nat) (a : Tone), s.eng.tones[v]? = some a → a.state = .free →
      (∀ (j : Nat) (b : Tone), j < v → s.eng.tones[j]? = some b → b.state ≠ .free) →
        exec (.toneNew u) s = .next { s with
          responses := s.responses ++ [BitVec.ofNat 64 v]
          eng := { s.eng with
            tones := s.eng.tones.set v { Tone.zero Config.cfg with
              state := .active, channel := slotChannel s.song u, instrument := u }
            activeTones := s.eng.activeTones.set (slotChannel s.song u) (q ++ [v])
            slots := s.eng.slots.set u { i with
              awake := true, flushing := false, deactivateAfterThisTick := false
              attenuationProgress := Sys2Proof.Num.zero, flushedSamples := Sys2Proof.Num.zero
              delayInputMult := Sys2Proof.Num.one } } }) ∧
    ((∀ a ∈ s.eng.tones, a.state ≠ .free) →
      exec (.toneNew u) s = .next (s.withFault 7#8 (BitVec.ofNat 32 (u % 2 ^ 16))))

/-- `TONE.RELEASE` moves an active tone from its channel's queue to the end of its instrument's released queue;
`TONE.FREE` takes a tone in use out of every queue and frees it. No other tone changes and no memory; a slot that is
not active, or free, takes `BadIndex` (R27, R224, R225). -/
def Obligations.ToneReleaseAndFree : Prop :=
  ∀ (s : State) (u : Nat) (a : Tone), s.fault = false → s.eng.tones[u]? = some a →
    let without (q : List Nat) : List Nat := q.filter (fun v => v != u)
    (a.state = .active → ∀ q, s.eng.releasedTones[a.instrument]? = some q →
      exec (.toneRelease u) s = .next { s with eng := { s.eng with
        tones := s.eng.tones.set u { a with state := .released, ticksSinceReleased := 0 }
        activeTones := s.eng.activeTones.map without
        releasedTones := s.eng.releasedTones.set a.instrument (q ++ [u]) } }) ∧
    (a.state ≠ .active →
      exec (.toneRelease u) s = .next (s.withFault 2#8 (headerInfo (Instr.header (.toneRelease u))))) ∧
    (a.state ≠ .free → exec (.toneFree u) s = .next { s with eng := { s.eng with
      tones := s.eng.tones.set u { a with state := .free }
      activeTones := s.eng.activeTones.map without
      releasedTones := s.eng.releasedTones.map without } }) ∧
    (a.state = .free →
      exec (.toneFree u) s = .next (s.withFault 2#8 (headerInfo (Instr.header (.toneFree u)))))

/-- `TONE.COMPUTE` of a tone in use, of a known kind whose envelopes are known, completes and changes that tone alone. Its
voice parameters are computed from the clock's two ends of the run: interval, note expression and chord expression
with vibrato and slides; the expression ramp with attack, release and chord factors; phase increments and their
scale; the interval multipliers, the pulse width and the FM expressions of its kind; the filter gradients; the string
filters and delays. A released tone is marked at its last tick. Identity, phases, loop histories, filter histories
and string rings keep their values (R151, R212, R213, R216, R217, R218, R219, R220, R221, R222, R261).
Where it rests on the model's choice, that is logged as assumptions 21, 22, 23, 24, 25, 26, 30, 67, 75, 76, 84, 86, 87,
88, 98, 100, 101. -/
def Obligations.ToneCompute : Prop :=
  ∀ (s : State) (u n : Nat) (a : Tone) (ins : Instrument), s.fault = false → s.eng.tones[u]? = some a →
    a.state ≠ .free → slotInstrument s.song a.instrument = some ins → ins.kind < 8 → 1 ≤ n →
    n ≤ s.eng.runMax Config.cfg → (∀ k ∈ usedEnvelopes ins a, (Config.cfg.envelopes.get k).kind < 9) →
      let c := Config.cfg
      let x := s.ctx c (.toneCompute u n)
      let k := s.eng.clock
      let tr := c.transitions.get ins.transition
      let ch := c.chords.get ins.chord
      let one := Sys2Proof.Num.one
      let length := Sys2Proof.Num.ofNat n
      let r0 := one.sub (k.tickSampleCountdown.div k.samplesPerTick)
      let r1 := if k.tickSampleCountdown.lt length then one
        else one.sub ((k.tickSampleCountdown.sub length).div k.samplesPerTick)
      let pins := pinValues x k u a r0 r1
      let blend (ratio tau interval expression : Sys2Proof.Num) (key : Nat) : Blend :=
        slideBlend x k u a tr ins.chord ch.arpeggiates ratio
          { interval := interval.add (vibratoAt x k a (c.vibratos.get ins.vibrato) ratio tau)
            seconds := noteSeconds x k a ratio
            expression := exprOf c expression (x.free .voice [u, key])
            chord := chordFactor c ins.chord a.chordSize }
      let v0 := blend r0 (barSeconds x k r0) pins.1.start pins.2.start 4
      let v1 := blend r1 (wrappedBarSeconds x k r1) pins.1.finish pins.2.finish 5
      let secs : Ends := ⟨v0.seconds, v1.seconds⟩
      let beats : Ends := ⟨noteBeats x k a r0, noteBeats x k a r1⟩
      let exprs : Ends := ⟨v0.expression, v1.expression⟩
      let level (b : Blend) (ratio : Sys2Proof.Num) (key : Nat) : Sys2Proof.Num :=
        ((((((c.volumeGainOf ins.volume).mul (prefilterMult c ins.filter)).mul b.expression).mul
          (attackFactor a tr (noteSeconds x k a ratio))).mul (releaseFactor x u key a tr.releaseTicks ratio)).mul
          b.chord).mul (c.baseExpressionOf ins.kind)
      let e0 := level v0 r0 6
      let e1 := level v1 r1 7
      let slope (p q : Sys2Proof.Num) : Sys2Proof.Num := (q.sub p).div length
      let number := c.basePitchOf s.song a.channel (soundingPitch c s.song k ch a)
      let f0 := c.pitchHz (number.add v0.interval)
      let f1 := c.pitchHz (number.add v1.interval)
      let iv := c.intervals.get ins.interval
      let inv := one.div length
      ∃ t b, exec (.toneCompute u n) s = .next t ∧
        t = { s with eng := { s.eng with tones := s.eng.tones.set u b } } ∧
        b = { a with
          isLastTick := b.isLastTick, drumsetPitch := b.drumsetPitch
          phaseDeltas := b.phaseDeltas, phaseDeltaScale := b.phaseDeltaScale
          expressionStarts := b.expressionStarts, expressionDeltas := b.expressionDeltas
          intervalMult := b.intervalMult, intervalExpressionMult := b.intervalExpressionMult
          pulseWidth := b.pulseWidth, pulseWidthDelta := b.pulseWidthDelta
          feedbackMult := b.feedbackMult, feedbackDelta := b.feedbackDelta
          filters := b.filters, filterCount := ins.filter.length, strings := b.strings } ∧
        (b.isLastTick = true ↔ a.isLastTick = true ∨
          (a.state = .released ∧ (tr.releaseTicks ≤ a.ticksSinceReleased + 1 ∨ a.fadeOutFast = true))) ∧
        b.drumsetPitch = (if ins.kind = kindDrumset then min 11 (a.pitches.getD 0 0) else a.drumsetPitch) ∧
        (ins.kind ≠ kindFm → b.expressionStarts = set4 a.expressionStarts 0 e0 ∧
          b.expressionDeltas = set4 a.expressionDeltas 0 (slope e0 e1)) ∧
        b.phaseDeltaScale = (if v1.interval.eq v0.interval then one else c.powOf (f1.div f0) inv) ∧
        ((ins.kind = kindChip ∨ ins.kind = kindHarmonics) →
          let d := phaseIncrement x f0 (c.exp2Of ((iv.offset.sub iv.spread).div (Sys2Proof.Num.ofNat 12))) ins
          b.phaseDeltas = set4 (set4 a.phaseDeltas 0 d) 1 (d.mul b.intervalMult) ∧
          (ch.customInterval = false → b.intervalExpressionMult = one ∧
            b.intervalMult = c.exp2Of ((Sys2Proof.Num.two.mul iv.spread).div (Sys2Proof.Num.ofNat 12))) ∧
          (∀ p0 p1 rest, ch.customInterval = true → a.pitches = p0 :: p1 :: rest →
            b.intervalMult = c.exp2Of ((Sys2Proof.Num.ofInt ((p1 : Int) - p0)).div (Sys2Proof.Num.ofNat 12)) ∧
            b.intervalExpressionMult = c.customIntervalExpressionOf ((p1 : Int) - p0))) ∧
        ((ins.kind = kindNoise ∨ ins.kind = kindSpectrum ∨ ins.kind = kindDrumset ∨ ins.kind = kindPwm) →
          b.phaseDeltas = set4 a.phaseDeltas 0 (phaseIncrement x f0 one ins)) ∧
        (ins.kind = kindGuitar → b.phaseDeltas = a.phaseDeltas ∧ b.pulseWidth = c.pulseWidthOf ins.pulseWidth) ∧
        (ins.kind = kindPwm → ∃ env, envelopeEnds x u 70 ins.pulseEnvelope secs beats exprs = .ok env ∧
          b.pulseWidth = (c.pulseWidthOf ins.pulseWidth).mul env.start ∧
          b.pulseWidthDelta = slope b.pulseWidth ((c.pulseWidthOf ins.pulseWidth).mul env.finish)) ∧
        (ins.kind = kindFm →
          (∃ env, envelopeEnds x u 60 ins.feedbackEnvelope secs beats exprs = .ok env ∧
            b.feedbackMult = (c.feedbackGain ins.feedbackAmplitude).mul env.start ∧
            b.feedbackDelta = slope b.feedbackMult ((c.feedbackGain ins.feedbackAmplitude).mul env.finish)) ∧
          ∀ (j : Nat) (o : Operator), j < 4 → ins.operators[j]? = some o →
            get4 b.phaseDeltas j = phaseIncrement x f0 (c.fmFrequencyRatioOf o.frequency) ins ∧
            ∃ env, envelopeEnds x u (40 + 2 * j) o.envelope secs beats exprs = .ok env ∧
              let amp := c.operatorAmplitude o.amplitude
              let carrier (e g : Sys2Proof.Num) : Sys2Proof.Num :=
                (((amp.mul g).mul (c.fmCarrierExpressionOf number)).mul (c.sineExpressionBoostOf ins)).mul e
              let modulator (g : Sys2Proof.Num) : Sys2Proof.Num :=
                ((amp.mul g).mul (Sys2Proof.Num.ofNat c.sineWaveLength)).mul c.fmModulatorScaleOf
              let isCarrier := (c.algorithms.get ins.algorithm).isCarrier.toList.getD j false
              let p := if isCarrier then carrier e0 env.start else modulator env.start
              let q := if isCarrier then carrier e1 env.finish else modulator env.finish
              get4 b.expressionStarts j = p ∧ get4 b.expressionDeltas j = slope p q) ∧
        (ins.kind ≠ kindChip → ins.kind ≠ kindHarmonics →
          b.intervalMult = a.intervalMult ∧ b.intervalExpressionMult = a.intervalExpressionMult) ∧
        (ins.kind ≠ kindPwm → b.pulseWidthDelta = a.pulseWidthDelta ∧
          (ins.kind ≠ kindGuitar → b.pulseWidth = a.pulseWidth)) ∧
        (ins.kind ≠ kindFm → b.feedbackMult = a.feedbackMult ∧ b.feedbackDelta = a.feedbackDelta) ∧
        (∀ (j : Nat) (p : FilterPoint) (f : Biquad), ins.filter[j]? = some p → a.filters[j]? = some f →
          let entry := if ins.kind = kindDrumset then ins.drumEnvelopes.getD (drumsetPitchOf a) 0 else ins.filterEnvelope
          ∃ env, envelopeEnds x u 30 entry secs beats exprs = .ok env ∧
            let coefs (g : Sys2Proof.Num) : CoefSet := pointCoefs c s.sampleRate p.kind
              (Sys2Proof.Num.clamp Sys2Proof.Num.zero (Sys2Proof.Num.ofNat (c.filterFreqRange - 1))
                ((Sys2Proof.Num.ofNat p.freq).mul g)) p.gain
            b.filters[j]? = some (loadGradient f (coefs env.start) (coefs env.finish) inv)) ∧
        (∀ j, ins.filter.length ≤ j → b.filters[j]? = a.filters[j]?) ∧
        (ins.kind ≠ kindGuitar → b.strings = a.strings) ∧
        (ins.kind = kindGuitar → ∀ (j p : Nat) (w : StringState), a.pitches[j]? = some p → a.strings[j]? = some w →
          let base := c.basePitchOf s.song a.channel p
          let d0 := stringDesign x ins (c.pitchHz (base.add v0.interval))
          let d1 := stringDesign x ins (c.pitchHz (base.add v1.interval))
          let delay := if a.atNoteStart = true ∨ w.pluckedPitch ≠ some p then d0.2.2 else w.delayLength
          b.strings[j]? = some { w with
            dispersion := loadGradient w.dispersion d0.1 d1.1 inv
            shelf := loadGradient w.shelf d0.2.1 d1.2.1 inv
            delayLength := delay
            delayLengthDelta := slope delay d1.2.2 })

/-- Where `TONE.COMPUTE` faults: a free slot takes `BadIndex`, a bad run length `BadOperand`, both with the state before;
a kind outside the eight takes `UnknownInstrument` with the instrument slot and the kind as detail, an envelope of no
known type `UnknownEnvelope` with the tone slot and the type, under every configuration; and then only the slot's own
fields are open (R212, R217, R453, R458; of the slot's fields, assumption 37).
Where it rests on the model's choice, that is logged as assumptions 37, 69. -/
def Obligations.ToneComputeFaults : Prop :=
  (∀ (s : State) (u n : Nat) (a : Tone) (ins : Instrument), s.fault = false → s.eng.tones[u]? = some a →
    slotInstrument s.song a.instrument = some ins →
    let info := headerInfo (Instr.header (.toneCompute u n))
    (a.state = .free → exec (.toneCompute u n) s = .next (s.withFault 2#8 info)) ∧
    (a.state ≠ .free → (n = 0 ∨ s.eng.runMax Config.cfg < n) →
      exec (.toneCompute u n) s = .next (s.withFault 4#8 info)) ∧
    (a.state ≠ .free → 1 ≤ n → n ≤ s.eng.runMax Config.cfg → 8 ≤ ins.kind → ∃ b,
      exec (.toneCompute u n) s = .next ({ s with eng := { s.eng with tones := s.eng.tones.set u b } }.withFault 5#8
        (BitVec.ofNat 32 (a.instrument % 2 ^ 16 + ins.kind % 2 ^ 8 * 2 ^ 16))))) ∧
  (∀ (s : State) (u n : Nat), exec (.toneCompute u n) s =
    .next (toneComputeWith (s.ctx Config.cfg (.toneCompute u n)) s u n)) ∧
  (∀ (x : Ctx) (s : State) (u n : Nat) (a : Tone) (ins : Instrument), s.fault = false → s.eng.tones[u]? = some a →
    a.state ≠ .free → slotInstrument x.song a.instrument = some ins → ins.kind < 8 → 1 ≤ n →
    n ≤ s.eng.runMax x.cfg → (∃ k ∈ usedEnvelopes ins a, 9 ≤ (x.cfg.envelopes.get k).kind) →
      ∃ b k, k ∈ usedEnvelopes ins a ∧ 9 ≤ (x.cfg.envelopes.get k).kind ∧ toneComputeWith x s u n =
        { s with eng := { s.eng with tones := s.eng.tones.set u b } }.withFault 6#8
          (BitVec.ofNat 32 (u % 2 ^ 16 + (x.cfg.envelopes.get k).kind % 2 ^ 8 * 2 ^ 16)))

/-! Synth loops (R240 to R265). -/

/-- Every `SYN.<kind>` on a tone in use of its kind completes: it changes `SCRATCH` below the run length, the tone's loop
registers, and the slot's count of tones; of the wave caches the entry that the loop reads, and that only where it was
not valid; `WORK` below that wave's length where a spectral wave is built; the random source where the kind draws; and
nothing else. The tone keeps its identity and parameters, and its note start is over (R86, R141, R240, R265, R310; of
the guitar's entry, assumption 65).
Sample by sample, for a loop that reads a valid wave: the loop starts with the tone as `TONE.COMPUTE` left it, at the
start of a note of a spectrum or drumset at a drawn zero crossing, of a guitar with its strings plucked; each sample is
the differentiated wave of the two voices for chip and harmonics, the table smoothed by the constant of the run's start
for noise, spectrum and drumset, the two saws for pwm, the carriers' sum for fm and the strings' sum for guitar; it
passes the cascade of the tone's filters and is added to its element of `SCRATCH`, outside fm times the expression. The
expression ramps by its delta (of each operator in fm), the phases move on by their increments, every increment the loop
moves by is scaled, and nothing else of the tone changes from sample to sample; the tone left is the one after the last
sample (R154, R240, R242, R243, R246, R249, R250, R251, R252, R255, R260, R263). An increment of exactly 0 leaves the
sample open (assumption 18).
Where it rests on the model's choice, that is logged as assumptions 18, 19, 20, 65, 99, 107. -/
def Obligations.SynthLoops : Prop :=
  (∀ (s : State) (u n kind : Nat) (i : Instr) (a : Tone) (ins : Instrument),
    (i, kind) ∈ [(Instr.synChip u n, kindChip), (.synFm u n, kindFm), (.synNoise u n, kindNoise),
      (.synSpectrum u n, kindSpectrum), (.synDrumset u n, kindDrumset), (.synHarmonics u n, kindHarmonics),
      (.synPwm u n, kindPwm), (.synGuitar u n, kindGuitar)] →
    s.fault = false → s.eng.tones[u]? = some a → a.state ≠ .free → slotInstrument s.song a.instrument = some ins →
    ins.kind = kind → 1 ≤ n → n ≤ s.eng.runMax Config.cfg → Memory.numWf s.eng.scratch = true →
      let c := Config.cfg
      let key : Option WaveKey := if kind = kindChip then some (.chip ins.chipWave)
        else if kind = kindFm then some .sine
        else if kind = kindNoise then some (.noise ins.noiseWave)
        else if kind = kindSpectrum then some (.spectrum a.instrument)
        else if kind = kindDrumset then some (.drum a.instrument a.drumsetPitch)
        else if kind = kindHarmonics then some (.harmonics a.instrument)
        else if kind = kindGuitar then some .impulse
        else none
      let built := ensureOptional (s.ctx c i) key s.eng
      ∃ t b, exec i s = .next t ∧ t = { s with eng := t.eng } ∧
        t.eng = { s.eng with
          tones := s.eng.tones.set u b
          scratch := t.eng.scratch
          slots := s.eng.slots.modify a.instrument (fun j => { j with tonesThisTick := j.tonesThisTick + 1 })
          rng := t.eng.rng, waves := built.waves, work := built.work, workEpoch := built.workEpoch } ∧
        (key = none → built = s.eng) ∧
        (∀ k, key = some k →
          (∃ d, findWave built.waves k = some d) ∧
          (∀ k', k' ≠ k → findWave built.waves k' = findWave s.eng.waves k') ∧
          (∀ d, findWave s.eng.waves k = some d → built = s.eng) ∧
          (findWave s.eng.waves k = none → kind ∉ [kindSpectrum, kindDrumset, kindHarmonics] →
            built.work = [] ∧ built.workEpoch = s.epoch) ∧
          (kind = kindHarmonics → ∀ j, c.harmonicsWaveLength ≤ j → t.eng.readWork j = s.eng.readWork j) ∧
          (kind ∈ [kindSpectrum, kindDrumset] →
            ∀ j, c.spectrumWaveLength ≤ j → t.eng.readWork j = s.eng.readWork j)) ∧
        (∀ j, n ≤ j → Memory.getNum t.eng.scratch j = Memory.getNum s.eng.scratch j) ∧
        (kind ∉ [kindSpectrum, kindDrumset, kindGuitar] → t.eng.rng = s.eng.rng) ∧
        b = { a with
          phases := b.phases, phaseDeltas := b.phaseDeltas, expressionStarts := b.expressionStarts
          pulseWidth := b.pulseWidth, feedbackMult := b.feedbackMult, feedbackOutputs := b.feedbackOutputs
          noiseSample := b.noiseSample, prevIntegralA := b.prevIntegralA, prevIntegralB := b.prevIntegralB
          filters := b.filters, strings := b.strings, atNoteStart := false } ∧
        (kind ≠ kindPwm → b.pulseWidth = a.pulseWidth) ∧ (kind ≠ kindGuitar → b.strings = a.strings) ∧
        (kind ≠ kindFm → b.feedbackMult = a.feedbackMult ∧ b.feedbackOutputs = a.feedbackOutputs) ∧
        (kind ∉ [kindNoise, kindSpectrum, kindDrumset] → b.noiseSample = a.noiseSample) ∧
        (kind ∉ [kindChip, kindHarmonics] →
          b.prevIntegralA = a.prevIntegralA ∧ b.prevIntegralB = a.prevIntegralB)) ∧
  (∀ (s : State) (u n kind : Nat) (i : Instr) (a0 : Tone) (ins : Instrument) (data : List Sys2Proof.Num),
    (i, kind) ∈ [(Instr.synChip u n, kindChip), (.synFm u n, kindFm), (.synNoise u n, kindNoise),
      (.synSpectrum u n, kindSpectrum), (.synDrumset u n, kindDrumset), (.synHarmonics u n, kindHarmonics),
      (.synPwm u n, kindPwm), (.synGuitar u n, kindGuitar)] →
    s.fault = false → s.eng.tones[u]? = some a0 → a0.state ≠ .free → slotInstrument s.song a0.instrument = some ins →
    ins.kind = kind → 1 ≤ n → n ≤ s.eng.runMax Config.cfg → Memory.numWf s.eng.scratch = true →
    (∀ k, waveOf ins a0 = some k → findWave s.eng.waves k = some data) →
      let c := Config.cfg
      let x := s.ctx c i
      let zero := Sys2Proof.Num.zero
      let one := Sys2Proof.Num.one
      let drawn := drawUnit s.eng.rng
      let plucked := pluckAll x a0 data a0.pitches a0.strings s.eng.rng
      let drawing : Prop := (kind = kindSpectrum ∨ kind = kindDrumset) ∧ a0.atNoteStart = true
      ∃ (t : State) (reg : Nat → Tone), exec i s = .next t ∧
        t.eng.tones = s.eng.tones.set u { reg n with atNoteStart := false } ∧
        (drawing → t.eng.rng = drawn.2 ∧ reg 0 = { a0 with
          phases := set4 a0.phases 0 (startPhase data c.spectrumWaveLength drawn.1), noiseSample := zero }) ∧
        (kind = kindGuitar → t.eng.rng = plucked.2 ∧ reg 0 = { a0 with strings := plucked.1 }) ∧
        (¬ drawing → kind ≠ kindGuitar → t.eng.rng = s.eng.rng ∧ reg 0 = a0) ∧
        ∀ j, j < n →
          let a := reg j
          let b := reg (j + 1)
          let p := get4 a.phases 0
          let q := get4 a.phases 1
          let d := get4 a.phaseDeltas 0
          let e := get4 a.phaseDeltas 1
          let level := get4 a.expressionStarts 0
          let moved (length : Sys2Proof.Num) : Prop :=
            b.phases = set4 a.phases 0 (wrapPhase (p.add d) length) ∧
            b.phaseDeltas = set4 a.phaseDeltas 0 (d.mul a.phaseDeltaScale)
          ∃ v : Sys2Proof.Num,
            (let y := cascade a.filterCount a.filters v
             b.filters = y.2 ∧ Memory.getNum t.eng.scratch j =
              (Memory.getNum s.eng.scratch j).add (if kind = kindFm then y.1 else y.1.mul level)) ∧
            (let table (length : Nat) (rate value : Sys2Proof.Num) : Prop :=
              let y := a.noiseSample.add ((value.sub a.noiseSample).mul (Sys2Proof.Num.min one rate))
              moved (Sys2Proof.Num.ofNat length) ∧ (d.eq zero = false → v = y) ∧
                b = { a with
                  filters := b.filters, expressionStarts := b.expressionStarts, phases := b.phases
                  phaseDeltas := b.phaseDeltas, noiseSample := y }
             let rate0 := get4 a0.phaseDeltas 0
             (kind ≠ kindFm → b.expressionStarts = set4 a.expressionStarts 0 (level.add (get4 a.expressionDeltas 0))) ∧
             ((kind = kindChip ∨ kind = kindHarmonics) →
              let length := if kind = kindChip then (c.chipSamples ins.chipWave).length else c.harmonicsWaveLength
              let pa := wrapPhase (p.add d) (Sys2Proof.Num.ofNat length)
              let pb := wrapPhase (q.add e) (Sys2Proof.Num.ofNat length)
              let ia := interpolatedRead data length pa
              let ib := interpolatedRead data length pb
              let sign := (c.intervals.get ins.interval).sign
              (d.eq zero = false → e.eq zero = false → v = ((ia.sub a.prevIntegralA).div d).add
                (((ib.sub a.prevIntegralB).div e).mul (sign.mul a.intervalExpressionMult))) ∧
              b = { a with
                filters := b.filters, expressionStarts := b.expressionStarts
                phases := set4 (set4 a.phases 0 pa) 1 pb
                phaseDeltas := set4 (set4 a.phaseDeltas 0 (d.mul a.phaseDeltaScale)) 1 (e.mul a.phaseDeltaScale)
                prevIntegralA := ia, prevIntegralB := ib }) ∧
             (kind = kindPwm → moved one ∧ (d.eq zero = false → v = pwmSample p d a.pulseWidth) ∧
              b = { a with
                filters := b.filters, expressionStarts := b.expressionStarts, phases := b.phases
                phaseDeltas := b.phaseDeltas, pulseWidth := a.pulseWidth.add a.pulseWidthDelta }) ∧
             (kind = kindNoise → table (c.noiseSamples ins.noiseWave).length
              (rate0.mul (c.pitchFilterMultOf ins.noiseWave)) (nearestRead data (c.noiseSamples ins.noiseWave).length p)) ∧
             ((kind = kindSpectrum ∨ kind = kindDrumset) →
              table c.spectrumWaveLength rate0 (interpolatedRead data c.spectrumWaveLength p)) ∧
             (kind = kindFm →
              let alg := c.algorithms.get ins.algorithm
              let out := fmOutputs alg (c.feedbacks.get ins.feedbackType) data c.sineWaveLength
                ⟨a.phases, a.phaseDeltas, a.expressionStarts, a.feedbackOutputs, a.feedbackMult, a.filters,
                  s.eng.scratch⟩ 4 zeros4
              ((∀ k < 4, (get4 a.phaseDeltas k).eq zero = false) → v = sumOperators (carriers alg) out) ∧
              b = { a with
                filters := b.filters, expressionStarts := b.expressionStarts, phases := b.phases
                phaseDeltas := b.phaseDeltas, feedbackOutputs := out
                feedbackMult := a.feedbackMult.add a.feedbackDelta } ∧
              ∀ k < 4, get4 b.phases k = wrapPhase ((get4 a.phases k).add (get4 a.phaseDeltas k))
                  (Sys2Proof.Num.ofNat c.sineWaveLength) ∧
                get4 b.phaseDeltas k = (get4 a.phaseDeltas k).mul a.phaseDeltaScale ∧
                get4 b.expressionStarts k = (get4 a.expressionStarts k).add (get4 a.expressionDeltas k)) ∧
             (kind = kindGuitar →
              let y := stringsStep (c.stringRingSize s.sampleRate) a.pitches.length zero a.strings
              v = y.1 ∧ b = { a with
                filters := b.filters, expressionStarts := b.expressionStarts, strings := y.2 })))

/-- A `SYN.<kind>` on a free slot or on a tone of another kind takes `BadIndex`, with a bad run length `BadOperand`, the
state being that before (R240, R452, R458). -/
def Obligations.SynthLoopsRefused : Prop :=
  ∀ (s : State) (u n kind : Nat) (i : Instr) (a : Tone) (ins : Instrument),
    (i, kind) ∈ [(Instr.synChip u n, kindChip), (.synFm u n, kindFm), (.synNoise u n, kindNoise),
      (.synSpectrum u n, kindSpectrum), (.synDrumset u n, kindDrumset), (.synHarmonics u n, kindHarmonics),
      (.synPwm u n, kindPwm), (.synGuitar u n, kindGuitar)] →
    s.fault = false → s.eng.tones[u]? = some a → slotInstrument s.song a.instrument = some ins →
      ((a.state = .free ∨ ins.kind ≠ kind) → exec i s = .next (s.withFault 2#8 (headerInfo i.header))) ∧
      (a.state ≠ .free → ins.kind = kind → (n = 0 ∨ s.eng.runMax Config.cfg < n) →
        exec i s = .next (s.withFault 4#8 (headerInfo i.header)))

/-- `GTR.PLUCK` on a string of a guitar tone: the two periods behind the write position are zeroed, then the impulse is
added in the last one, jittered by one draw; every other element of the ring keeps its value; the plucked pitch is the
pitch of that string. Its filters, delay and place keep their values, the impulse wave is built if it was not valid,
which leaves `WORK` open, and nothing else changes. A tone of another kind, or a string that is not there, takes
`BadIndex` (R104, R262; of the pitch and of the build, assumptions 66, 68, 107). -/
def Obligations.GuitarPluck : Prop :=
  (∀ (s : State) (u v p : Nat) (a : Tone) (w : StringState) (ins : Instrument), s.fault = false →
    s.eng.tones[u]? = some a → a.state ≠ .free → slotInstrument s.song a.instrument = some ins →
    a.pitches[v]? = some p → a.strings[v]? = some w → Memory.numWf w.ring = true →
      let c := Config.cfg
      let size := c.stringRingSize s.sampleRate
      let period := s.sampleRate.div (c.pitchHz (c.basePitchOf s.song a.channel p))
      let off := (a.pulseWidth.mul period).mul (Sys2Proof.Num.one.add
        (c.guitarPulseWidthRandomness.mul ((drawUnit s.eng.rng).1.sub Sys2Proof.Num.half)))
      let one := ceilCount period
      let two := ceilCount (Sys2Proof.Num.two.mul period)
      (ins.kind = kindGuitar → ∃ t d, exec (.gtrPluck u v) s = .next t ∧
        (let ring := addImpulse size ((w.delayIndex : Int) - one) (c.pluckShapeOf d period off) one
          (zeroBehind size w.delayIndex two w.ring)
         t = { s with eng := { s.eng with
          tones := s.eng.tones.set u { a with
            strings := a.strings.set v { w with ring := ring, pluckedPitch := some p } }
          waves := t.eng.waves, work := t.eng.work, workEpoch := t.eng.workEpoch
          rng := { s.eng.rng with drawn := s.eng.rng.drawn + 1 } } } ∧
         ∀ j, (∀ m < two, j ≠ ringIndex size ((w.delayIndex : Int) - ((m + 1 : Nat) : Int))) →
          (∀ m < one, j ≠ ringIndex size ((w.delayIndex : Int) - one + m)) →
          Memory.getNum ring j = Memory.getNum w.ring j) ∧
        findWave t.eng.waves .impulse = some d ∧
        (findWave s.eng.waves .impulse = none →
          d = c.impulseSamples ∧ t.eng.work = [] ∧ t.eng.workEpoch = s.epoch) ∧
        (∀ d', findWave s.eng.waves .impulse = some d' →
          t.eng.waves = s.eng.waves ∧ t.eng.work = s.eng.work ∧ t.eng.workEpoch = s.eng.workEpoch) ∧
        (∀ k, k ≠ .impulse → findWave t.eng.waves k = findWave s.eng.waves k)) ∧
      (ins.kind ≠ kindGuitar →
        exec (.gtrPluck u v) s = .next (s.withFault 2#8 (headerInfo (Instr.header (.gtrPluck u v)))))) ∧
  (∀ (s : State) (u v : Nat) (a : Tone), s.fault = false → s.eng.tones[u]? = some a → a.pitches[v]? = none →
    exec (.gtrPluck u v) s = .next (s.withFault 2#8 (headerInfo (Instr.header (.gtrPluck u v))))) ∧
  (∀ (size n j : Nat) (pos : Int) (m : Memory Sys2Proof.Num), Memory.numWf m = true →
    ((∃ i < n, j = ringIndex size (pos - ((i + 1 : Nat) : Int))) →
      Memory.getNum (zeroBehind size pos n m) j = Sys2Proof.Num.zero) ∧
    ((∀ i < n, j ≠ ringIndex size (pos - ((i + 1 : Nat) : Int))) →
      Memory.getNum (zeroBehind size pos n m) j = Memory.getNum m j)) ∧
  (∀ (size n : Nat) (base : Int) (shape : Nat → Sys2Proof.Num) (m : Memory Sys2Proof.Num), Memory.numWf m = true →
    n ≤ size → ∀ i < n, Memory.getNum (addImpulse size base shape n m) (ringIndex size (base + i)) =
      (Memory.getNum m (ringIndex size (base + i))).add (shape i))

/-! Effects (R280 to R313). -/

/-- The mono stages on an instrument slot: the output in `r[0]`; `FX.DISTORT` changes no state, `FX.BITCRUSH` the slot's
phase and held value, `FX.FILTER` the histories and coefficients of its effect filter, which is the cascade of its
first `fxFilterCount` biquads; no other slot, tone or memory changes. A slot that does not exist takes `BadIndex`
(R154, R282, R284, R286).
Where it rests on the model's choice, that is logged as assumption 77. -/
def Obligations.MonoEffects : Prop :=
  ∀ (s : State) (u : Nat) (x : Sys2Proof.Num) (i : Slot) (ins : Instrument), s.fault = false →
    s.eng.slots[u]? = some i → slotInstrument s.song u = some ins →
    let gives (op : Instr) (j : Slot) (y : Sys2Proof.Num) : Prop :=
      ∃ t, exec op s = .next t ∧ t = { s with r := t.r, eng := { s.eng with slots := s.eng.slots.set u j } } ∧
        t.result 0 = some y ∧ ∀ k, k ≠ 0 → t.result k = s.result k
    let c := Config.cfg
    let slider := (Sys2Proof.Num.ofNat ins.distortion).div (Sys2Proof.Num.ofNat (c.distortionRange - 1))
    let d := c.powOf (Sys2Proof.Num.one.sub ((Sys2Proof.Num.ofRat 95 100).mul slider)) threeHalves
    let v := x.mul (Sys2Proof.Num.one.add (Sys2Proof.Num.two.mul slider))
    let q := c.crushQuantum ins.bitcrusherQuantization
    let phase := i.crushPhase.add (c.crushStep ins.bitcrusherFreq s.sampleRate)
    gives (.fxDistort u x) i
      ((c.distortionBaseVolume.mul v).div (((Sys2Proof.Num.one.sub d).mul v.abs).add d)) ∧
    (Sys2Proof.Num.one.le phase = true →
      let hold := ((x.div q).floor.add Sys2Proof.Num.half).mul q
      gives (.fxBitcrush u x) { i with crushPhase := phase.sub Sys2Proof.Num.one, crushHold := hold } hold) ∧
    (Sys2Proof.Num.one.le phase = false → gives (.fxBitcrush u x) { i with crushPhase := phase } i.crushHold) ∧
    (∃ fs y, gives (.fxFilter u x) { i with fxFilters := fs } y ∧ fs.length = i.fxFilters.length ∧
      (i.fxFilterCount = 0 → y = x ∧ fs = i.fxFilters) ∧
      (∀ n f rest, i.fxFilterCount = n + 1 → i.fxFilters = f :: rest →
        let z := ((((f.b0.mul x).add (f.b1.mul f.in1)).add (f.b2.mul f.in2)).sub (f.a1.mul f.out1)).sub
          (f.a2.mul f.out2)
        y = (cascade n rest z).1 ∧ fs = { f with
          in1 := x, in2 := f.in1, out1 := z, out2 := f.out1
          a1 := f.a1.add f.a1Delta, a2 := f.a2.add f.a2Delta, b0 := f.b0.add f.b0Delta
          b1 := f.b1.add f.b1Delta, b2 := f.b2.add f.b2Delta } :: (cascade n rest z).2)) ∧
    (∀ u', s.eng.slots[u']? = none →
      exec (.fxDistort u' x) s = .next (s.withFault 2#8 (headerInfo (Instr.header (.fxDistort u' x)))) ∧
      exec (.fxBitcrush u' x) s = .next (s.withFault 2#8 (headerInfo (Instr.header (.fxBitcrush u' x)))) ∧
      exec (.fxFilter u' x) s = .next (s.withFault 2#8 (headerInfo (Instr.header (.fxFilter u' x)))))

/-- The stereo stages on an instrument slot: the outputs in `r[0]` and `r[1]`; `FX.PAN` writes one element of the pan ring
and reads both sides' taps times their gains, `FX.CHORUS` writes both chorus rings and mixes three taps a side,
`FX.REVERB` mixes four taps, smooths each and writes four elements. Of the slot only the stage's rings, position,
phase and lowpass states change; no other slot, no tone and no other memory. A slot that does not exist takes
`BadIndex` (R74, R76, R288, R292, R296).
Where it rests on the model's choice, that is logged as assumptions 59, 78, 97, 111. -/
def Obligations.StereoEffects : Prop :=
  ∀ (s : State) (u : Nat) (l r : Sys2Proof.Num) (i : Slot) (ins : Instrument), s.fault = false →
    s.eng.slots[u]? = some i → slotInstrument s.song u = some ins → i.Canonical →
    let c := Config.cfg
    let half := Sys2Proof.Num.half
    let two := Sys2Proof.Num.two
    let one := Sys2Proof.Num.one
    let zero := Sys2Proof.Num.zero
    let m := i.delayInputMult
    let gives (op : Instr) (j : Slot) (y0 y1 : Sys2Proof.Num) : Prop :=
      ∃ t, exec op s = .next t ∧ t = { s with r := t.r, eng := { s.eng with slots := s.eng.slots.set u j } } ∧
        t.result 0 = some y0 ∧ t.result 1 = some y1 ∧ ∀ k, 2 ≤ k → t.result k = s.result k
    let z := c.panRingSize s.sampleRate
    let p := (Sys2Proof.Num.ofNat ins.pan).div (Sys2Proof.Num.ofNat c.panMax)
    let angle := (p.mul Sys2Proof.Num.pi).div two
    let side := (two.mul p).sub one
    let far (v : Sys2Proof.Num) : Sys2Proof.Num := ((Sys2Proof.Num.max zero v).mul c.panDelayMax).mul s.sampleRate
    (∃ ring, gives (.fxPan u l) { i with panRing := ring, panPos := (i.panPos + 1) % z }
        ((fractionalTap ring z ((Sys2Proof.Num.ofNat i.panPos).sub (far side))).mul
          ((c.cosOf angle).mul c.panGainNorm))
        ((fractionalTap ring z ((Sys2Proof.Num.ofNat i.panPos).sub (far side.neg))).mul
          ((c.sinOf angle).mul c.panGainNorm)) ∧
      Memory.getNum ring (i.panPos % z) = l.mul m ∧
      ∀ k, k ≠ i.panPos % z → Memory.getNum ring k = Memory.getNum i.panRing k) ∧
    (let n := c.chorusRingSize s.sampleRate
     let tap (ring : Memory Sys2Proof.Num) (d : Fin 2) (k : Fin 3) : Sys2Proof.Num :=
      fractionalTap ring n ((Sys2Proof.Num.ofNat i.chorusPos).sub
        (((c.chorusOffset d k).add (c.chorusRange.mul (c.sinOf (i.chorusPhase.add c.chorusPhaseOffsets[d][k])))).mul
          s.sampleRate))
     ∃ ringL ringR, gives (.fxChorus u l r)
        { i with
          chorusRingL := ringL, chorusRingR := ringR, chorusPos := (i.chorusPos + 1) % n
          chorusPhase := wrapPhase
            (i.chorusPhase.add (Sys2Proof.Num.twoPi.div (c.chorusPeriod.mul s.sampleRate))) Sys2Proof.Num.twoPi }
        (half.mul (((l.sub (tap ringL 0 0)).add (tap ringL 0 1)).sub (tap ringL 0 2)))
        (half.mul (((r.sub (tap ringR 1 0)).add (tap ringR 1 1)).sub (tap ringR 1 2))) ∧
      Memory.getNum ringL (i.chorusPos % n) = l.mul m ∧ Memory.getNum ringR (i.chorusPos % n) = r.mul m ∧
      ∀ k, k ≠ i.chorusPos % n →
        Memory.getNum ringL k = Memory.getNum i.chorusRingL k ∧ Memory.getNum ringR k = Memory.getNum i.chorusRingR k) ∧
    (let at' (d : Nat) : Nat := (i.reverbPos + d) % reverbRingSize
     let o := c.reverbTaps
     let s0 := Memory.getNum i.reverbRing (at' 0)
     let s1 := Memory.getNum i.reverbRing (at' o.1)
     let s2 := Memory.getNum i.reverbRing (at' o.2.1)
     let s3 := Memory.getNum i.reverbRing (at' o.2.2)
     let a0 := (s0.add l).neg.add s1
     let a1 := (s0.add r).neg.sub s1
     let a2 := s2.neg.add s3
     let a3 := s2.neg.sub s3
     let low (k : Nat) (f : Sys2Proof.Num) : Sys2Proof.Num :=
      (get4 i.reverbLP k).add (((f.mul (c.reverbFeedback ins.reverb)).sub (get4 i.reverbLP k)).mul c.reverbSmoothing)
     let l0 := low 0 (a0.add a2)
     let l1 := low 1 (a1.add a3)
     let l2 := low 2 (a0.sub a2)
     let l3 := low 3 (a1.sub a3)
     ∃ ring, gives (.fxReverb u l r)
        { i with reverbRing := ring, reverbLP := #v[l0, l1, l2, l3], reverbPos := (i.reverbPos + 1) % reverbRingSize }
        (((l.add s1).add s2).add s3) (((r.add s0).add s2).sub s3) ∧
      ∀ k, Memory.getNum ring k =
        if k = at' 0 then l3.mul m else if k = at' o.2.2 then l2.mul m else if k = at' o.2.1 then l1.mul m
        else if k = at' o.1 then l0.mul m else Memory.getNum i.reverbRing k) ∧
    (∀ u', s.eng.slots[u']? = none →
      exec (.fxPan u' l) s = .next (s.withFault 2#8 (headerInfo (Instr.header (.fxPan u' l)))) ∧
      exec (.fxChorus u' l r) s = .next (s.withFault 2#8 (headerInfo (Instr.header (.fxChorus u' l r)))) ∧
      exec (.fxReverb u' l r) s = .next (s.withFault 2#8 (headerInfo (Instr.header (.fxReverb u' l r)))))

/-- `FX.RUN` on an instrument slot: every `SCRATCH` element of the run is 0 after it, the others keep their values; the
mix changes only at `pos .. pos + runLength − 1`; a slot with no effect enabled adds `SCRATCH[j]` to both sides; only
that slot changes besides. The effect filter is loaded for the run; then each sample is the composition of the enabled
stages (`FX.DISTORT`, `FX.BITCRUSH`, `FX.FILTER` of a filter with points, `FX.PAN` or the pair `(s, s)`, `FX.CHORUS`,
`FX.REVERB`), added to the mix. A bad length takes `BadOperand` (R280, R286, R300).
Where it rests on the model's choice, that is logged as assumptions 59, 77, 78, 97, 111. -/
def Obligations.EffectChain : Prop :=
  ∀ (s : State) (u pos n : Nat) (i : Slot) (ins : Instrument), s.fault = false →
    s.eng.slots[u]? = some i → slotInstrument s.song u = some ins →
    (1 ≤ n → n ≤ s.eng.runMax Config.cfg → pos + n ≤ s.eng.mixSize Config.cfg → Memory.numWf s.eng.scratch = true →
      ∃ t j, exec (.fxRun u pos n) s = .next t ∧ t = { s with eng := t.eng } ∧
        t.eng = { s.eng with
          scratch := t.eng.scratch, mixL := t.eng.mixL, mixR := t.eng.mixR, slots := s.eng.slots.set u j } ∧
        (∀ k, k < n → Memory.getNum t.eng.scratch k = Sys2Proof.Num.zero) ∧
        (∀ k, n ≤ k → Memory.getNum t.eng.scratch k = Memory.getNum s.eng.scratch k) ∧
        (∀ k, (k < pos ∨ pos + n ≤ k) →
          t.eng.readMixL k = s.eng.readMixL k ∧ t.eng.readMixR k = s.eng.readMixR k) ∧
        (ins.effects = 0 → ins.distortionFilter = [] → ∀ k, k < n →
          t.eng.readMixL (pos + k) = (s.eng.readMixL (pos + k)).add (Memory.getNum s.eng.scratch k) ∧
          t.eng.readMixR (pos + k) = (s.eng.readMixR (pos + k)).add (Memory.getNum s.eng.scratch k)) ∧
        j.awake = i.awake ∧ j.tonesThisTick = i.tonesThisTick ∧ j.fxFilterCount = ins.distortionFilter.length) ∧
    (1 ≤ n → n ≤ s.eng.runMax Config.cfg → pos + n ≤ s.eng.mixSize Config.cfg →
      let loaded : State := { s with eng := { s.eng with slots := s.eng.slots.set u (s.loadedSlot ins n i) } }
      exec (.fxRun u pos n) s =
        .next { s with eng := ((List.range n).foldl (State.effectSample u pos ins) loaded).eng }) ∧
    ((n = 0 ∨ s.eng.runMax Config.cfg < n ∨ s.eng.mixSize Config.cfg < pos + n) →
      exec (.fxRun u pos n) s = .next (s.withFault 4#8 (headerInfo (Instr.header (.fxRun u pos n)))))

/-- `FX.TAIL` on an instrument slot: a slot that had tones stays open; a silent one that is not flushing counts towards
the attenuation and begins to flush at 1; one that was flushing at the start of the tick counts the samples and sets
its deactivation flag when they reach the delay capacity, be it that tones have opened it again; the tone count falls
to 0. No ring, no other slot and no tone changes (R310 to R312).
Where it rests on the model's choice, that is logged as assumptions 27, 102. -/
def Obligations.TailUpdate : Prop :=
  ∀ (s : State) (u : Nat) (i : Slot) (ins : Instrument), s.fault = false →
    s.eng.slots[u]? = some i → slotInstrument s.song u = some ins →
    let leaves (j : Slot) : Prop :=
      exec (.fxTail u) s = .next { s with eng := { s.eng with slots := s.eng.slots.set u j } }
    let ticks := Config.cfg.tailTicksOf ins s.sampleRate s.eng.clock.samplesPerTick
    let p := i.attenuationProgress.add (Sys2Proof.Num.one.div ticks)
    let n := i.flushedSamples.add s.eng.clock.samplesPerTick
    let first := Sys2Proof.Num.zero.add s.eng.clock.samplesPerTick
    let full (v : Sys2Proof.Num) : Bool := (Sys2Proof.Num.ofNat (delayCapacity Config.cfg s.sampleRate ins)).le v
    (0 < i.tonesThisTick → i.flushing = false → leaves { i with
      attenuationProgress := Sys2Proof.Num.zero, flushing := false, flushedSamples := Sys2Proof.Num.zero
      delayInputMult := Sys2Proof.Num.one, tonesThisTick := 0 }) ∧
    (0 < i.tonesThisTick → i.flushing = true → leaves { i with
      attenuationProgress := Sys2Proof.Num.zero, flushing := false, flushedSamples := first
      deactivateAfterThisTick := full first || i.deactivateAfterThisTick
      delayInputMult := Sys2Proof.Num.one, tonesThisTick := 0 }) ∧
    (i.tonesThisTick = 0 → i.flushing = false → Sys2Proof.Num.one.le p = true → leaves { i with
      attenuationProgress := p, flushing := true, delayInputMult := Sys2Proof.Num.zero
      flushedSamples := Sys2Proof.Num.zero }) ∧
    (i.tonesThisTick = 0 → i.flushing = false → Sys2Proof.Num.one.le p = false →
      leaves { i with attenuationProgress := p }) ∧
    (i.tonesThisTick = 0 → i.flushing = true → leaves { i with
      flushedSamples := n
      deactivateAfterThisTick := full n || i.deactivateAfterThisTick })

/-! Master stage and clock (R320 to R348). -/

/-- `LIMIT`: the follower's new `limit`, which is 0 or finite and not below the denormal threshold, and the two samples
divided by it; nothing else changes (R320, R321, R322).
Where it rests on the model's choice, that is logged as assumptions 17, 45. -/
def Obligations.Limiter : Prop :=
  ∀ (s : State) (l r : Sys2Proof.Num), s.fault = false →
    let div (m : Sys2Proof.Num) : Sys2Proof.Num :=
      if Sys2Proof.Num.one.le m then m.mul (Sys2Proof.Num.ofRat 105 100)
      else (m.mul (Sys2Proof.Num.ofRat 8 10)).add quarter
    let peak := Sys2Proof.Num.max l.abs r.abs
    let rate :=
      if s.eng.limit.lt peak then (Sys2Proof.Num.ofNat 4000).div s.sampleRate
      else ((Sys2Proof.Num.ofNat 4).div s.sampleRate).mul (Sys2Proof.Num.one.add s.eng.limit)
    let next := s.eng.limit.add ((peak.sub s.eng.limit).mul rate)
    ∃ t m, exec (.limit l r) s = .next t ∧
      t = { s with r := t.r, eng := { s.eng with limit := m } } ∧ (∀ k, 2 ≤ k → t.result k = s.result k) ∧
      m.isFinite = true ∧ (m = Sys2Proof.Num.zero ∨ m.abs.lt sanitizeMin = false) ∧
      t.result 0 = some ((l.mul s.volume).div (div m)) ∧ t.result 1 = some ((r.mul s.volume).div (div m)) ∧
      (l.isNaN = false → r.isNaN = false →
        (next.isFinite = true → next.abs.lt sanitizeMin = false → m = next) ∧
        ((next.isFinite = false ∨ next.abs.lt sanitizeMin = true) → m = Sys2Proof.Num.zero))

/-- `CLK.ADV` inside a tick moves the countdown alone; at a tick's end the tick advances and the remainder is carried into
the next tick, and the song, the registers and the mix stay; a tick that ends a part restarts at 0 and the part, beat
and bar move on (shown for a silent block, where no tone is made or ended); a length of 0 or beyond the tick takes
`BadOperand` (R336, R337, R338, R340).
Where it rests on the model's choice, that is logged as assumptions 29, 94. -/
def Obligations.ClockAdvance : Prop :=
  ∀ (s : State) (n : Nat), s.fault = false →
    let k := s.eng.clock
    let left := k.tickSampleCountdown.sub (Sys2Proof.Num.ofNat n)
    let spt := Config.cfg.samplesPerTickOf s.sampleRate s.song.tempo
    (1 ≤ n → n ≤ ceilCount k.tickSampleCountdown → left.le Sys2Proof.Num.zero = false →
      exec (.clkAdv n) s = .next { s with eng := { s.eng with clock := { k with tickSampleCountdown := left } } }) ∧
    (1 ≤ n → n ≤ ceilCount k.tickSampleCountdown → left.le Sys2Proof.Num.zero = true →
      k.tick + 1 ≠ Config.cfg.ticksPerPart → ∃ t, exec (.clkAdv n) s = .next t ∧ t = { s with eng := t.eng } ∧
        t.eng = { s.eng with
          tones := t.eng.tones, activeTones := t.eng.activeTones, releasedTones := t.eng.releasedTones
          slots := t.eng.slots, clock := { k with
            tick := k.tick + 1, samplesPerTick := spt, tickSampleCountdown := left.add spt } }) ∧
    (1 ≤ n → n ≤ ceilCount k.tickSampleCountdown → left.le Sys2Proof.Num.zero = true →
      k.tick + 1 = Config.cfg.ticksPerPart → s.Silent → ∃ t, exec (.clkAdv n) s = .next t ∧
        t = { s with eng := t.eng } ∧ t.eng = { s.eng with
          tones := t.eng.tones, slots := t.eng.slots, clock := { advancePart Config.cfg s.song k with
            tick := 0, samplesPerTick := spt, tickSampleCountdown := left.add spt } }) ∧
    ((n = 0 ∨ ceilCount k.tickSampleCountdown < n) →
      exec (.clkAdv n) s = .next (s.withFault 4#8 (headerInfo (Instr.header (.clkAdv n)))))

/-- `TICK.END`: the tick advances, or at a part's end restarts at 0 while the part moves on (shown for a silent block),
and `samplesPerTick` is computed again; every released tone on its last tick is freed and every other one ages by a
tick; a slot flagged for deactivation falls asleep with empty rings, its low-pass states, its histories, its crush
state and its flushing flags cleared, its positions and its chorus phase kept; an awake one has its tail updated as
`FX.TAIL` does and is swept as `SANITIZE` does; the rest of the clock, the memories outside tones and slots and the song
stay. At a part's end, with whatever tones sound, the tick restarts at 0 and what a tick inside a part does to tones and
slots comes before what `PART.END` does (R310, R313, R337, R338, R340, R341).
Where it rests on the model's choice, that is logged as assumptions 28, 29, 94, 102. -/
def Obligations.TickBoundary : Prop :=
  (∀ s : State, s.fault = false → s.eng.clock.tick + 1 ≠ Config.cfg.ticksPerPart →
    s.eng.releasedTones.flatten.Nodup → ∃ t, exec .tickEnd s = .next t ∧ t = { s with eng := t.eng } ∧
      t.eng = { s.eng with
        tones := t.eng.tones, activeTones := t.eng.activeTones, releasedTones := t.eng.releasedTones
        slots := t.eng.slots, clock := { s.eng.clock with
          tick := s.eng.clock.tick + 1
          samplesPerTick := Config.cfg.samplesPerTickOf s.sampleRate s.song.tempo } } ∧
      (∀ (u : Nat) (a : Tone), s.eng.tones[u]? = some a → ∃ b : Tone, t.eng.tones[u]? = some b ∧
        (u ∈ s.eng.releasedTones.flatten → a.isLastTick = true → b.state = .free) ∧
        (u ∈ s.eng.releasedTones.flatten → a.isLastTick = false →
          b.state = a.state ∧ b.ticksSinceReleased = a.ticksSinceReleased + 1) ∧
        (u ∉ s.eng.releasedTones.flatten →
          b.state = a.state ∧ b.ticksSinceReleased = a.ticksSinceReleased)) ∧
      (∀ (u : Nat) (i : Slot), s.eng.slots[u]? = some i → ∃ j : Slot, t.eng.slots[u]? = some j ∧
        (i.deactivateAfterThisTick = true → j = { i with
          panRing := [], chorusRingL := [], chorusRingR := [], reverbRing := [], reverbLP := zeros4
          fxFilters := i.fxFilters.map (fun f => { f with
            in1 := Sys2Proof.Num.zero, in2 := Sys2Proof.Num.zero
            out1 := Sys2Proof.Num.zero, out2 := Sys2Proof.Num.zero })
          crushHold := Sys2Proof.Num.zero, crushPhase := Sys2Proof.Num.zero
          awake := false, deactivateAfterThisTick := false, flushing := false
          delayInputMult := Sys2Proof.Num.one }) ∧
        (i.deactivateAfterThisTick = false → i.awake = false → j = i) ∧
        (i.deactivateAfterThisTick = false → i.awake = true → ∀ ins, slotInstrument s.song u = some ins →
          ∃ t1 t2 i1, exec (.fxTail u) s = .next t1 ∧ t1.eng.slots[u]? = some i1 ∧
            exec .sanitize t1 = .next t2 ∧ t2.eng.slots[u]? = some j))) ∧
  (∀ s : State, s.fault = false → s.eng.clock.tick + 1 = Config.cfg.ticksPerPart → s.Silent →
    ∃ t, exec .tickEnd s = .next t ∧ t = { s with eng := t.eng } ∧ t.eng = { s.eng with
      tones := t.eng.tones, slots := t.eng.slots, clock := { advancePart Config.cfg s.song s.eng.clock with
        tick := 0, samplesPerTick := Config.cfg.samplesPerTickOf s.sampleRate s.song.tempo } }) ∧
  (∀ s b p t : State, s.fault = false → s.eng.clock.tick + 1 = Config.cfg.ticksPerPart →
    let inside (k : Clock) : Clock := { k with tick := Config.cfg.ticksPerPart }
    exec .tickEnd { s with eng := { s.eng with clock := inside s.eng.clock } } = .next b →
    p = { s with eng := { b.eng with clock := { s.eng.clock with tick := 0 } } } →
    exec .partEnd p = .next t → t.fault = false →
    exec .tickEnd s = .next { t with eng := { t.eng with clock := { t.eng.clock with
      samplesPerTick := Config.cfg.samplesPerTickOf s.sampleRate s.song.tempo } } })

/-- `PART.END`: part, beat and bar move by the carry chain, then every channel's tones are synchronised in channel order,
as `SYNC.TONES` does for each; the tick stays, and in a silent block everything but the clock (R338, R339, R341; that the clock
loops is the spec's own decision, D18). A new bar raises the model's own count of bars (assumption 94).
Where it rests on the model's choice, that is logged as assumptions 28, 94. -/
def Obligations.PartBoundary : Prop :=
  (∀ s : State, s.fault = false → s.Silent →
    let k := s.eng.clock
    let bar := if k.bar + 1 = s.song.loopStart + s.song.loopLength ∨ s.song.barCount ≤ k.bar + 1
      then s.song.loopStart else k.bar + 1
    let leaves (k' : Clock) : Prop := exec .partEnd s = .next { s with eng := { s.eng with clock := k' } }
    (k.part + 1 ≠ Config.cfg.partsPerBeat → leaves { k with part := k.part + 1 }) ∧
    (k.part + 1 = Config.cfg.partsPerBeat → k.beat + 1 ≠ s.song.beatsPerBar →
      leaves { k with part := 0, beat := k.beat + 1 }) ∧
    (k.part + 1 = Config.cfg.partsPerBeat → k.beat + 1 = s.song.beatsPerBar →
      leaves { k with part := 0, beat := 0, bar := bar, barsPassed := k.barsPassed + 1 })) ∧
  (∀ (s : State) (trace : Nat → State), s.fault = false →
    trace 0 = { s with eng := { s.eng with clock := advancePart Config.cfg s.song s.eng.clock } } →
    (∀ c, c < s.song.channelCount →
      exec (.syncTones c) (trace c) = .next (trace (c + 1)) ∧ (trace (c + 1)).fault = false) →
    exec .partEnd s = .next (trace s.song.channelCount))

/-- `BAR.NEXT` moves the bar on, to `loopStart` from the loop's or the song's last bar, and changes nothing else but the
model's own count of bars (R339; that the clock loops is the spec's own decision, D18).
Where it rests on the model's choice, that is logged as assumption 94. -/
def Obligations.BarNext : Prop :=
  ∀ s : State, s.fault = false → ∃ bar,
    exec .barNext s = .next { s with eng := { s.eng with clock := { s.eng.clock with
      bar := bar, barsPassed := s.eng.clock.barsPassed + 1 } } } ∧
    ((s.eng.clock.bar + 1 = s.song.loopStart + s.song.loopLength ∨ s.song.barCount ≤ s.eng.clock.bar + 1) →
      bar = s.song.loopStart) ∧
    (s.eng.clock.bar + 1 ≠ s.song.loopStart + s.song.loopLength → s.eng.clock.bar + 1 < s.song.barCount →
      bar = s.eng.clock.bar + 1)

/-- `SANITIZE` sweeps the filters, the noise sample and, of a guitar tone, the strings of every tone in use, and the
effect filters, lowpass states, held value and rings of every awake slot: a unit in which a value is above 100 in
magnitude is all 0 after it, else every NaN and every value below the threshold is 0 and every other value keeps its
value. A sleeping slot, a free tone and every other field keep their values; nothing but slots and tones changes
(R343). -/
def Obligations.Sanitize : Prop :=
  ∀ s : State, s.fault = false → ∃ t, exec .sanitize s = .next t ∧
    t = { s with eng := { s.eng with tones := t.eng.tones, slots := t.eng.slots } } ∧
    let zero := Sys2Proof.Num.zero
    let big (v : Sys2Proof.Num) : Bool := (Sys2Proof.Num.ofNat 100).lt v.abs && !v.isNaN
    let clean (v : Sys2Proof.Num) : Sys2Proof.Num :=
      if v.isNaN = true ∨ (v.eq zero = false ∧ v.abs.lt sanitizeMin = true) then zero else v
    let unit (l : List Sys2Proof.Num) : List Sys2Proof.Num := if l.any big then l.map (fun _ => zero) else l.map clean
    let biquad (f g : Biquad) : Prop :=
      g = { f with in1 := g.in1, in2 := g.in2, out1 := g.out1, out2 := g.out2 } ∧
        [g.in1, g.in2, g.out1, g.out2] = unit [f.in1, f.in2, f.out1, f.out2]
    let ring (m m' : Memory Sys2Proof.Num) : Prop := Memory.numWf m = true →
      ((∃ k, big (Memory.getNum m k) = true) → ∀ k, Memory.getNum m' k = zero) ∧
      ((∀ k, big (Memory.getNum m k) = false) → ∀ k, Memory.getNum m' k = clean (Memory.getNum m k))
    (∀ (u : Nat) (i : Slot), s.eng.slots[u]? = some i → ∃ j : Slot, t.eng.slots[u]? = some j ∧
      (i.awake = false → j = i) ∧
      (i.awake = true → j = { i with
          fxFilters := j.fxFilters, reverbLP := j.reverbLP, crushHold := j.crushHold, panRing := j.panRing
          chorusRingL := j.chorusRingL, chorusRingR := j.chorusRingR, reverbRing := j.reverbRing } ∧
        [j.crushHold] = unit [i.crushHold] ∧ j.reverbLP.toList = unit i.reverbLP.toList ∧
        j.fxFilters.length = i.fxFilters.length ∧
        (∀ (k : Nat) (f g : Biquad), i.fxFilters[k]? = some f → j.fxFilters[k]? = some g → biquad f g) ∧
        ring i.panRing j.panRing ∧ ring i.chorusRingL j.chorusRingL ∧ ring i.chorusRingR j.chorusRingR ∧
        ring i.reverbRing j.reverbRing)) ∧
    (∀ (u : Nat) (a : Tone), s.eng.tones[u]? = some a → ∃ b : Tone, t.eng.tones[u]? = some b ∧
      (a.state = .free → b = a) ∧
      (a.state ≠ .free →
        b = { a with filters := b.filters, noiseSample := b.noiseSample, strings := b.strings } ∧
        [b.noiseSample] = unit [a.noiseSample] ∧ b.filters.length = a.filters.length ∧
        (∀ (k : Nat) (f g : Biquad), a.filters[k]? = some f → b.filters[k]? = some g →
          (k < a.filterCount → biquad f g) ∧ (a.filterCount ≤ k → g = f)) ∧
        ((∀ ins, slotInstrument s.song a.instrument = some ins → ins.kind ≠ kindGuitar) → b.strings = a.strings) ∧
        (∀ ins, slotInstrument s.song a.instrument = some ins → ins.kind = kindGuitar →
          b.strings.length = a.strings.length ∧
          ∀ (k : Nat) (w z : StringState), a.strings[k]? = some w → b.strings[k]? = some z →
            z = { w with
              fracIn1 := z.fracIn1, fracOut1 := z.fracOut1, dispersion := z.dispersion, shelf := z.shelf
              ring := z.ring } ∧
            [z.fracIn1, z.fracOut1] = unit [w.fracIn1, w.fracOut1] ∧ biquad w.dispersion z.dispersion ∧
            biquad w.shelf z.shelf ∧ ring w.ring z.ring)))

/-- `SYNC.TONES` of a channel that plays nothing now (muted, an empty bar, or a pattern with no note at this part) ends
every active tone of the channel,
released where its instrument's transition releases and freed where it does not, and completes; the clock, the
memories and the other channels' queues of active tones stay. A channel that does not exist takes `BadIndex` (R345).
`SYNC.TONES` of a channel whose bar plays a note now, under every configuration. Of a note of one pitch: with no active tone, a tone is made in
the lowest free slot, filled with the note, its pitch and its neighbours, and the instrument slot wakes, or with no
slot free `ToneOverflow` is taken; an active tone of the same note is kept; one of another note is carried over where
the transition is seamless and the notes touch in one bar, else it is ended and a new one is made; the surplus is ended. Of a
chord in an idle block: as many tones as the chord's table entry wants now, in the lowest slots. After that the tone
cap makes the oldest released tones of the channel fade out fast (R28, R345, R346, R347, R348, R455). A note of another bar is
another one (R346; assumption 94). That the detail of `ToneOverflow` is the channel is assumption 35; the flag
`carried`, which a carry-over sets, is the model's own (assumption 30).
Where it rests on the model's choice, that is logged as assumptions 28, 30, 35, 64, 94. -/
def Obligations.SyncSilentChannel : Prop :=
  (∀ (s : State) (c : Nat), s.fault = false →
    (∀ (ch : Channel) (q : List Nat), s.song.channels[c]? = some ch →
      (ch.muted = true ∨ ch.bars.getD s.eng.clock.bar 0 = 0 ∨ ∃ b, ch.bars.getD s.eng.clock.bar 0 = b + 1 ∧
        ∀ p, ch.patterns[b]? = some p → ∀ note ∈ p.notes, partAbs Config.cfg s.eng.clock < note.start ∨
          note.stop ≤ partAbs Config.cfg s.eng.clock) →
      s.eng.activeTones[c]? = some q →
      (∀ u ∈ q, u < s.eng.tones.length) →
      (∀ (d : Nat) (q' : List Nat), d ≠ c → s.eng.activeTones[d]? = some q' → ∀ u ∈ q, u ∉ q') →
      ∃ t, exec (.syncTones c) s = .next t ∧
        t = { s with eng := { s.eng with
          tones := t.eng.tones, activeTones := t.eng.activeTones, releasedTones := t.eng.releasedTones } } ∧
        t.eng.activeTones[c]? = some [] ∧
        (∀ d, d ≠ c → t.eng.activeTones[d]? = s.eng.activeTones[d]?) ∧
        ∀ (u : Nat) (a : Tone), s.eng.tones[u]? = some a → ∃ b : Tone, t.eng.tones[u]? = some b ∧
          (u ∈ q →
            (slotInstrument s.song a.instrument = none → b.state = .free) ∧
            ∀ ins, slotInstrument s.song a.instrument = some ins →
              b.state = if (Config.cfg.transitions.get ins.transition).releases then .released else .free) ∧
          (u ∉ q → b = { a with fadeOutFast := b.fadeOutFast })) ∧
    (s.song.channels.length ≤ c →
      exec (.syncTones c) s = .next (s.withFault 2#8 (headerInfo (Instr.header (.syncTones c)))))) ∧
  (∀ (s : State) (c : Nat), exec (.syncTones c) s = .next (syncTonesWith (s.ctx Config.cfg (.syncTones c)) s c)) ∧
  (∀ (x : Ctx) (s : State) (c b i : Nat) (ch : Channel) (p : Pattern) (note : Note) (ins : Instrument) (q : List Nat),
    x.song = s.song → s.fault = false → s.song.channels[c]? = some ch → ch.muted = false → ch.bars.getD s.eng.clock.bar 0 = b + 1 →
    ch.patterns[b]? = some p → p.instrument < s.song.instrumentsPerChannel →
    slotInstrument s.song (c * s.song.instrumentsPerChannel + p.instrument) = some ins → p.notes[i]? = some note →
    note.start ≤ partAbs x.cfg s.eng.clock → partAbs x.cfg s.eng.clock < note.stop →
    (∀ (j : Nat) (m : Note), j < i → p.notes[j]? = some m → partAbs x.cfg s.eng.clock < m.start ∨
      m.stop ≤ partAbs x.cfg s.eng.clock) →
    s.eng.activeTones[c]? = some q →
    let cfg := x.cfg
    let islot := c * s.song.instrumentsPerChannel + p.instrument
    let chord := cfg.chords.get ins.chord
    let ref : NoteRef := ⟨b, i, s.eng.clock.barsPassed⟩
    let neighbour (j : Nat) (joins : Note → Bool) : Option NoteRef :=
      (p.notes[j]?).bind (fun m => if joins m then some ⟨b, j, ref.bar⟩ else none)
    let fill (pitches : List Nat) (t : Tone) : Tone := { t with
      channel := c, instrument := islot, note := some ref, noteStartPart := note.start, noteEndPart := note.stop
      chordSize := note.pitches.length, pitches := pitches
      prevNote := if i = 0 then none else neighbour (i - 1) (fun m => m.stop == note.start)
      nextNote := neighbour (i + 1) (fun m => m.start == note.stop) }
    let fresh : Tone := { Tone.zero cfg with state := .active }
    let ends (e : Engine) : Prop := syncTonesWith x s c = { s with eng := capTones x c e }
    let overflow : Prop := syncTonesWith x s c = s.withFault 7#8 (BitVec.ofNat 32 (c % 2 ^ 16))
    let makes (e : Engine) (pitch : Nat) : Prop :=
      (∀ (v : Nat) (a : Tone), e.tones[v]? = some a → a.state = .free →
        (∀ (j : Nat) (d : Tone), j < v → e.tones[j]? = some d → d.state ≠ .free) →
          ends { e with
            tones := e.tones.set v (fill [pitch] fresh)
            activeTones := e.activeTones.set c [v]
            slots := e.slots.modify islot Slot.wake }) ∧
      ((∀ a ∈ e.tones, a.state ≠ .free) → overflow)
    (∀ pitch, note.pitches = [pitch] →
      (q = [] → makes s.eng pitch) ∧
      (∀ (v : Nat) (rest : List Nat) (a : Tone), q = v :: rest → s.eng.tones[v]? = some a →
        (a.note = some ref → ends (endTones x rest s.eng)) ∧
        (rest = [] → a.note ≠ some ref →
          let touches := (cfg.transitions.get ins.transition).isSeamless = true ∧ a.instrument = islot ∧
            ∃ r m, a.note = some r ∧ r.pattern = b ∧ r.bar = ref.bar ∧ p.notes[r.note]? = some m ∧ m.stop = note.start
          let kept : Tone := { fill [pitch] a with prevNote := a.note, carried := true }
          (touches → ends { s.eng with tones := s.eng.tones.set v kept }) ∧
          (¬ touches → makes (endTone x s.eng v) pitch)))) ∧
    (q = [] → note.pitches ≠ [] → (∀ a ∈ s.eng.tones, a.state = .free) →
      let together := chord.singleTone || chord.arpeggiates
      let want := if together then 1
        else if 0 < chord.strumParts then
          min note.pitches.length (1 + (partAbs cfg s.eng.clock - note.start) / chord.strumParts)
        else note.pitches.length
      (want ≤ s.eng.tones.length → ∃ e, ends e ∧
        e = { s.eng with
          tones := e.tones, activeTones := s.eng.activeTones.set c (List.range want)
          slots := s.eng.slots.modify islot Slot.wake } ∧
        (∀ k, k < want → e.tones[k]? =
          some (fill (if together then note.pitches else [note.pitches.getD k 0]) fresh)) ∧
        ∀ k, want ≤ k → e.tones[k]? = s.eng.tones[k]?) ∧
      (s.eng.tones.length < want → overflow)) ∧
    (∀ e : Engine, capTones x c e = { e with tones := (capTones x c e).tones } ∧
      ∀ (u : Nat) (a : Tone), e.tones[u]? = some a → (capTones x c e).tones[u]? = some { a with
        fadeOutFast := a.fadeOutFast || ((releasedNewestFirst s.song e c).drop
          (cfg.maximumTonesPerChannel - (e.activeTones.getD c []).length)).contains u }))

/-! The song codec (R391 to R396, R412 to R436). -/

/-- The codec reads what it writes. The bit codec: the 64 symbols, a fixed-width field, the base-64 packing up to the
zeros that fill its last symbol, the long-tail code of a value that is not below its least (a lower one is refused),
and every pitch interval but 0, which has no code (R391 to R396, R399). A record: where the writer wrote a record of the
latest version for legal values, in the context of its place, the tag reads those values and the codec moves behind
it, whatever stands around it: of a song-level tag, of a tag of the instrument under the cursor, of `T`, and of `H` and
`S` (R413, R414, R427, R441). The patterns of a legal song: each has a bit-stream, from which the reader gives the
channels back, whatever bits follow, and a `p` record of it stores them (R419 to R425, R441). A note: the JSON form
gives it back (R438).
Where it rests on the model's choice, that is logged as assumptions 48, 53, 54, 72, 74, 83, 89, 90. -/
def Obligations.BitCodecRoundTrips : Prop :=
  (∀ x : Nat, x < 64 → symbolValue (symbolOf x) = some x) ∧
  (∀ (k v : Nat) (rest : List Bool), v < 2 ^ k → readBits k (writeBits k v ++ rest) = .ok (v, rest)) ∧
  (∀ bits : List Bool, ∃ pad, pad < 6 ∧ (bits.length + pad) % 6 = 0 ∧
    (encodeBase64 bits).length = (bits.length + pad) / 6 ∧
    decodeBase64 (encodeBase64 bits) = some (bits ++ List.replicate pad false)) ∧
  (∀ m b v : Nat, (v < m → writeLongTail m b v = none) ∧
    (m ≤ v → ∃ bits, writeLongTail m b v = some bits ∧
      ∀ rest : List Bool, readLongTail m b (bits ++ rest) = .ok (v, rest))) ∧
  (∀ (k : CodecCfg) (d : Int), writePitchInterval k 0 = none ∧
    (d ≠ 0 → ∃ bits, writePitchInterval k d = some bits ∧
      ∀ rest : List Bool, readPitchInterval k (bits ++ rest) = .ok (d, rest))) ∧
  (∀ (s : State) (song : Song) (ins old : Instrument) (at' : Nat × Nat) (tag : Byte) (op : Instr)
      (pre post : List Byte), s.codec.status = .records → s.codec.version = 9 → s.codec.pos = pre.length →
    let c := Config.cfg
    let k := s.codec
    let x := shapeContext k
    let written (record : List Byte) : Prop := k.text = pre ++ (record ++ post)
    let reads (i : Instr) (record : List Byte) (good : Codec → Prop) : Prop :=
      ∃ k', exec i s = .next { s with codec := k' } ∧ k'.status = .records ∧ k'.pos = pre.length + record.length ∧ good k'
    let into (good : Instrument → Prop) (k' : Codec) : Prop := ∃ new, codecInstrument k' at' = some new ∧ good new
    let legal (t : Byte) : Prop := tagValues c song ins t ∈ legalValues c x t
    let shaped (t : Byte) : List Byte := shapedRecord c x song ins t
    (tag ∈ plainSongTags → op.tagCode = some tag.toNat → written (shaped tag) → legal tag →
      k.song.channels.length = k.song.pitchChannelCount + k.song.noiseChannelCount →
      reads op (shaped tag) (fun k' => tagValues c k'.song ins tag = tagValues c song ins tag)) ∧
    (codecInstrument k at' = some old → old.kind = ins.kind → k.cursor = some at' →
      (tag ∈ plainInstrumentTags c → tag ≠ 0x53#8 → tag ≠ 0x48#8 → op.tagCode = some tag.toNat →
        written (shaped tag) → legal tag → old.operators.length = operatorCount →
        reads op (shaped tag) (into (fun new => new.kind = ins.kind ∧
          tagValues c song new tag = tagValues c song ins tag))) ∧
      (written (instrumentRecord c x song ins 0x48#8) → ins.harmonicsWave.length = 28 →
        (∀ p ∈ ins.harmonicsWave, p ≤ c.ranges.harmonicsControl) →
        reads .tagHarmonics (instrumentRecord c x song ins 0x48#8)
          (into (fun new => new = { old with harmonicsWave := ins.harmonicsWave }))) ∧
      (written (instrumentRecord c x song ins 0x53#8) → ins.kind ≠ kindDrumset → ins.spectrumWave.length = 30 →
        (∀ p ∈ ins.spectrumWave, p ≤ c.ranges.spectrumControl) →
        reads .tagSpectrum (instrumentRecord c x song ins 0x53#8)
          (into (fun new => new = { old with spectrumWave := ins.spectrumWave }))) ∧
      (written (instrumentRecord c x song ins 0x53#8) → ins.kind = kindDrumset → ins.drumSpectrumWaves.length = 12 →
        (∀ l ∈ ins.drumSpectrumWaves, l.length = 30 ∧ ∀ p ∈ l, p ≤ c.ranges.spectrumControl) →
        reads .tagSpectrum (instrumentRecord c x song ins 0x53#8)
          (into (fun new => new = { old with drumSpectrumWaves := ins.drumSpectrumWaves })))) ∧
    (nextInstrument k.song k.cursor = at' → codecInstrument k at' = some old → written (shaped 0x54#8) → legal 0x54#8 →
      reads .tagStartInstrument (shaped 0x54#8) (fun k' => k'.cursor = some at' ∧ into (fun new =>
        new.kind = ins.kind ∧ tagValues c song new 0x54#8 = tagValues c song ins 0x54#8) k'))) ∧
  (∀ (c : Cfg) (song : Song) (channels : List Channel), songLegal c song = true →
    channels.map (fun ch => { ch with patterns := [] }) = song.channels.map (fun ch => { ch with patterns := [] }) →
    ∃ bits, writeChannels c song 0 song.channels = some bits ∧
      ∀ rest : List Bool, readChannels c false song 0 channels (bits ++ rest) = .ok (song.channels, rest)) ∧
  (∀ (s : State) (song : Song) (bits : List Bool) (pre post : List Byte), s.codec.status = .records →
    s.codec.version = 9 → s.codec.pos = pre.length → songLegal Config.cfg song = true →
    s.codec.song = { song with channels := s.codec.song.channels } →
    s.codec.song.channels.map (fun ch => { ch with patterns := [] }) =
      song.channels.map (fun ch => { ch with patterns := [] }) →
    writeChannels Config.cfg song 0 song.channels = some bits → bits.length + 6 ≤ 6 * 64 ^ 63 →
    s.codec.text = pre ++ (0x70#8 :: patternsPayload bits ++ post) →
      exec .tagPatterns s = .next { s with codec := { s.codec with
        song := song, pos := pre.length + 1 + (patternsPayload bits).length } }) ∧
  (∀ (c : Cfg) (top barParts : Nat) (n : Note), noteLegal c top barParts n = true → importNote (exportNote n) = n)

/-- The song-level records: where the payload under the tag reads as values (an index as one inside its table), the
field of R412 takes the value, `e` the value plus 1, `n` both channel counts, `o` each channel's octave; a list whose
count changes is resized; the codec moves behind the payload (R412, R413, R417). Before version 7 `m` is of these
(R434). An index outside its table is a `CodecError` at the field, and a payload of any tag with a payload shape that
is cut short or holds a character that is no symbol is one at that character (R413, R440). The text: blanks and one
`#` may lead it; nothing behind them gives the default song, a version symbol 2 to 9 begins the records with it, any
other character but an opening brace is a `CodecError`, and a brace begins the JSON form, which fails only for text
that is not JSON (R410, R411, R439). At its end the song is normalised: every numeric field of the song, a channel and
an instrument in its range, every list at its count, every note legal, `scale`, `key` and `rhythm` as they were read;
a song that is legal already stays (R417, R441). Normalised is the codec's song after the pending legacy filters are
translated, one that is flat, of no envelope and of cutoff 10 into no point and every other one into one lowpass
point, and after the legacy global reverb, clamped to 0 to 4, is put with its effect bit into every instrument of
every pitch channel (R431, R434). Then what no record carries is as in the default song at the same counts: the mute
flags, and in an instrument the wave and the drum fields of kinds that are not its own; no record of the song changes
with that, and doing it again changes nothing (R410, R412, R441). A text that is written: the version symbol, the
song-level records, the instruments' records, `b`, `p`, each tag as often as it must and `o` behind `n` (R442).
Where it rests on the model's choice, that is logged as assumptions 48, 49, 50, 52, 53, 73, 80, 92, 93, 95, 97, 103,
104, 108, 113, 114. -/
def Obligations.SongTags : Prop :=
  (∀ (s : State) (v : Nat) (vs : List Nat) (next : Nat), s.codec.status = .records →
    let c := Config.cfg
    let k := s.codec
    let song := k.song
    let ends (op : Instr) (k' : Codec) : Prop := exec op s = .next { s with codec := k' }
    let stores (op : Instr) (song' : Song) : Prop := ends op { k with song := song', pos := next }
    let has (tag : Byte) : Prop := payload c k tag = .ok (v :: vs, next)
    let fails (op : Instr) (tag : Byte) (position : Nat) : Prop :=
      ends op { k with status := .failed (some tag) position }
    let enum (op : Instr) (tag : Byte) (n : Nat) (song' : Song) : Prop :=
      has tag → (v < n → stores op song') ∧ (n ≤ v → fails op tag (fieldPosition c k tag 0))
    (has 0x61#8 → stores .tagBeatsPerBar { song with beatsPerBar := v }) ∧
    (has 0x65#8 → stores .tagLoopEnd { song with loopLength := v + 1 }) ∧
    (has 0x6C#8 → stores .tagLoopStart { song with loopStart := v }) ∧
    (has 0x74#8 → stores .tagTempo { song with tempo := v }) ∧
    (has 0x67#8 → stores .tagBarCount (resizeCounts c.initialSong song { song with barCount := v })) ∧
    (has 0x69#8 →
      stores .tagInstrumentCount (resizeCounts c.initialSong song { song with instrumentsPerChannel := v })) ∧
    (has 0x6A#8 → stores .tagPatternCount (resizeCounts c.initialSong song { song with patternsPerChannel := v })) ∧
    (∀ w ws, vs = w :: ws → has 0x6E#8 → stores .tagChannelCount
      (resizeCounts c.initialSong song { song with pitchChannelCount := v, noiseChannelCount := w })) ∧
    enum .tagKey 0x6B#8 c.keyCount { song with key := v } ∧
    enum .tagScale 0x73#8 c.scaleCount { song with scale := v } ∧
    enum .tagRhythm 0x72#8 c.rhythmCount { song with rhythm := v } ∧
    (3 ≤ k.version → has 0x6F#8 → ∃ song', stores .tagChannelOctave song' ∧
      song' = { song with channels := song'.channels } ∧ song'.channels.length = song.channels.length ∧
      ∀ (i : Nat) (ch : Channel), song.channels[i]? = some ch →
        song'.channels[i]? = some { ch with octave := (v :: vs).getD i ch.octave }) ∧
    (k.version < 7 → has 0x6D#8 → ends .tagReverb { k with legacyReverb := some v, pos := next }) ∧
    (∀ (op : Instr) (tag : Byte) (e : Nat), op.tagCode = some tag.toNat →
      tag ∉ ([0x62#8, 0x70#8, 0x48#8, 0x53#8, 0x54#8] : List Byte) → payload c k tag = .error e → fails op tag e)) ∧
  (∀ s : State, s.resetPin = false → s.turn = .codec →
    let c := Config.cfg
    let k := s.codec
    let becomes (k' : Codec) : Prop := step s = .next { s with codec := k' }
    let started (k' : Codec) : Codec :=
      { k' with song := c.initialSong, cursor := none, legacy := [], legacyReverb := none, output := [] }
    (k.status = .framing → ∀ (blanks rest : List Byte) (i : Nat), k.text = blanks ++ rest →
      (∀ ch ∈ blanks, ch ∈ ([0x20#8, 0x09#8, 0x0D#8, 0x0A#8] : List Byte)) →
      (∀ ch ∈ rest.head?, ch ∉ ([0x20#8, 0x09#8, 0x0D#8, 0x0A#8] : List Byte)) →
      i = blanks.length + (if rest.head? = some 0x23#8 then 1 else 0) →
        (k.text.length ≤ i → becomes { started k with pos := i, version := 9, status := .done }) ∧
        (∀ (ch : Byte) (v : Nat), k.text[i]? = some ch → symbolValue ch = some v → 2 ≤ v → v ≤ 9 →
          becomes { started k with pos := i + 1, version := v, status := .records }) ∧
        (∀ ch : Byte, k.text[i]? = some ch → ch ≠ 0x7B#8 → (∀ v, symbolValue ch = some v → v < 2 ∨ 9 < v) →
          becomes { started k with status := .failed none i }) ∧
        (k.text[i]? = some 0x7B#8 → parseJson (k.text.drop i) = none → becomes { k with status := .failed none i }) ∧
        (∀ j, k.text[i]? = some 0x7B#8 → parseJson (k.text.drop i) = some j → becomes { k with
          song := importJson c j, cursor := none, legacy := [], legacyReverb := none, pos := k.text.length
          version := 9, status := .done })) ∧
    (k.status = .records → k.text.length ≤ k.pos → ∃ song, becomes { k with
        song := song, legacy := [], legacyReverb := none, status := .done } ∧
      song = settleUnwritten c (normaliseSong c (match k.legacyReverb with
        | none => k.legacy.foldl (translateLegacy c) k.song
        | some g => transferReverb (k.legacy.foldl (translateLegacy c) k.song) g)) ∧
      (1 ≤ song.tempo ∧ song.tempo ≤ c.tempoMax ∧ 1 ≤ song.beatsPerBar ∧ song.beatsPerBar ≤ c.beatsPerBarMax ∧
        1 ≤ song.barCount ∧ song.barCount ≤ c.barCountMax ∧ 1 ≤ song.loopLength ∧
        song.loopStart + song.loopLength ≤ song.barCount ∧ song.patternsPerChannel ≤ c.ranges.patternsPerChannel ∧
        song.instrumentsPerChannel ≤ c.ranges.instrumentsPerChannel ∧
        song.pitchChannelCount ≤ c.ranges.pitchChannelCount ∧ song.noiseChannelCount ≤ c.ranges.noiseChannelCount) ∧
      (song.scale = k.song.scale ∧ song.key = k.song.key ∧ song.rhythm = k.song.rhythm) ∧
      (∀ ch ∈ song.channels, ∀ ins ∈ ch.instruments,
        let filter (l : List FilterPoint) : Prop := l.length ≤ c.filterMaxPoints ∧
          ∀ p ∈ l, p.kind ≤ 2 ∧ p.freq < c.filterFreqRange ∧ p.gain < c.filterGainRange
        let controls (n top : Nat) (l : List Nat) : Prop := l.length = n ∧ ∀ v ∈ l, v ≤ top
        ins.volume ≤ c.ranges.volume ∧ filter ins.filter ∧ filter ins.distortionFilter ∧ ins.effects < 32 ∧
        ins.distortion < c.distortionRange ∧ ins.bitcrusherFreq ≤ c.ranges.bitcrusherFreq ∧
        ins.bitcrusherQuantization ≤ c.ranges.bitcrusherQuantization ∧ ins.pan ≤ c.panMax ∧
        ins.reverb < c.reverbRange ∧ ins.operators.length = 4 ∧
        (∀ o ∈ ins.operators, o.frequency ≤ c.ranges.operatorFrequency ∧ o.amplitude ≤ c.ranges.operatorAmplitude) ∧
        ins.feedbackAmplitude ≤ c.ranges.feedbackAmplitude ∧ ins.pulseWidth ≤ c.ranges.pulseWidth ∧
        ins.sustain ≤ c.ranges.sustain ∧ controls 30 c.ranges.spectrumControl ins.spectrumWave ∧
        controls 28 c.ranges.harmonicsControl ins.harmonicsWave ∧ ins.drumEnvelopes.length = 12 ∧
        ins.drumSpectrumWaves.length = 12 ∧
        ∀ w ∈ ins.drumSpectrumWaves, controls 30 c.ranges.spectrumControl w) ∧
      song.channels.length = song.pitchChannelCount + song.noiseChannelCount ∧
      ∀ (n : Nat) (ch : Channel), song.channels[n]? = some ch → ch.octave ≤ c.ranges.octave ∧
        ch.bars.length = song.barCount ∧ (∀ b ∈ ch.bars, b ≤ song.patternsPerChannel) ∧
        ch.instruments.length = song.instrumentsPerChannel ∧ ch.patterns.length = song.patternsPerChannel ∧
        ∀ p ∈ ch.patterns, patternLegal c song.instrumentsPerChannel (topPitch c song n)
          (song.beatsPerBar * c.partsPerBeat) p = true) ∧
    (k.status = .encoding →
      (writeChannels c k.song 0 k.song.channels = none → becomes { k with status := .failed (some 0x70#8) k.pos }) ∧
      (∀ bits, writeChannels c k.song 0 k.song.channels = some bits → becomes { k with
        output := symbolOf 9 :: (songRecords c k.song (startContext c) (songTags c) ++
          instrumentRecords c k.song (songContext c k.song) (songInstruments k.song) ++
          0x62#8 :: barsPayload k.song ++ 0x70#8 :: patternsPayload bits)
        status := .done })) ∧
    (k.status = .exporting → becomes { k with output := writeJson (exportJson c k.song), status := .done }) ∧
    ((k.status = .idle ∨ k.status = .done ∨ ∃ tag i, k.status = .failed tag i) → step s = .next s)) ∧
  (∀ (c : Cfg) (song : Song), songLegal c song = true → normaliseSong c song = song) ∧
  (∀ (c : Cfg) (song : Song), let settled := settleUnwritten c song
    settled = { song with channels := settled.channels } ∧ settled.channels.length = song.channels.length ∧
    settleUnwritten c settled = settled ∧
    ∀ (n : Nat) (ch dflt : Channel), song.channels[n]? = some ch →
      (resizeCounts c.initialSong c.initialSong song).channels[n]? = some dflt → ∃ new, settled.channels[n]? = some new ∧
        new = { ch with muted := dflt.muted, instruments := new.instruments } ∧
        new.instruments.length = ch.instruments.length ∧
        ∀ (j : Nat) (ins base : Instrument), ch.instruments[j]? = some ins → dflt.instruments[j]? = some base →
          new.instruments[j]? = some (withUnwritten base ins)) ∧
  (∀ (c : Cfg) (song : Song) (x : ShapeContext) (base ins : Instrument) (tag : Byte),
    let new := withUnwritten base ins
    instrumentRecord c x song new tag = instrumentRecord c x song ins tag ∧
    new = { ins with
      chipWave := new.chipWave, noiseWave := new.noiseWave, spectrumWave := new.spectrumWave
      drumSpectrumWaves := new.drumSpectrumWaves, drumEnvelopes := new.drumEnvelopes } ∧
    (ins.kind = kindNoise → new.noiseWave = ins.noiseWave ∧ new.chipWave = base.chipWave) ∧
    (ins.kind ≠ kindNoise → new.noiseWave = base.noiseWave ∧ new.chipWave = ins.chipWave) ∧
    (ins.kind = kindDrumset → new.spectrumWave = base.spectrumWave ∧
      new.drumSpectrumWaves = ins.drumSpectrumWaves ∧ new.drumEnvelopes = ins.drumEnvelopes) ∧
    (ins.kind ≠ kindDrumset → new.spectrumWave = ins.spectrumWave ∧
      new.drumSpectrumWaves = base.drumSpectrumWaves ∧ new.drumEnvelopes = base.drumEnvelopes)) ∧
  (∀ (song : Song) (g : Nat), transferReverb song g = { song with channels := (transferReverb song g).channels } ∧
    (transferReverb song g).channels.length = song.channels.length ∧
    ∀ (n : Nat) (ch : Channel), song.channels[n]? = some ch → (transferReverb song g).channels[n]? = some
      (if n < song.pitchChannelCount then { ch with instruments := ch.instruments.map (fun ins =>
        { ins with reverb := min 4 g, effects := ins.effects ||| 16 }) } else ch)) ∧
  (∀ (c : Cfg) (song : Song) (l : LegacyFilter) (ch : Channel) (ins : Instrument),
    song.channels[l.channel]? = some ch → ch.instruments[l.instrument]? = some ins →
    let cutoff := min 10 (l.cutoff.getD c.codec.legacyCutoffDefault)
    let resonance := min 7 (l.resonance.getD c.codec.legacyResonanceDefault)
    let envelope := l.envelope.getD ins.filterEnvelope
    let filtered (points : List FilterPoint) : Channel :=
      { ch with instruments := ch.instruments.set l.instrument { ins with filter := points } }
    let gives (points : List FilterPoint) : Prop :=
      translateLegacy c song l = { song with channels := song.channels.set l.channel (filtered points) }
    let flat : Prop := c.codec.legacyIsResonant resonance = false ∧ (c.envelopes.get envelope).kind = 0 ∧ cutoff = 10
    (flat → gives []) ∧
      (¬ flat → ∃ freq gain, freq < c.filterFreqRange ∧ gain < c.filterGainRange ∧ gives [⟨0, freq, gain⟩])) ∧
  (∀ (c : Cfg) (name : List Byte), (songTags c).Perm plainSongTags ∧
    (songTags c).idxOf 0x6E#8 < (songTags c).idxOf 0x6F#8 ∧ (instrumentTags c).Perm (plainInstrumentTags c) ∧
    [0, 1, 2, 3].map volumeOfExpression = [0, 33, 67, 100] ∧
    (∀ v : Nat, v ≤ 100 → expressionOfVolume (.num v 0) = (6 * v + 100) / 200) ∧
    (∀ (names : List (List Byte)) (d i : Nat), names.findIdx? (· == ascii "dbl harmonic :)") = some i →
      lookUpName c.codec names d (ascii "romani :)") = i) ∧
    ((∀ p ∈ nameAliases c.codec, p.1 ≠ name) →
      (name ∉ c.codec.transitionNames → lookUpTransition c name = min (c.transitions.length - 1) 1) ∧
      (∀ i, name ∉ c.codec.scaleNames → c.codec.scaleNames.findIdx? (· == ascii "expert") = some i →
        lookUpScale c name = min (c.scaleCount - 1) i)))

/-- The records of one value of the instrument under the cursor (from version 3 on): the field of R412 takes the value
(an index one inside its table, else it is a `CodecError` at the field), where the record carries the twelve envelopes
of a drumset those are set with it, and no other field of the instrument, no other instrument and nothing else of the
state changes but the position. `w` sets the chip or the noise wave by the kind; `q` is the bitmask from version 6 on
and an index into the legacy list before; `V` sets its field before version 9 only; `y` is kept for the translator
before version 9 and sets nothing from then on, `z` sets its field in every version (R412, R413, R427, R430, R435, R440).
Where it rests on the model's choice, that is logged as assumptions 48, 49, 50, 51, 112. -/
def Obligations.InstrumentTags : Prop :=
  ∀ (s : State) (at' : Nat × Nat) (ins : Instrument) (v : Nat) (vs ds : List Nat) (next : Nat),
    s.codec.status = .records → 3 ≤ s.codec.version → s.codec.cursor = some at' →
    codecInstrument s.codec at' = some ins → (∀ e ∈ ds, e < Config.cfg.envelopes.length) →
    let c := Config.cfg
    let k := s.codec
    let drums (tag : Byte) : Bool := carriesDrums c (shapeContext k) tag
    let has (tag : Byte) : Prop :=
      payload c k tag = .ok (v :: (vs ++ ds), next) ∧ ds.length = if drums tag then drumCount else 0
    let put (op : Instr) (tag : Byte) (j : Instrument) (l : List LegacyFilter) : Prop :=
      has tag → exec op s = .next { s with codec := { k with
        song := modifyInstrument k.song at' (fun _ => if drums tag then { j with drumEnvelopes := ds } else j)
        legacy := l, pos := next } }
    let stores (op : Instr) (tag : Byte) (j : Instrument) : Prop := put op tag j k.legacy
    let refuses (op : Instr) (tag : Byte) : Prop := has tag → exec op s = .next { s with codec := { k with
      status := .failed (some tag) (fieldPosition c k tag 0) } }
    let enum (op : Instr) (tag : Byte) (n : Nat) (j : Instrument) : Prop :=
      (v < n → stores op tag j) ∧ (n ≤ v → refuses op tag)
    enum .tagVibrato 0x63#8 c.vibratos.length { ins with vibrato := v } ∧
    enum .tagTransition 0x64#8 c.transitions.length { ins with transition := v } ∧
    enum .tagInterval 0x68#8 c.intervals.length { ins with interval := v } ∧
    enum .tagPreset 0x75#8 c.presetCount { ins with preset := v } ∧
    enum .tagAlgorithm 0x41#8 c.algorithms.length { ins with algorithm := v } ∧
    enum .tagChord 0x43#8 c.chords.length { ins with chord := v } ∧
    enum .tagFeedbackType 0x46#8 c.feedbacks.length { ins with feedbackType := v } ∧
    (k.version < 9 → enum .tagFeedbackEnvelope 0x56#8 c.envelopes.length { ins with feedbackEnvelope := v }) ∧
    (9 ≤ k.version → stores .tagFeedbackEnvelope 0x56#8 ins) ∧
    (ins.kind = kindNoise → enum .tagWave 0x77#8 c.noiseWaveCount { ins with noiseWave := v }) ∧
    (ins.kind ≠ kindNoise → enum .tagWave 0x77#8 c.chipWaves.length { ins with chipWave := v }) ∧
    stores .tagVolume 0x76#8 { ins with volume := v } ∧
    stores .tagDistortion 0x44#8 { ins with distortion := v } ∧
    stores .tagPan 0x4C#8 { ins with pan := v } ∧
    stores .tagSustain 0x55#8 { ins with sustain := v } ∧
    (7 ≤ k.version → stores .tagReverb 0x6D#8 { ins with reverb := v }) ∧
    (6 ≤ k.version → stores .tagEffects 0x71#8 { ins with effects := v }) ∧
    (k.version < 6 → enum .tagEffects 0x71#8 c.codec.legacyEffects.length
      { ins with effects := c.codec.legacyEffects.getD v 0 }) ∧
    (9 ≤ k.version → enum .tagFilterEnvelope 0x7A#8 c.envelopes.length { ins with filterEnvelope := v }) ∧
    (k.version < 9 → v < c.envelopes.length → put .tagFilterEnvelope 0x7A#8 { ins with filterEnvelope := v }
      (legacyEntry k.legacy at' (fun l => { l with envelope := some v }))) ∧
    (9 ≤ k.version → stores .tagFilterResonance 0x79#8 ins) ∧
    (k.version < 9 → put .tagFilterResonance 0x79#8 ins
      (legacyEntry k.legacy at' (fun l => { l with resonance := some v })))

/-- The records of several values of the instrument under the cursor, under the same conditions and with the same
envelopes of a drumset: the control points of `f` and `G`, three values a point, and behind them `filterEnvelope` where
`f` carries it; `R` and `W` with two fields, `B` with the feedback envelope where it carries it; the operators'
amplitudes and frequencies of `P` and `Q`, with the envelopes behind them where this one carries those, and the
envelopes of `E` before version 9, whatever values follow them; before version 9 `f` carries the legacy cutoff. An envelope of `W` outside the table
is a `CodecError` at the second field (R412, R427, R430, R436, R440).
Where it rests on the model's choice, that is logged as assumptions 48, 49, 50, 51. -/
def Obligations.CompoundTags : Prop :=
  ∀ (s : State) (at' : Nat × Nat) (ins : Instrument) (ds : List Nat) (next : Nat), s.codec.status = .records →
    3 ≤ s.codec.version → s.codec.cursor = some at' → codecInstrument s.codec at' = some ins →
    (∀ e ∈ ds, e < Config.cfg.envelopes.length) → ins.operators.length = operatorCount →
    let c := Config.cfg
    let k := s.codec
    let drums (tag : Byte) : Bool := carriesDrums c (shapeContext k) tag
    let has (tag : Byte) (vs : List Nat) : Prop :=
      payload c k tag = .ok (vs ++ ds, next) ∧ ds.length = if drums tag then drumCount else 0
    let put (op : Instr) (tag : Byte) (vs : List Nat) (j : Instrument) (l : List LegacyFilter) : Prop :=
      has tag vs → exec op s = .next { s with codec := { k with
        song := modifyInstrument k.song at' (fun _ => if drums tag then { j with drumEnvelopes := ds } else j)
        legacy := l, pos := next } }
    let stores (op : Instr) (tag : Byte) (vs : List Nat) (j : Instrument) : Prop := put op tag vs j k.legacy
    let values (l : List FilterPoint) : List Nat := l.flatMap (fun p => [p.kind, p.freq, p.gain])
    (∀ (l : List FilterPoint) (e : Nat), (∀ p ∈ l, p.kind < 3) →
      (9 ≤ k.version → e < c.envelopes.length →
        stores .tagFilter 0x66#8 (values l ++ if filterEnvelopePacked c k.version then [e] else [])
          { ins with
            filter := l
            filterEnvelope := if filterEnvelopePacked c k.version then e else ins.filterEnvelope }) ∧
      stores .tagDistortionFilter 0x47#8 (values l) { ins with distortionFilter := l }) ∧
    (k.version < 9 → ∀ v vs, put .tagFilter 0x66#8 (v :: vs) ins
      (legacyEntry k.legacy at' (fun l => { l with cutoff := some v }))) ∧
    (∀ v w, stores .tagBitcrusher 0x52#8 [v, w] { ins with bitcrusherFreq := v, bitcrusherQuantization := w } ∧
      (w < c.envelopes.length →
        stores .tagFeedbackAmplitude 0x42#8 (v :: if feedbackEnvelopePacked c k.version then [w] else [])
          { ins with
            feedbackAmplitude := v
            feedbackEnvelope := if feedbackEnvelopePacked c k.version then w else ins.feedbackEnvelope } ∧
        stores .tagPulseWidth 0x57#8 [v, w] { ins with pulseWidth := v, pulseEnvelope := w }) ∧
      (c.envelopes.length ≤ w → has 0x57#8 [v, w] → exec .tagPulseWidth s = .next { s with codec := { k with
        status := .failed (some 0x57#8) (fieldPosition c k 0x57#8 1) } })) ∧
    (∀ own envs : List Nat, own.length = operatorCount → envs.length = operatorCount →
      (∀ e ∈ envs, e < c.envelopes.length) →
      let carries (tag : Byte) : Prop := operatorEnvelopeTag c k.version = some tag
      let old := ins.operators.map Operator.envelope
      ∃ byAmp byFreq byEnv : List Operator,
        (stores .tagOperatorAmplitudes 0x50#8 (own ++ if carries 0x50#8 then envs else [])
          { ins with operators := byAmp }) ∧
        (stores .tagOperatorFrequencies 0x51#8 (own ++ if carries 0x51#8 then envs else [])
          { ins with operators := byFreq }) ∧
        (∀ more : List Nat,
          (k.version < 9 → stores .tagOperatorEnvelopes 0x45#8 (envs ++ more) { ins with operators := byEnv }) ∧
          (9 ≤ k.version → stores .tagOperatorEnvelopes 0x45#8 (envs ++ more) ins)) ∧
        byAmp.map Operator.amplitude = own ∧ byAmp.map Operator.envelope = (if carries 0x50#8 then envs else old) ∧
        byAmp.map Operator.frequency = ins.operators.map Operator.frequency ∧
        byFreq.map Operator.frequency = own ∧ byFreq.map Operator.envelope = (if carries 0x51#8 then envs else old) ∧
        byFreq.map Operator.amplitude = ins.operators.map Operator.amplitude ∧
        byEnv.map Operator.envelope = envs ∧
        byEnv.map Operator.amplitude = ins.operators.map Operator.amplitude ∧
        byEnv.map Operator.frequency = ins.operators.map Operator.frequency)

/-- `T` moves the cursor to the next instrument and sets its kind, and the envelopes of a drumset where it carries them;
before version 9 the legacy filter of the instrument before is translated then. The records that carry bits read as
many symbols as their fields need: `H` and `S` the control points of the instrument under the cursor, of a drumset all
twelve arrays, drum 0 first; `b` every channel's bars, channel by channel; `p` the patterns of all channels. What is
written of each are the bits that were read, and the codec moves behind them. A `p` whose first symbol is missing or no
symbol is a `CodecError` there, and one whose bit-stream is malformed is one at the symbol that holds the bit: a note
that begins with the unassigned prefix 10, a shape index or a pitch index beyond its list, a note that passes the bar
(R413, R416, R418, R419, R420, R421, R426, R427, R430, R440). A per-instrument tag with no instrument under the cursor,
and a `T` beyond the last instrument, are `CodecError`s at the tag (R416, R440).
Where it rests on the model's choice, that is logged as assumptions 48, 49, 50, 51, 54, 91. -/
def Obligations.BitTags : Prop :=
  ∀ (s : State) (at' : Nat × Nat) (ins : Instrument) (ds symbols : List Nat) (start : Nat),
    s.codec.status = .records → 3 ≤ s.codec.version → (∀ e ∈ ds, e < Config.cfg.envelopes.length) →
    let c := Config.cfg
    let k := s.codec
    let stores (op : Instr) (song : Song) (next : Nat) : Prop :=
      exec op s = .next { s with codec := { k with song := song, pos := next } }
    let reads (from' bits : Nat) : Prop := symbolsAt k.text from' (symbolsFor bits) = .ok symbols
    let holds (width n : Nat) (fields : List Nat) : Prop := fields.length = n ∧ (∀ x ∈ fields, x < 2 ^ width) ∧
      fields.flatMap (writeBits width) = (valueBits symbols).take (width * n)
    (let k' := if k.version < 9 then translatePending c k else k
     ∀ v, nextInstrument k'.song k'.cursor = at' → codecInstrument k' at' = some ins →
      payload c k' 0x54#8 = .ok (v :: ds, start) → v < 8 →
      ds.length = (if drumTag c = 0x54#8 ∧ v = kindDrumset then drumCount else 0) →
        exec .tagStartInstrument s = .next { s with codec := { k' with
          song := modifyInstrument k'.song at' (fun _ =>
            if drumTag c = 0x54#8 ∧ v = kindDrumset then { ins with kind := v, drumEnvelopes := ds }
            else { ins with kind := v })
          cursor := some at'
          legacy := if k.version < 9 then [⟨at'.1, at'.2, none, none, none⟩] else k.legacy
          pos := start } }) ∧
    (let k' := if k.version < 9 then translatePending c k else k
     ∀ r, payload c k' 0x54#8 = .ok r → codecInstrument k' (nextInstrument k'.song k'.cursor) = none →
       exec .tagStartInstrument s = .next { s with codec := { k' with status := .failed (some 0x54#8) k.pos } }) ∧
    ((∀ a, k.cursor = some a → codecInstrument k a = none) →
      let fails (op : Instr) (tag : Byte) : Prop :=
        exec op s = .next { s with codec := { k with status := .failed (some tag) k.pos } }
      fails .tagHarmonics 0x48#8 ∧ fails .tagSpectrum 0x53#8 ∧
      (∀ r, 7 ≤ k.version → payload c k 0x6D#8 = .ok r → fails .tagReverb 0x6D#8) ∧
      ∀ (op : Instr) (tag : Byte) (r : List Nat × Nat), op.tagCode = some tag.toNat →
        tag ∈ ([0x76#8, 0x75#8, 0x71#8, 0x66#8, 0x47#8, 0x7A#8, 0x79#8, 0x64#8, 0x43#8, 0x63#8, 0x68#8, 0x77#8, 0x41#8,
          0x42#8, 0x46#8, 0x50#8, 0x51#8, 0x45#8, 0x56#8, 0x44#8, 0x52#8, 0x4C#8, 0x55#8, 0x57#8] : List Byte) →
        payload c k tag = .ok r → fails op tag) ∧
    (k.cursor = some at' → codecInstrument k at' = some ins →
      (reads (k.pos + 1) (harmonicsPointWidth c * 28) →
        ∃ l, holds (harmonicsPointWidth c) 28 l ∧ stores .tagHarmonics
          (modifyInstrument k.song at' (fun _ => { ins with harmonicsWave := l })) (k.pos + 1 + symbols.length)) ∧
      (ins.kind ≠ kindDrumset → reads (k.pos + 1) (spectrumPointWidth c * 30) →
        ∃ l, holds (spectrumPointWidth c) 30 l ∧ stores .tagSpectrum
          (modifyInstrument k.song at' (fun _ => { ins with spectrumWave := l })) (k.pos + 1 + symbols.length)) ∧
      (ins.kind = kindDrumset → reads (k.pos + 1) (spectrumPointWidth c * 360) →
        ∃ l waves, holds (spectrumPointWidth c) 360 l ∧ waves.length = 12 ∧ (∀ w ∈ waves, w.length = 30) ∧
          waves.flatten = l ∧ stores .tagSpectrum
          (modifyInstrument k.song at' (fun _ => { ins with drumSpectrumWaves := waves }))
          (k.pos + 1 + symbols.length))) ∧
    (let width := bitsFor (k.song.patternsPerChannel + 1)
     let n := k.song.channels.length * k.song.barCount
     reads (k.pos + 1) (width * n) → ∃ l song, holds width n l ∧ stores .tagBars song (k.pos + 1 + symbols.length) ∧
       song = { k.song with channels := song.channels } ∧ song.channels.length = k.song.channels.length ∧
       ∀ (i : Nat) (ch : Channel), k.song.channels[i]? = some ch →
         song.channels[i]? = some { ch with bars := (l.drop (i * k.song.barCount)).take k.song.barCount }) ∧
    (∀ (ll : Nat) (digits : List Nat) (channels : List Channel) (rest : List Bool),
      symbolsAt k.text (k.pos + 1) 1 = .ok [ll] → symbolsAt k.text (k.pos + 2) ll = .ok digits →
      start = k.pos + 2 + ll → symbolsAt k.text start (digitsValue digits) = .ok symbols →
      readChannels c (legacyDuration c k) k.song 0 k.song.channels (valueBits symbols) = .ok (channels, rest) →
      stores .tagPatterns { k.song with channels := channels } (start + symbols.length)) ∧
    (∀ (ll : Nat) (digits : List Nat) (left : Nat),
      symbolsAt k.text (k.pos + 1) 1 = .ok [ll] → symbolsAt k.text (k.pos + 2) ll = .ok digits →
      start = k.pos + 2 + ll → symbolsAt k.text start (digitsValue digits) = .ok symbols →
      readChannels c (legacyDuration c k) k.song 0 k.song.channels (valueBits symbols) = .error left →
      exec .tagPatterns s = .next { s with codec := { k with
        status := .failed (some 0x70#8) (start + ((valueBits symbols).length - left) / 6) } }) ∧
    (∀ (legacy : Bool) (top barParts fuel part i : Nat) (st : PatternReader) (h : PitchHistory) (shape : Shape)
        (b b' : List Bool),
      (part < barParts → readNotes c legacy top barParts (fuel + 1) part st (true :: false :: b) =
        .error (b.length + 1)) ∧
      (part < barParts → readShapeIndex c.codec b = some (i, b') → st.shapes[i]? = none →
        readNotes c legacy top barParts (fuel + 1) part st (true :: true :: b) = .error (b'.length + 1)) ∧
      (i < 8 → h.recent[i]? = none →
        readPitch c.codec top h (true :: (writeBits 3 i ++ b)) = .error (b.length + 1)) ∧
      (∀ (chord bends : List Nat) (h1 h2 : PitchHistory) (b1 b2 : List Bool), barParts < part + shapeLength shape →
        readPitches c.codec top shape.size st.pitches b = .ok (chord, h1, b1) →
        readPitches c.codec top (shape.pins.filter ShapePin.bend).length { h1 with last := chord.headD h1.last } b1 =
          .ok (bends, h2, b2) →
        readNote c top barParts part shape st b = .error (b2.length + 1))) ∧
    (∀ ch : Byte, (k.text.length = k.pos + 1 ∨ (k.text[k.pos + 1]? = some ch ∧ symbolValue ch = none)) →
      exec .tagPatterns s = .next { s with codec := { k with status := .failed (some 0x70#8) (k.pos + 1) } })
end

