-- ==== Sys2Proof/Laws/Codec.lean ====
section
/-! SUPPORT. What the payload operations of the codec do (`49_song_codec.md` R413, R414): symbols that were written are
read back, and a payload that the writer wrote gives its values. -/

namespace Sys2Proof.Machine

theorem symbolValue_symbolOf : ∀ x, x < 64 → symbolValue (symbolOf x) = some x := by decide

/-- Symbols that were written are read back. -/
theorem symbolsAt_written (pre : List Byte) (l : List Nat) (post : List Byte) (h : ∀ x ∈ l, x < 64) :
    symbolsAt (pre ++ (l.map symbolOf ++ post)) pre.length l.length = .ok l := by
  induction l generalizing pre with
  | nil => rfl
  | cons x t ih =>
    have hx := symbolValue_symbolOf x (h x (List.mem_cons_self ..))
    have ht := ih (pre ++ [symbolOf x]) (fun y hy => h y (List.mem_cons_of_mem _ hy))
    simp only [List.length_append, List.length_cons, List.length_nil, List.append_assoc, List.singleton_append] at ht
    simp only [List.length_cons, List.map_cons, List.cons_append, symbolsAt]
    simp only [List.getElem?_append_right (Nat.le_refl _), Nat.sub_self, List.getElem?_cons_zero, hx]
    rw [show 0 + 1 = 1 from rfl] at ht
    rw [ht]
    rfl

/-- A payload is read up to the first point where it is complete, or to its greatest length. -/
theorem symbolsUntil_written (complete : List Nat → Bool) (pre : List Byte) (seen l : List Nat) (post : List Byte)
    (fuel : Nat) (h : ∀ x ∈ l, x < 64) (hf : l.length ≤ fuel)
    (open' : ∀ n, n < l.length → complete (seen ++ l.take n) = false)
    (stop : complete (seen ++ l) = true ∨ l.length = fuel) :
    symbolsUntil (pre ++ (l.map symbolOf ++ post)) complete fuel pre.length seen =
      .ok (seen ++ l, pre.length + l.length) := by
  induction l generalizing pre seen fuel with
  | nil =>
    cases fuel with
    | zero => simp [symbolsUntil]
    | succ f =>
      have hc : complete seen = true := by simpa using stop
      simp [symbolsUntil, hc]
  | cons x t ih =>
    cases fuel with
    | zero => simp at hf
    | succ f =>
      have hx := symbolValue_symbolOf x (h x (List.mem_cons_self ..))
      have h0 : complete seen = false := by simpa using open' 0 (Nat.succ_pos _)
      have ht := ih (pre ++ [symbolOf x]) (seen ++ [x]) f (fun y hy => h y (List.mem_cons_of_mem _ hy))
        (Nat.le_of_succ_le_succ hf)
        (fun n hn => by simpa using open' (n + 1) (Nat.succ_lt_succ hn))
        (by simpa using stop)
      simp only [List.length_append, List.length_cons, List.length_nil, List.append_assoc, List.singleton_append] at ht
      have hget : (pre ++ (symbolOf x :: (t.map symbolOf ++ post)))[pre.length]? = some (symbolOf x) := by
        rw [List.getElem?_append_right (Nat.le_refl _), Nat.sub_self, List.getElem?_cons_zero]
      simp only [List.map_cons, List.cons_append, symbolsUntil, h0, Bool.false_eq_true, if_false, hget, hx]
      rw [show 0 + 1 = 1 from rfl] at ht
      rw [ht, Nat.add_assoc, Nat.add_comm 1, List.length_cons]

/-! The plain shape. -/

theorem writeNumber_symbols (fuel n : Nat) : ∀ x ∈ writeNumber fuel n, x < 64 := by
  induction fuel generalizing n with
  | zero => simp [writeNumber]
  | succ f ih =>
    intro x hx
    unfold writeNumber at hx
    split at hx
    · have : x = n := by simpa using hx
      omega
    · rcases List.mem_cons.mp hx with rfl | hx
      · omega
      · exact ih _ x hx

theorem readNumberSymbols_written (fuel n : Nat) (rest : List Nat) (h : n < fuel) :
    readNumberSymbols (writeNumber fuel n ++ rest) = some (n, rest) := by
  induction fuel generalizing n with
  | zero => exact absurd h (Nat.not_lt_zero _)
  | succ f ih =>
    unfold writeNumber
    split
    · next hn => simp [readNumberSymbols, hn]
    · next hn =>
      have hd : n / 32 < f := by omega
      have hge : ¬ 32 + n % 32 < 32 := by omega
      simp only [List.cons_append, readNumberSymbols, if_neg hge, ih (n / 32) hd, Option.map_some]
      simp only [Option.some.injEq, Prod.mk.injEq, and_true]
      omega

theorem readNumbers_written (values rest : List Nat) :
    readNumbers values.length (values.flatMap (fun v => writeNumber (v + 1) v) ++ rest) = some (values, rest) := by
  induction values with
  | nil => rfl
  | cons v t ih =>
    simp only [List.length_cons, List.flatMap_cons, List.append_assoc, readNumbers,
      readNumberSymbols_written (v + 1) v _ (Nat.lt_succ_self v), ih, Option.map_some]

theorem readPlain_written (values : List Nat) : readPlain (plainSymbols values) = some (values, []) := by
  have h := readNumbers_written values []
  simp only [List.append_nil] at h
  simp only [plainSymbols, List.flatMap_cons, readPlain,
    readNumberSymbols_written (values.length + 1) values.length _ (Nat.lt_succ_self _), h]

theorem readNumberSymbols_append {l m r : List Nat} {n : Nat} (h : readNumberSymbols l = some (n, r)) :
    readNumberSymbols (l ++ m) = some (n, r ++ m) := by
  induction l generalizing n with
  | nil => simp [readNumberSymbols] at h
  | cons d t ih =>
    simp only [readNumberSymbols] at h
    simp only [List.cons_append, readNumberSymbols]
    split at h
    · next hd =>
      cases h
      simp
      omega
    · next hd =>
      rw [if_neg hd]
      cases ht : readNumberSymbols t with
      | none => simp [ht] at h
      | some p =>
        rw [ht] at h
        cases h
        rw [ih (n := p.1) (by rw [ht])]
        rfl

theorem readNumbers_append {k : Nat} {l m r values : List Nat} (h : readNumbers k l = some (values, r)) :
    readNumbers k (l ++ m) = some (values, r ++ m) := by
  induction k generalizing l values with
  | zero => cases h; rfl
  | succ k ih =>
    simp only [readNumbers] at h ⊢
    cases hl : readNumberSymbols l with
    | none => simp [hl] at h
    | some p =>
      obtain ⟨v, t⟩ := p
      rw [hl] at h
      rw [readNumberSymbols_append hl]
      cases ht : readNumbers k t with
      | none => simp [ht] at h
      | some q =>
        simp only [ht, Option.map_some, Option.some.injEq] at h
        cases h
        simp only [ih ht, Option.map_some]

theorem readPlain_append {l m r values : List Nat} (h : readPlain l = some (values, r)) :
    readPlain (l ++ m) = some (values, r ++ m) := by
  simp only [readPlain] at h ⊢
  cases hl : readNumberSymbols l with
  | none => simp [hl] at h
  | some p =>
    obtain ⟨n, t⟩ := p
    rw [hl] at h
    rw [readNumberSymbols_append hl]
    exact readNumbers_append h

/-- A plain payload is complete at its end and not before. -/
theorem plainShape_written (textLength : Nat) (values : List Nat) :
    (plainShape textLength).complete (plainSymbols values) = true ∧
      ∀ n, n < (plainSymbols values).length → (plainShape textLength).complete ((plainSymbols values).take n) = false := by
  refine ⟨by simp [plainShape, readPlain_written], fun n hn => ?_⟩
  cases hr : readPlain ((plainSymbols values).take n) with
  | none => simp [plainShape, hr]
  | some p =>
    obtain ⟨v, r⟩ := p
    cases r with
    | cons d t => simp [plainShape, hr]
    | nil =>
      have h := readPlain_append (m := (plainSymbols values).drop n) hr
      rw [List.take_append_drop, readPlain_written] at h
      have h' : [] = (plainSymbols values).drop n := by simpa using congrArg (Option.map Prod.snd) h
      have := List.drop_eq_nil_iff.mp h'.symm
      omega

theorem plainSymbols_symbols (values : List Nat) : ∀ x ∈ plainSymbols values, x < 64 := by
  intro x hx
  obtain ⟨v, -, hv⟩ := List.mem_flatMap.mp hx
  exact writeNumber_symbols _ _ x hv

theorem tagSymbols_symbols (c : Cfg) (x : ShapeContext) (tag : Byte) (values : List Nat) :
    ∀ d ∈ tagSymbols c x tag values, d < 64 := by
  intro d hd
  unfold tagSymbols at hd
  split at hd
  · obtain ⟨y, -, rfl⟩ := List.mem_map.mp hd
    exact Nat.lt_of_le_of_lt (Nat.min_le_left _ _) (by decide)
  · exact plainSymbols_symbols _ d hd

/-! Payloads. -/

/-- Under the plain shape every list of values is read back. -/
theorem payload_plainSymbols (c : Cfg) (k : Codec) (tag : Byte) (values : List Nat) (pre post : List Byte)
    (hf : faithful c (shapeContext k) tag = false) (hp : k.pos + 1 = pre.length)
    (ht : k.text = pre ++ ((plainSymbols values).map symbolOf ++ post)) :
    payload c k tag = .ok (values, pre.length + (plainSymbols values).length) := by
  have hs := plainShape_written k.text.length values
  have hl : (plainSymbols values).length ≤ (plainShape k.text.length).longest := by
    have := congrArg List.length ht
    simp only [List.length_append, List.length_map] at this
    simp only [plainShape]
    omega
  have h := symbolsUntil_written ((plainShape k.text.length).complete) pre [] (plainSymbols values) post
    (plainShape k.text.length).longest (plainSymbols_symbols values) hl (by simpa using hs.2) (by simpa using .inl hs.1)
  have hpl : (plainShape k.text.length).values (plainSymbols values) = values := by
    simp [plainShape, readPlain_written]
  unfold payload payloadText
  simp only [tagShape, hf, Bool.false_eq_true, if_false, hp]
  rw [← ht] at h
  rw [h]
  simp only [Except.map, List.nil_append, hpl]

/-- A payload that a search finds: where it ends, and that it is a good one. -/
theorem somePayload_found {complete good : List Nat → Bool} {fuel : Nat} {seen : List Nat}
    (h : somePayload complete good fuel seen = true) : ∃ l : List Nat, (∀ x ∈ l, x < 64) ∧ l.length ≤ fuel ∧
      (∀ n, n < l.length → complete (seen ++ l.take n) = false) ∧
      (complete (seen ++ l) = true ∨ l.length = fuel) ∧ good (seen ++ l) = true := by
  induction fuel generalizing seen with
  | zero => exact ⟨[], by simp, Nat.le_refl _, by simp, .inr rfl, by simpa [somePayload] using h⟩
  | succ f ih =>
    rw [somePayload] at h
    split at h
    · next hc => exact ⟨[], by simp, Nat.zero_le _, by simp, .inl (by simpa using hc), by simpa using h⟩
    · next hc =>
      obtain ⟨d, hd, hd'⟩ := List.any_eq_true.mp h
      obtain ⟨l, h1, h2, h3, h4, h5⟩ := ih hd'
      refine ⟨d :: l, ?_, Nat.succ_le_succ h2, ?_, by simpa using h4, by simpa using h5⟩
      · intro x hx
        rcases List.mem_cons.mp hx with rfl | hx
        · exact List.mem_range.mp hd
        · exact h1 x hx
      · intro n hn
        cases n with
        | zero => simpa using hc
        | succ n => simpa using h3 n (Nat.lt_of_succ_lt_succ hn)

/-- What the writer writes for legal values of a record of the latest version is read back, whatever stands before and
behind it. -/
theorem payload_written (c : Cfg) (k : Codec) (tag : Byte) (values : List Nat) (pre post : List Byte)
    (hl : k.version = 9) (hs : hasShape c tag = true) (hv : values ∈ legalValues c (shapeContext k) tag)
    (hp : k.pos + 1 = pre.length)
    (ht : k.text = pre ++ ((tagSymbols c (shapeContext k) tag values).map symbolOf ++ post)) :
    payload c k tag = .ok (values, pre.length + (tagSymbols c (shapeContext k) tag values).length) := by
  have hd := tagSymbols_symbols c (shapeContext k) tag values
  unfold payload payloadText
  by_cases hf : faithful c (shapeContext k) tag = true
  · have hw : (shapeContext k).version = latestVersion ∧ hasShape c tag = true := ⟨hl, hs⟩
    have hc : carries c (shapeContext k) tag values = true := by
      rw [faithful, if_pos hw] at hf
      exact List.all_eq_true.mp hf values hv
    simp only [carries, Bool.and_eq_true, decide_eq_true_eq, List.all_eq_true, Bool.or_eq_true, beq_iff_eq,
      Bool.not_eq_true', List.mem_range] at hc
    obtain ⟨⟨⟨h1, h2⟩, h3⟩, h4⟩ := hc
    simp only [tagSymbols, hf, if_true] at hd ht ⊢
    have h := symbolsUntil_written ((configuredShape c (shapeContext k) tag).complete) pre []
      (configuredSymbols c (shapeContext k) tag values) post (configuredShape c (shapeContext k) tag).longest hd h1
      (by simpa using h2) (by simpa using h3)
    simp only [tagShape, hf, if_true, hp, ht, h, Except.map, List.nil_append, h4]
  · have hf' : faithful c (shapeContext k) tag = false := by simpa using hf
    have h := payload_plainSymbols c k tag values pre post hf' hp
      (by simpa only [tagSymbols, hf', Bool.false_eq_true, if_false] using ht)
    simpa only [tagSymbols, hf', Bool.false_eq_true, if_false, payload, payloadText] using h

/-! The plain values are legal ones. -/

theorem table_pos {α : Type} (t : Table α) : 0 < t.length := Nat.succ_pos _

theorem zero_mem_ranged (n : Nat) : 0 ∈ ranged 0 n := by simp [ranged]

theorem one_mem_ranged {n : Nat} (h : 1 ≤ n) : 1 ∈ ranged 1 n := by
  obtain ⟨m, rfl⟩ := Nat.exists_eq_add_of_le h
  rw [ranged, List.mem_iff_getElem?]
  refine ⟨0, ?_⟩
  rw [List.getElem?_drop, List.getElem?_range (by omega)]

/-- One number of each list is a choice. -/
theorem mem_choices {ls : List (List Nat)} {vs : List Nat} (h : List.Forall₂ (fun v l => v ∈ l) vs ls) :
    vs ∈ choices ls := by
  induction h with
  | nil => simp [choices]
  | cons hv _ ih => exact List.mem_flatMap.mpr ⟨_, hv, List.mem_map.mpr ⟨_, ih, rfl⟩⟩

theorem zeros_forall₂ {n : Nat} {ls : List (List Nat)} (hn : ls.length = n) (h : ∀ l ∈ ls, 0 ∈ l) :
    List.Forall₂ (fun v l => v ∈ l) (List.replicate n 0) ls := by
  subst hn
  induction ls with
  | nil => exact .nil
  | cons l t ih => exact .cons (h l (List.mem_cons_self ..)) (ih (fun m hm => h m (List.mem_cons_of_mem _ hm)))

/-- Zeros are a choice of lists that hold 0. -/
theorem zeros_mem_choices {n : Nat} {ls : List (List Nat)} (hn : ls.length = n) (h : ∀ l ∈ ls, 0 ∈ l) :
    List.replicate n 0 ∈ choices ls := mem_choices (zeros_forall₂ hn h)

theorem nil_mem_pointLists (c : Cfg) (n : Nat) : [] ∈ pointLists c n := by
  induction n with
  | zero => simp [pointLists]
  | succ n ih => exact List.mem_append_left _ ih

/-- The tags with a shape besides `T`. -/
theorem shaped_tags (c : Cfg) (tag : Byte) (h : hasShape c tag = true) (hT : tag ≠ 0x54#8) :
    tag ∈ plainSongTags ++ ([0x76#8, 0x75#8, 0x71#8, 0x66#8, 0x7A#8, 0x64#8, 0x43#8, 0x63#8, 0x68#8, 0x77#8,
      0x41#8, 0x42#8, 0x46#8, 0x50#8, 0x51#8, 0x44#8, 0x47#8, 0x52#8, 0x4C#8, 0x6D#8, 0x55#8, 0x57#8] : List Byte) := by
  have sub : ∀ b : Bool, ∀ t ∈ [0x76#8, 0x75#8, 0x71#8, 0x66#8] ++ (if b then [] else [0x7A#8]) ++
      [0x64#8, 0x43#8, 0x63#8, 0x68#8, 0x77#8, 0x41#8, 0x42#8, 0x46#8, 0x50#8, 0x51#8, 0x44#8, 0x47#8, 0x52#8, 0x4C#8,
      0x6D#8, 0x53#8, 0x48#8, 0x55#8, 0x57#8], t ≠ 0x53#8 → t ≠ 0x48#8 →
      t ∈ ([0x76#8, 0x75#8, 0x71#8, 0x66#8, 0x7A#8, 0x64#8, 0x43#8, 0x63#8, 0x68#8, 0x77#8,
      0x41#8, 0x42#8, 0x46#8, 0x50#8, 0x51#8, 0x44#8, 0x47#8, 0x52#8, 0x4C#8, 0x6D#8, 0x55#8, 0x57#8] : List Byte) := by
    decide
  simp only [hasShape, Bool.or_eq_true, Bool.and_eq_true, beq_iff_eq, bne_iff_ne, List.contains_iff_mem] at h
  rcases h with (h | h) | ⟨⟨h, hS⟩, hH⟩
  · exact absurd h hT
  · exact List.mem_append_left _ h
  · exact List.mem_append_right _ (sub _ tag h hS hH)

/-- A row of operators, with or without a row of envelopes. -/
theorem rows (c : Cfg) (n : Nat) (p : Prop) [Decidable p] :
    (List.replicate operatorCount 0 ++ if p then List.replicate operatorCount 0 else []) ∈
      choices (List.replicate operatorCount (ranged 0 n) ++
        if p then List.replicate operatorCount (List.range c.envelopes.length) else []) := by
  have env : (0 : Nat) ∈ List.range c.envelopes.length := List.mem_range.mpr (table_pos _)
  have row : ∀ l : List Nat, 0 ∈ l → List.Forall₂ (fun v l => v ∈ l) (List.replicate operatorCount 0)
      (List.replicate operatorCount l) :=
    fun l h => zeros_forall₂ (by simp) (fun m hm => by rw [List.eq_of_mem_replicate hm]; exact h)
  refine mem_choices ?_
  split
  · exact List.rel_append (row _ (zero_mem_ranged n)) (row _ env)
  · exact List.rel_append (row _ (zero_mem_ranged n)) .nil

/-- The plain values of a record's own fields are legal ones. -/
theorem plainOwn_mem (c : Cfg) (x : ShapeContext) (tag : Byte) (hv : x.version = 9) (h : hasShape c tag = true)
    (hT : tag ≠ 0x54#8) : plainOwn c x tag ∈ ownValues c x tag := by
  have env : (0 : Nat) ∈ List.range c.envelopes.length := List.mem_range.mpr (table_pos _)
  have hcases : tag ∈ plainSongTags ++ ([0x76#8, 0x75#8, 0x71#8, 0x66#8, 0x7A#8, 0x64#8, 0x43#8, 0x63#8, 0x68#8, 0x77#8,
    0x41#8, 0x42#8, 0x46#8, 0x50#8, 0x51#8, 0x44#8, 0x47#8, 0x52#8, 0x4C#8, 0x6D#8, 0x55#8, 0x57#8] : List Byte) :=
    shaped_tags c tag h hT
  have pos : ∀ n : Nat, 0 ∈ ranged 0 n := zero_mem_ranged
  have rng : ∀ n : Nat, 0 < n → 0 ∈ List.range n := fun n h => List.mem_range.mpr h
  have hl : latestVersion = 9 := rfl
  simp only [plainSongTags, List.cons_append, List.nil_append, List.mem_cons, List.not_mem_nil, or_false] at hcases
  rcases hcases with rfl | rfl | rfl | rfl | rfl | rfl | rfl | rfl | rfl | rfl | rfl | rfl | rfl | rfl | rfl | rfl | rfl | rfl | rfl | rfl | rfl | rfl | rfl | rfl | rfl | rfl | rfl | rfl | rfl | rfl | rfl | rfl | rfl | rfl
  all_goals simp only [plainOwn, ownValues, fieldRanges, BitVec.reduceToNat, choices, hv, hl]
  all_goals try exact mem_choices (.cons (by first
    | exact env | exact zero_mem_ranged _ | exact one_mem_ranged (Nat.le_max_left _ _)
    | exact List.mem_range.mpr (Nat.succ_pos _)
    | exact List.mem_range.mpr (Nat.lt_of_lt_of_le Nat.one_pos (Nat.le_max_left _ _))
    | (split <;> exact List.mem_range.mpr (Nat.succ_pos _))) .nil)
  all_goals try exact mem_choices (.cons (zero_mem_ranged _) (.cons (by first | exact env | exact zero_mem_ranged _) .nil))
  · exact zeros_mem_choices (by simp) (fun l hl => by rw [List.eq_of_mem_replicate hl]; exact zero_mem_ranged _)
  · split
    · exact List.mem_flatMap.mpr ⟨[], nil_mem_pointLists _ _, List.mem_map.mpr ⟨0, env, rfl⟩⟩
    · exact nil_mem_pointLists _ _
  · exact rows _ _ _
  · exact rows _ _ _
  · exact nil_mem_pointLists _ _

/-- Every shape of the latest version carries the plain values. -/
theorem plain_legal (c : Cfg) (x : ShapeContext) (tag : Byte) (hv : x.version = 9) (h : hasShape c tag = true) :
    plainValues c x tag ∈ legalValues c x tag := by
  have hn : namesChannel x tag = false := by simp [namesChannel, hv]
  have env : (0 : Nat) ∈ List.range c.envelopes.length := List.mem_range.mpr (table_pos _)
  have drums : List.replicate drumCount 0 ∈ drumChoices c :=
    zeros_mem_choices (by simp) (fun l hl => by rw [List.eq_of_mem_replicate hl]; exact env)
  by_cases hT : tag = 0x54#8
  · subst hT
    have hd : carriesDrums c x 0x54#8 = false := by simp [carriesDrums]
    simp only [plainValues, legalValues, hn, hd, if_true]
    refine List.mem_flatMap.mpr ⟨0, by simp, ?_⟩
    simp [kindDrumset, plainOwn]
  · have ho := plainOwn_mem c x tag hv h hT
    simp only [plainValues, legalValues, hn, hT, Bool.false_eq_true, if_false, List.nil_append]
    split
    · exact List.mem_flatMap.mpr ⟨_, ho, List.mem_map.mpr ⟨_, drums, rfl⟩⟩
    · simpa using ho

/-- Zeros lie inside every table. -/
theorem withinTops_zeros (ts : List (Option Nat)) (vs : List Nat) (h : ∀ n, some n ∈ ts → 0 < n) (hv : ∀ v ∈ vs, v = 0) :
    withinTops ts vs = true := by
  induction ts generalizing vs with
  | nil => cases vs <;> rfl
  | cons t ts ih =>
    cases vs with
    | nil => cases t <;> rfl
    | cons v vs =>
      have hr := ih vs (fun n hn => h n (List.mem_cons_of_mem _ hn)) (fun w hw => hv w (List.mem_cons_of_mem _ hw))
      cases t with
      | none => simpa [withinTops] using hr
      | some n =>
        have := h n (List.mem_cons_self ..)
        simp [withinTops, hr, hv v (List.mem_cons_self ..), this]

/-- No table is empty. -/
theorem indexTops_pos (c : Cfg) (x : ShapeContext) (tag : Byte) : ∀ n, some n ∈ indexTops c x tag → 0 < n := by
  intro n h
  have row : ∀ m : Option Nat, some n ∈ List.replicate operatorCount m → some n = m :=
    fun _ h => (List.mem_replicate.mp h).2
  have pos : ∀ {α : Type} (t : Table α), some n = some t.length → 0 < n := fun t h => by
    rw [Option.some.inj h]
    exact table_pos t
  unfold indexTops at h
  dsimp only at h
  split at h
  all_goals first
    | exact absurd h (List.not_mem_nil)
    | exact pos _ (by simpa using h)
    | exact pos _ (List.mem_singleton.mp h)
    | exact pos _ (row _ h)
    | (rw [Option.some.inj (List.mem_singleton.mp h)]; first | exact Nat.succ_pos _ | (split <;> exact Nat.succ_pos _))
    | skip
  all_goals rcases List.mem_append.mp h with h | h
  all_goals first
    | exact absurd (row _ h) (by simp)
    | (split at h; exacts [pos _ (row _ h), absurd h (List.not_mem_nil)])

/-- The plain values name entries of their tables. -/
theorem plain_indices (c : Cfg) (x : ShapeContext) (tag : Byte) :
    indicesLegal c x tag (plainValues c x tag) = true := by
  have zeros : ∀ n, ∀ v ∈ List.replicate n 0, v = 0 := fun n v h => (List.mem_replicate.mp h).2
  have own : indexTops c x tag = [] ∨ ∀ v ∈ plainOwn c x tag, v = 0 := by
    unfold plainOwn
    split
    all_goals first
      | (left; simp only [indexTops, *]; done)
      | (right; intro v hv; simp at hv; done)
      | (right; simp; done)
      | (right; intro v hv; rcases List.mem_append.mp hv with hv | hv; exact zeros _ v hv; split at hv
         exacts [zeros _ v hv, absurd hv (List.not_mem_nil)])
  unfold indicesLegal
  rcases own with h | h
  · rw [h]
    cases (if namesChannel x tag = true then (plainValues c x tag).drop 1 else plainValues c x tag) <;> rfl
  · refine withinTops_zeros _ _ (indexTops_pos c x tag) (fun v hv => ?_)
    have hall : ∀ v ∈ plainValues c x tag, v = 0 := by
      intro v hv
      simp only [plainValues, List.mem_append] at hv
      rcases hv with (hv | hv) | hv
      · split at hv <;> simp at hv
        exact hv
      · exact h v hv
      · split at hv
        · exact zeros _ v hv
        · exact absurd hv (List.not_mem_nil)
    split at hv
    · exact hall v (List.mem_of_mem_drop hv)
    · exact hall v hv

/-- Every record that the latest version does not write can be read, whatever stands before and behind it: it has a payload
whose indices lie inside their tables and whose values are as many as the plain ones. -/
theorem payload_readable (c : Cfg) (x : ShapeContext) (tag : Byte) (hw : ¬(x.version = latestVersion ∧ hasShape c tag = true)) :
    ∃ (l values : List Nat), indicesLegal c x tag values = true ∧ (plainValues c x tag).length ≤ values.length ∧
      ∀ (k : Codec) (pre post : List Byte), shapeContext k = x → k.pos + 1 = pre.length →
        k.text = pre ++ (l.map symbolOf ++ post) → payload c k tag = .ok (values, pre.length + l.length) := by
  by_cases hf : faithful c x tag = true
  · have hs := hf
    rw [faithful, if_neg hw, readsSome] at hs
    obtain ⟨l, h1, h2, h3, h4, h5⟩ := somePayload_found hs
    refine ⟨l, (configuredShape c x tag).values l, by simpa using h5, ?_, fun k pre post hx hp ht => ?_⟩
    · simp only [configuredShape, atLeast, List.length_append, List.length_replicate]
      omega
    · subst hx
      have h := symbolsUntil_written ((configuredShape c (shapeContext k) tag).complete) pre [] l post
        (configuredShape c (shapeContext k) tag).longest h1 h2 h3 h4
      unfold payload payloadText
      simp only [tagShape, hf, if_true, hp, ht, h, Except.map, List.nil_append]
  · have hf' : faithful c x tag = false := by simpa using hf
    refine ⟨plainSymbols (plainValues c x tag), plainValues c x tag, plain_indices c x tag, Nat.le_refl _,
      fun k pre post hx hp ht => ?_⟩
    subst hx
    exact payload_plainSymbols c k tag _ pre post hf' hp ht

end Sys2Proof.Machine
end

