-- ==== Sys2Proof/Laws/Decode.lean ====
section
/-! SUPPORT. Laws of the encoding: the fields of a header word, what the decoder reads from a legal header, and a bound
of every opcode and count. -/

namespace Sys2Proof

/-- The six fields of a header word (R101). -/
theorem headerWord_toNat {op u v w n : Nat} (h0 : op < 256) (h1 : u < 256) (h2 : v < 256) (h3 : w < 256)
    (h4 : n < 256) :
    (headerWord op u v w n).toNat = op * 2 ^ 56 + u * 2 ^ 48 + v * 2 ^ 40 + w * 2 ^ 32 + n * 2 ^ 24 := by
  simp only [headerWord, BitVec.toNat_ofNat]; omega

theorem headerWord_fields {op u v w n : Nat} (h0 : op < 256) (h1 : u < 256) (h2 : v < 256) (h3 : w < 256)
    (h4 : n < 256) :
    headerOp (headerWord op u v w n) = op ∧ headerU (headerWord op u v w n) = u ∧
      headerV (headerWord op u v w n) = v ∧ headerW (headerWord op u v w n) = w ∧
      headerCount (headerWord op u v w n) = n ∧ headerZero (headerWord op u v w n) = 0 := by
  have e := headerWord_toNat h0 h1 h2 h3 h4
  refine ⟨?_, ?_, ?_, ?_, ?_, ?_⟩ <;>
    simp only [headerOp, headerU, headerV, headerW, headerCount, headerZero, wordField, e] <;> omega

/-- A word is put together from its six fields. -/
theorem word_of_fields (h : Word) (hz : headerZero h = 0) :
    h = headerWord (headerOp h) (headerU h) (headerV h) (headerW h) (headerCount h) := by
  apply BitVec.eq_of_toNat_eq
  have lt := h.isLt
  have b (lo : Nat) : wordField h lo 8 < 256 := Nat.mod_lt _ (by decide)
  have e := headerWord_toNat (b 56) (b 48) (b 40) (b 32) (b 24)
  simp only [headerOp, headerU, headerV, headerW, headerCount] at e ⊢
  rw [e]
  simp only [headerZero, wordField] at hz ⊢
  omega

/-- A header that passes the checks of R454. -/
theorem checkHeader_ok {h : Word} {used count : Nat} (shape : opcodeShape (headerOp h) = some (used, count))
    (hn : headerCount h = count) (hz : headerZero h = 0) (hu : used < 1 → headerU h = 0)
    (hv : used < 2 → headerV h = 0) (hw : used < 3 → headerW h = 0) : checkHeader h = .ok (used, count) := by
  unfold checkHeader
  simp only [shape, hn, hz, ne_eq, not_true_eq_false, if_false]
  have : ¬ ((used < 1 && headerU h != 0) || (used < 2 && headerV h != 0) || (used < 3 && headerW h != 0)) = true := by
    simp only [Bool.or_eq_true, Bool.and_eq_true, decide_eq_true_eq, bne_iff_ne, ne_eq]
    rintro ((⟨a, b⟩ | ⟨a, b⟩) | ⟨a, b⟩)
    · exact b (hu a)
    · exact b (hv a)
    · exact b (hw a)
  simp only [this]
  rfl

/-- The decoder on a legal header with its operand words. -/
theorem decodeCommand_of_header {h : Word} {ops rest : List Word} {p : Nat × Nat} {i : Instr}
    (len : headerCount h = ops.length) (ok : checkHeader h = .ok p)
    (built : buildCommand (headerOp h) (headerU h) (headerV h) (headerW h) (fun k => (ops ++ rest).getD k 0#64) = some i) :
    decodeCommand (h :: (ops ++ rest)) = .ok (i, rest) := by
  unfold decodeCommand
  have : ¬ (ops ++ rest).length < headerCount h := by rw [len, List.length_append]; omega
  simp only [if_neg this, ok, built]
  rw [len, List.drop_left]

end Sys2Proof
end

