-- ==== Sys2Proof/Laws/Float.lean ====
section
/-! SUPPORT. Laws of `Num` (`00_scope.md` R7): the NaN of an operation is a NaN, and NaN operands are passed on; an
infinity absorbs; a positive number is no NaN and has no sign. -/

namespace Sys2Proof

theorem nanPattern_isNaN (w : BitVec 64) : Num.isNaN ⟨nanPattern w⟩ = true := by
  have he : ∀ v : BitVec 64, ((v ||| w) ||| 0x7FF0000000000000#64).toNat / 2 ^ 52 % 2 ^ 11 = 2047 := by
    intro v
    have h : (((v ||| w) ||| 0x7FF0000000000000#64).extractLsb' 52 11).toNat = 2047 := by
      rw [BitVec.extractLsb'_or, show (0x7FF0000000000000#64 : BitVec 64).extractLsb' 52 11 = BitVec.allOnes 11 by decide,
        BitVec.or_allOnes]
      decide
    rwa [BitVec.extractLsb'_toNat, Nat.shiftRight_eq_div_pow] at h
  unfold Num.isNaN Num.expField Num.fracField nanPattern
  simp only
  split
  · rw [BitVec.or_comm _ 0x0008000000000000#64, ← BitVec.or_assoc, he]
    simp only [beq_self_eq_true, Bool.true_and, bne_iff_ne, ne_eq]
    intro h0
    have hb := congrArg (fun n => n.testBit 51) h0
    simp only [Nat.testBit_mod_two_pow, BitVec.toNat_or, Nat.testBit_or,
      show (0x0008000000000000#64 : BitVec 64).toNat.testBit 51 = true by decide] at hb
    simp at hb
  · rename_i h
    have h1 := he 0#64
    rw [BitVec.zero_or] at h1
    rw [h1]
    simpa using h

@[simp] theorem nanOf_isNaN (a b : BitVec 64) : (Num.nanOf a b).isNaN = true := nanPattern_isNaN _

/-- A sum with a NaN is a NaN. -/
theorem add_isNaN {x y : Num} (h : x.isNaN = true ∨ y.isNaN = true) : (x.add y).isNaN = true := by
  unfold Num.add
  rw [if_pos (by simpa using h)]
  exact nanOf_isNaN _ _

/-- A NaN is not above anything. -/
theorem le_isNaN {x y : Num} (h : y.isNaN = true) : x.le y = false := by
  unfold Num.le
  rw [h]
  simp

/-- `+∞` plus a number that is no NaN and has no sign is `+∞`. -/
theorem infinity_add {x : Num} (hn : x.isNaN = false) (hs : x.sign = false) :
    (Num.infOf false).add x = Num.infOf false := by
  unfold Num.add
  rw [hn, hs]
  simp [show (Num.infOf false).isNaN = false by decide, show (Num.infOf false).isInf = true by decide,
    show (Num.infOf false).sign = false by decide]

theorem positive_facts {x : Num} (h : Num.zero.lt x = true) : x.isNaN = false ∧ x.sign = false := by
  unfold Num.lt at h
  simp only [Bool.and_eq_true, Bool.not_eq_true', decide_eq_true_eq] at h
  refine ⟨h.1.2, ?_⟩
  by_contra hs
  rw [Bool.not_eq_false] at hs
  have hk := h.2
  rw [show Num.zero.key = 0 by decide] at hk
  unfold Num.key at hk
  rw [if_pos hs] at hk
  omega

theorem roundMag_le_top (prec : Nat) (qmin : Int) (top m : Nat) (e : Int) : roundMag prec qmin top m e ≤ top := by
  unfold roundMag
  split
  · exact Nat.zero_le _
  · exact Nat.min_le_right _ _

/-- A rounded magnitude is no NaN and has no sign. -/
theorem round_facts (m : Nat) (e : Int) : (Num.round false m e).isNaN = false ∧ (Num.round false m e).sign = false := by
  have h := roundMag_le_top 53 (-1074) 0x7FF0000000000000 m e
  have hn : (Num.round false m e).bits.toNat = roundMag 53 (-1074) 0x7FF0000000000000 m e := by
    simp only [Num.round, Bool.false_eq_true, if_false, Nat.zero_add, BitVec.toNat_ofNat]
    exact Nat.mod_eq_of_lt (by omega)
  constructor
  · unfold Num.isNaN Num.expField Num.fracField
    rw [hn]
    rw [Bool.and_eq_false_iff]
    by_cases hx : roundMag 53 (-1074) 0x7FF0000000000000 m e / 2 ^ 52 % 2 ^ 11 = 2047
    · right
      have : roundMag 53 (-1074) 0x7FF0000000000000 m e % 2 ^ 52 = 0 := by omega
      rw [this]
      rfl
    · left
      simpa using hx
  · unfold Num.sign
    rw [hn]
    simp only [decide_eq_false_iff_not]
    omega

/-- What `positiveOr` answers is finite and positive. -/
theorem positiveOr_positive (d x : Num) (hd : d.isFinite = true ∧ Num.zero.lt d = true) :
    (positiveOr d x).isFinite = true ∧ Num.zero.lt (positiveOr d x) = true := by
  unfold positiveOr
  split
  · rename_i h
    simpa using h
  · exact hd

/-- 1 divided by a finite positive number is no NaN and has no sign. -/
theorem one_div_facts {y : Num} (h : y.isFinite = true ∧ Num.zero.lt y = true) :
    (Num.one.div y).isNaN = false ∧ (Num.one.div y).sign = false := by
  obtain ⟨hn, hs⟩ := positive_facts h.2
  have hi : y.isInf = false := by
    have := h.1
    unfold Num.isFinite at this
    unfold Num.isInf
    simp at this
    simp [this]
  unfold Num.div
  rw [hn, hs, hi]
  simp only [show Num.one.isNaN = false by decide, show Num.one.isInf = false by decide,
    show Num.one.sign = false by decide, Bool.or_false, Bool.false_eq_true, if_false, bne_self_eq_false]
  split
  · split
    · rename_i h1
      exact absurd h1 (by decide)
    · exact ⟨by decide, by decide⟩
  · exact round_facts _ _

theorem crushStep_positive (c : Cfg) (f : Nat) (r : Num) : Num.zero.lt (c.crushStep f r) = true := by
  unfold Cfg.crushStep
  simp only
  split
  · rename_i h
    simp only [Bool.and_eq_true] at h
    exact h.1
  · decide

theorem tailTicks_positive (c : Cfg) (i : Instrument) (r s : Num) :
    (c.tailTicksOf i r s).isFinite = true ∧ Num.zero.lt (c.tailTicksOf i r s) = true :=
  positiveOr_positive _ _ (by decide)

end Sys2Proof
end

