-- ==== Sys2Proof/Laws/Memory.lean ====
section
/-! SUPPORT. Laws of the element-addressed memories: what a write does to every element, and that every operation keeps
the canonical form. -/

namespace Sys2Proof

variable {α : Type}

theorem Memory.sortedFrom_mono {lo hi : Nat} {m : Memory α} (h : Memory.sortedFrom hi m = true) (le : lo ≤ hi) :
    Memory.sortedFrom lo m = true := by
  cases m with
  | nil => rfl
  | cons p t =>
    simp only [Memory.sortedFrom, Bool.and_eq_true, decide_eq_true_eq] at h ⊢
    exact ⟨Nat.le_trans le h.1, h.2⟩

theorem Memory.find_below {lo i : Nat} {m : Memory α} (h : Memory.sortedFrom lo m = true) (lt : i < lo) :
    Memory.find m i = none := by
  cases m with
  | nil => rfl
  | cons p t =>
    obtain ⟨j, v⟩ := p
    simp only [Memory.sortedFrom, Bool.and_eq_true, decide_eq_true_eq] at h
    have : i < j := Nat.lt_of_lt_of_le lt h.1
    simp [Memory.find, Nat.ne_of_lt this, this]

theorem Memory.find_put_same (m : Memory α) (i : Nat) (v : α) : Memory.find (Memory.put m i v) i = some v := by
  induction m with
  | nil => simp [Memory.put, Memory.find]
  | cons p t ih =>
    obtain ⟨j, w⟩ := p
    unfold Memory.put
    split
    · subst_vars; simp [Memory.find]
    · split
      · simp [Memory.find]
      · simp [Memory.find, *]

theorem Memory.find_put_other {m : Memory α} {i k : Nat} (v : α) (ne : k ≠ i) :
    Memory.find (Memory.put m i v) k = Memory.find m k := by
  induction m with
  | nil =>
    simp only [Memory.put, Memory.find, ne, if_false]
    split <;> rfl
  | cons p t ih =>
    obtain ⟨j, w⟩ := p
    unfold Memory.put
    split
    · subst_vars; simp [Memory.find, ne]
    · split
      · rename_i h1 h2
        simp only [Memory.find, ne, if_false]
        by_cases h3 : k < i
        · have h4 : k < j := Nat.lt_trans h3 h2
          simp [h3, h4, Nat.ne_of_lt h4]
        · simp [h3]
      · simp only [Memory.find, ih]

theorem Memory.find_drop_same {lo : Nat} {m : Memory α} (h : Memory.sortedFrom lo m = true) (i : Nat) :
    Memory.find (Memory.drop m i) i = none := by
  induction m generalizing lo with
  | nil => rfl
  | cons p t ih =>
    obtain ⟨j, w⟩ := p
    simp only [Memory.sortedFrom, Bool.and_eq_true, decide_eq_true_eq] at h
    unfold Memory.drop
    split
    · rename_i h1; exact Memory.find_below h.2 (by omega)
    · split
      · rename_i h1 h2; simp [Memory.find, h1, h2]
      · rename_i h1 h2; simp [Memory.find, h1, h2, ih h.2]

theorem Memory.find_drop_other {lo : Nat} {m : Memory α} (h : Memory.sortedFrom lo m = true) {i k : Nat}
    (ne : k ≠ i) : Memory.find (Memory.drop m i) k = Memory.find m k := by
  induction m generalizing lo with
  | nil => rfl
  | cons p t ih =>
    obtain ⟨j, w⟩ := p
    simp only [Memory.sortedFrom, Bool.and_eq_true, decide_eq_true_eq] at h
    unfold Memory.drop
    split
    · rename_i h1
      subst h1
      simp only [Memory.find, ne, if_false]
      split
      · rename_i h2; exact Memory.find_below h.2 (by omega)
      · rfl
    · split
      · rfl
      · simp only [Memory.find, ih h.2]

theorem Memory.sortedFrom_put {lo i : Nat} {m : Memory α} (h : Memory.sortedFrom lo m = true) (v : α) (le : lo ≤ i) :
    Memory.sortedFrom lo (Memory.put m i v) = true := by
  induction m generalizing lo with
  | nil => simp [Memory.put, Memory.sortedFrom, le]
  | cons p t ih =>
    obtain ⟨j, w⟩ := p
    simp only [Memory.sortedFrom, Bool.and_eq_true, decide_eq_true_eq] at h
    unfold Memory.put
    split
    · simp [Memory.sortedFrom, h]
    · split
      · rename_i h1 h2
        simp only [Memory.sortedFrom, Bool.and_eq_true, decide_eq_true_eq]
        exact ⟨le, by omega, h.2⟩
      · rename_i h1 h2
        simp only [Memory.sortedFrom, Bool.and_eq_true, decide_eq_true_eq]
        exact ⟨h.1, ih h.2 (by omega)⟩

theorem Memory.sortedFrom_drop {lo : Nat} {m : Memory α} (h : Memory.sortedFrom lo m = true) (i : Nat) :
    Memory.sortedFrom lo (Memory.drop m i) = true := by
  induction m generalizing lo with
  | nil => rfl
  | cons p t ih =>
    obtain ⟨j, w⟩ := p
    simp only [Memory.sortedFrom, Bool.and_eq_true, decide_eq_true_eq] at h
    unfold Memory.drop
    split
    · exact Memory.sortedFrom_mono h.2 (by omega)
    · split
      · simp [Memory.sortedFrom, h]
      · simp only [Memory.sortedFrom, Bool.and_eq_true, decide_eq_true_eq]
        exact ⟨h.1, ih h.2⟩

theorem Memory.mem_put {m : Memory α} {i : Nat} {v : α} {p : Nat × α} (h : p ∈ Memory.put m i v) :
    p = (i, v) ∨ p ∈ m := by
  induction m with
  | nil => simpa [Memory.put] using h
  | cons q t ih =>
    obtain ⟨j, w⟩ := q
    unfold Memory.put at h
    split at h
    · rename_i e; subst e
      rcases List.mem_cons.mp h with h | h
      · exact .inl h
      · exact .inr (List.mem_cons_of_mem _ h)
    · split at h
      · rcases List.mem_cons.mp h with h | h
        · exact .inl h
        · exact .inr h
      · rcases List.mem_cons.mp h with h | h
        · exact .inr (h ▸ List.mem_cons_self)
        · rcases ih h with h | h
          · exact .inl h
          · exact .inr (List.mem_cons_of_mem _ h)

theorem Memory.mem_drop {m : Memory α} {i : Nat} {p : Nat × α} (h : p ∈ Memory.drop m i) : p ∈ m := by
  induction m with
  | nil => exact h
  | cons q t ih =>
    obtain ⟨j, w⟩ := q
    unfold Memory.drop at h
    split at h
    · exact List.mem_cons_of_mem _ h
    · split at h
      · exact h
      · rcases List.mem_cons.mp h with h | h
        · exact h ▸ List.mem_cons_self
        · exact List.mem_cons_of_mem _ (ih h)

variable [DecidableEq α]

theorem Memory.wf_iff {d : Option α} {m : Memory α} :
    Memory.wf d m = true ↔ Memory.sortedFrom 0 m = true ∧ ∀ p ∈ m, d ≠ some p.2 := by
  simp [Memory.wf]

theorem Memory.wf_nil (d : Option α) : Memory.wf d ([] : Memory α) = true := rfl

/-- Every write keeps the canonical form. -/
theorem Memory.wf_write {d : Option α} {m : Memory α} (h : Memory.wf d m = true) (i : Nat) (v : α) :
    Memory.wf d (Memory.write d m i v) = true := by
  rw [Memory.wf_iff] at h ⊢
  unfold Memory.write
  split
  · exact ⟨Memory.sortedFrom_drop h.1 i, fun p hp => h.2 p (Memory.mem_drop hp)⟩
  · rename_i ne
    refine ⟨Memory.sortedFrom_put h.1 v (Nat.zero_le i), fun p hp => ?_⟩
    rcases Memory.mem_put hp with e | e
    · subst e; exact ne
    · exact h.2 p e

/-- What an element reads as after a write of a space with free unlisted elements. -/
theorem Memory.find_write_none_same (m : Memory α) (i : Nat) (v : α) :
    Memory.find (Memory.write none m i v) i = some v := by
  simp [Memory.write, Memory.find_put_same]

theorem Memory.find_write_none_other {m : Memory α} {i k : Nat} (v : α) (ne : k ≠ i) :
    Memory.find (Memory.write none m i v) k = Memory.find m k := by
  simp [Memory.write, Memory.find_put_other v ne]

theorem Memory.mem_ofListFrom {d : Option α} {l : List α} {i : Nat} {p : Nat × α}
    (h : p ∈ Memory.ofListFrom d i l) : i ≤ p.1 ∧ d ≠ some p.2 := by
  induction l generalizing i with
  | nil => simp [Memory.ofListFrom] at h
  | cons v t ih =>
    unfold Memory.ofListFrom at h
    split at h
    · exact ⟨by have := (ih h).1; omega, (ih h).2⟩
    · rename_i ne
      rcases List.mem_cons.mp h with e | e
      · subst e; exact ⟨Nat.le_refl _, ne⟩
      · exact ⟨by have := (ih e).1; omega, (ih e).2⟩

theorem Memory.sortedFrom_ofListFrom (d : Option α) (l : List α) (i : Nat) :
    Memory.sortedFrom i (Memory.ofListFrom d i l) = true := by
  induction l generalizing i with
  | nil => rfl
  | cons v t ih =>
    unfold Memory.ofListFrom
    split
    · exact Memory.sortedFrom_mono (ih (i + 1)) (by omega)
    · simp [Memory.sortedFrom, ih (i + 1)]

theorem Memory.wf_ofListFrom (d : Option α) (l : List α) : Memory.wf d (Memory.ofListFrom d 0 l) = true := by
  rw [Memory.wf_iff]
  exact ⟨Memory.sortedFrom_ofListFrom d l 0, fun p hp => (Memory.mem_ofListFrom hp).2⟩

/-! Zeroed spaces. -/

theorem Memory.numWf_nil : Memory.numWf [] = true := rfl

theorem Memory.numWf_setNum {m : Memory Num} (h : Memory.numWf m = true) (i : Nat) (v : Num) :
    Memory.numWf (Memory.setNum m i v) = true := Memory.wf_write h i v

theorem Memory.numWf_ringSet {m : Memory Num} (h : Memory.numWf m = true) (size : Nat) (i : Int) (v : Num) :
    Memory.numWf (ringSet m size i v) = true := Memory.numWf_setNum h _ v

theorem Memory.getNum_setNum_same {m : Memory Num} (h : Memory.numWf m = true) (i : Nat) (v : Num) :
    Memory.getNum (Memory.setNum m i v) i = v := by
  unfold Memory.getNum Memory.setNum Memory.write
  split
  · rename_i e
    simp only [Option.some.injEq] at e
    rw [Memory.find_drop_same (Memory.wf_iff.mp h).1, ← e]
    rfl
  · rw [Memory.find_put_same]; rfl

theorem Memory.getNum_setNum_other {m : Memory Num} (h : Memory.numWf m = true) {i k : Nat} (v : Num) (ne : k ≠ i) :
    Memory.getNum (Memory.setNum m i v) k = Memory.getNum m k := by
  unfold Memory.getNum Memory.setNum Memory.write
  split
  · rw [Memory.find_drop_other (Memory.wf_iff.mp h).1 ne]
  · rw [Memory.find_put_other v ne]

/-- A filter of the entries keeps the canonical form. -/
theorem Memory.sortedFrom_filter {lo : Nat} {m : Memory α} (h : Memory.sortedFrom lo m = true)
    (p : Nat × α → Bool) : Memory.sortedFrom lo (m.filter p) = true := by
  induction m generalizing lo with
  | nil => rfl
  | cons q t ih =>
    obtain ⟨j, w⟩ := q
    simp only [Memory.sortedFrom, Bool.and_eq_true, decide_eq_true_eq] at h
    simp only [List.filter_cons]
    split
    · simp only [Memory.sortedFrom, Bool.and_eq_true, decide_eq_true_eq]
      exact ⟨h.1, ih h.2⟩
    · exact Memory.sortedFrom_mono (ih h.2) (by omega)

theorem Memory.wf_filter {d : Option α} {m : Memory α} (h : Memory.wf d m = true) (p : Nat × α → Bool) :
    Memory.wf d (m.filter p) = true := by
  rw [Memory.wf_iff] at h ⊢
  exact ⟨Memory.sortedFrom_filter h.1 p, fun q hq => h.2 q (List.mem_filter.mp hq).1⟩

end Sys2Proof
end

