-- ==== Sys2Proof/Laws/State.lean ====
section
/-! SUPPORT. What each named update leaves in each field: one lemma per field. -/

namespace Sys2Proof.Machine

/-! Result registers. -/

@[simp] theorem State.setResult_eng (s : State) (i : Nat) (v : Num) : (s.setResult i v).eng = s.eng := rfl
@[simp] theorem State.setResult_sampleRate (s : State) (i : Nat) (v : Num) : (s.setResult i v).sampleRate = s.sampleRate := rfl
@[simp] theorem State.setResult_volume (s : State) (i : Nat) (v : Num) : (s.setResult i v).volume = s.volume := rfl
@[simp] theorem State.setResult_liveDeadlineSeconds (s : State) (i : Nat) (v : Num) : (s.setResult i v).liveDeadlineSeconds = s.liveDeadlineSeconds := rfl
@[simp] theorem State.setResult_rngSeed (s : State) (i : Nat) (v : Num) : (s.setResult i v).rngSeed = s.rngSeed := rfl
@[simp] theorem State.setResult_song (s : State) (i : Nat) (v : Num) : (s.setResult i v).song = s.song := rfl
@[simp] theorem State.setResult_playing (s : State) (i : Nat) (v : Num) : (s.setResult i v).playing = s.playing := rfl
@[simp] theorem State.setResult_busy (s : State) (i : Nat) (v : Num) : (s.setResult i v).busy = s.busy := rfl
@[simp] theorem State.setResult_fault (s : State) (i : Nat) (v : Num) : (s.setResult i v).fault = s.fault := rfl
@[simp] theorem State.setResult_audioActive (s : State) (i : Nat) (v : Num) : (s.setResult i v).audioActive = s.audioActive := rfl
@[simp] theorem State.setResult_faultCode (s : State) (i : Nat) (v : Num) : (s.setResult i v).faultCode = s.faultCode := rfl
@[simp] theorem State.setResult_faultInfo (s : State) (i : Nat) (v : Num) : (s.setResult i v).faultInfo = s.faultInfo := rfl
@[simp] theorem State.setResult_liveDeadline (s : State) (i : Nat) (v : Num) : (s.setResult i v).liveDeadline = s.liveDeadline := rfl
@[simp] theorem State.setResult_monoTime (s : State) (i : Nat) (v : Num) : (s.setResult i v).monoTime = s.monoTime := rfl
@[simp] theorem State.setResult_seq (s : State) (i : Nat) (v : Num) : (s.setResult i v).seq = s.seq := rfl
@[simp] theorem State.setResult_port (s : State) (i : Nat) (v : Num) : (s.setResult i v).port = s.port := rfl
@[simp] theorem State.setResult_payload (s : State) (i : Nat) (v : Num) : (s.setResult i v).payload = s.payload := rfl
@[simp] theorem State.setResult_responses (s : State) (i : Nat) (v : Num) : (s.setResult i v).responses = s.responses := rfl
@[simp] theorem State.setResult_resetPin (s : State) (i : Nat) (v : Num) : (s.setResult i v).resetPin = s.resetPin := rfl
@[simp] theorem State.setResult_turn (s : State) (i : Nat) (v : Num) : (s.setResult i v).turn = s.turn := rfl
@[simp] theorem State.setResult_codec (s : State) (i : Nat) (v : Num) : (s.setResult i v).codec = s.codec := rfl
@[simp] theorem State.setResult_epoch (s : State) (i : Nat) (v : Num) : (s.setResult i v).epoch = s.epoch := rfl

@[simp] theorem State.setResult_r (s : State) (i : Nat) (v : Num) : (s.setResult i v).r = s.r.setIfInBounds i v := rfl

@[simp] theorem answer_eng (s : State) (l : List Num) : (answer s l).eng = s.eng := rfl
@[simp] theorem answer_sampleRate (s : State) (l : List Num) : (answer s l).sampleRate = s.sampleRate := rfl
@[simp] theorem answer_volume (s : State) (l : List Num) : (answer s l).volume = s.volume := rfl
@[simp] theorem answer_liveDeadlineSeconds (s : State) (l : List Num) : (answer s l).liveDeadlineSeconds = s.liveDeadlineSeconds := rfl
@[simp] theorem answer_rngSeed (s : State) (l : List Num) : (answer s l).rngSeed = s.rngSeed := rfl
@[simp] theorem answer_song (s : State) (l : List Num) : (answer s l).song = s.song := rfl
@[simp] theorem answer_playing (s : State) (l : List Num) : (answer s l).playing = s.playing := rfl
@[simp] theorem answer_busy (s : State) (l : List Num) : (answer s l).busy = s.busy := rfl
@[simp] theorem answer_fault (s : State) (l : List Num) : (answer s l).fault = s.fault := rfl
@[simp] theorem answer_audioActive (s : State) (l : List Num) : (answer s l).audioActive = s.audioActive := rfl
@[simp] theorem answer_faultCode (s : State) (l : List Num) : (answer s l).faultCode = s.faultCode := rfl
@[simp] theorem answer_faultInfo (s : State) (l : List Num) : (answer s l).faultInfo = s.faultInfo := rfl
@[simp] theorem answer_liveDeadline (s : State) (l : List Num) : (answer s l).liveDeadline = s.liveDeadline := rfl
@[simp] theorem answer_monoTime (s : State) (l : List Num) : (answer s l).monoTime = s.monoTime := rfl
@[simp] theorem answer_seq (s : State) (l : List Num) : (answer s l).seq = s.seq := rfl
@[simp] theorem answer_port (s : State) (l : List Num) : (answer s l).port = s.port := rfl
@[simp] theorem answer_payload (s : State) (l : List Num) : (answer s l).payload = s.payload := rfl
@[simp] theorem answer_responses (s : State) (l : List Num) : (answer s l).responses = s.responses := rfl
@[simp] theorem answer_resetPin (s : State) (l : List Num) : (answer s l).resetPin = s.resetPin := rfl
@[simp] theorem answer_turn (s : State) (l : List Num) : (answer s l).turn = s.turn := rfl
@[simp] theorem answer_codec (s : State) (l : List Num) : (answer s l).codec = s.codec := rfl
@[simp] theorem answer_epoch (s : State) (l : List Num) : (answer s l).epoch = s.epoch := rfl

@[simp] theorem answer_r (s : State) (l : List Num) : (answer s l).r = setResults s.r 0 l := rfl

/-! Engine updates. -/

@[simp] theorem Engine.setTone_work (e : Engine) (u : Nat) (t : Tone) : (e.setTone u t).work = e.work := rfl
@[simp] theorem Engine.setTone_workEpoch (e : Engine) (u : Nat) (t : Tone) : (e.setTone u t).workEpoch = e.workEpoch := rfl
@[simp] theorem Engine.setTone_scratch (e : Engine) (u : Nat) (t : Tone) : (e.setTone u t).scratch = e.scratch := rfl
@[simp] theorem Engine.setTone_mixL (e : Engine) (u : Nat) (t : Tone) : (e.setTone u t).mixL = e.mixL := rfl
@[simp] theorem Engine.setTone_mixR (e : Engine) (u : Nat) (t : Tone) : (e.setTone u t).mixR = e.mixR := rfl
@[simp] theorem Engine.setTone_mixEpoch (e : Engine) (u : Nat) (t : Tone) : (e.setTone u t).mixEpoch = e.mixEpoch := rfl
@[simp] theorem Engine.setTone_outL (e : Engine) (u : Nat) (t : Tone) : (e.setTone u t).outL = e.outL := rfl
@[simp] theorem Engine.setTone_outR (e : Engine) (u : Nat) (t : Tone) : (e.setTone u t).outR = e.outR := rfl
@[simp] theorem Engine.setTone_outEpoch (e : Engine) (u : Nat) (t : Tone) : (e.setTone u t).outEpoch = e.outEpoch := rfl
@[simp] theorem Engine.setTone_limit (e : Engine) (u : Nat) (t : Tone) : (e.setTone u t).limit = e.limit := rfl
@[simp] theorem Engine.setTone_clock (e : Engine) (u : Nat) (t : Tone) : (e.setTone u t).clock = e.clock := rfl
@[simp] theorem Engine.setTone_activeTones (e : Engine) (u : Nat) (t : Tone) : (e.setTone u t).activeTones = e.activeTones := rfl
@[simp] theorem Engine.setTone_releasedTones (e : Engine) (u : Nat) (t : Tone) : (e.setTone u t).releasedTones = e.releasedTones := rfl
@[simp] theorem Engine.setTone_slots (e : Engine) (u : Nat) (t : Tone) : (e.setTone u t).slots = e.slots := rfl
@[simp] theorem Engine.setTone_waves (e : Engine) (u : Nat) (t : Tone) : (e.setTone u t).waves = e.waves := rfl
@[simp] theorem Engine.setTone_rng (e : Engine) (u : Nat) (t : Tone) : (e.setTone u t).rng = e.rng := rfl

@[simp] theorem Engine.setTone_tones (e : Engine) (u : Nat) (t : Tone) : (e.setTone u t).tones = e.tones.set u t := rfl

@[simp] theorem Engine.setSlot_work (e : Engine) (u : Nat) (i : Slot) : (e.setSlot u i).work = e.work := rfl
@[simp] theorem Engine.setSlot_workEpoch (e : Engine) (u : Nat) (i : Slot) : (e.setSlot u i).workEpoch = e.workEpoch := rfl
@[simp] theorem Engine.setSlot_scratch (e : Engine) (u : Nat) (i : Slot) : (e.setSlot u i).scratch = e.scratch := rfl
@[simp] theorem Engine.setSlot_mixL (e : Engine) (u : Nat) (i : Slot) : (e.setSlot u i).mixL = e.mixL := rfl
@[simp] theorem Engine.setSlot_mixR (e : Engine) (u : Nat) (i : Slot) : (e.setSlot u i).mixR = e.mixR := rfl
@[simp] theorem Engine.setSlot_mixEpoch (e : Engine) (u : Nat) (i : Slot) : (e.setSlot u i).mixEpoch = e.mixEpoch := rfl
@[simp] theorem Engine.setSlot_outL (e : Engine) (u : Nat) (i : Slot) : (e.setSlot u i).outL = e.outL := rfl
@[simp] theorem Engine.setSlot_outR (e : Engine) (u : Nat) (i : Slot) : (e.setSlot u i).outR = e.outR := rfl
@[simp] theorem Engine.setSlot_outEpoch (e : Engine) (u : Nat) (i : Slot) : (e.setSlot u i).outEpoch = e.outEpoch := rfl
@[simp] theorem Engine.setSlot_limit (e : Engine) (u : Nat) (i : Slot) : (e.setSlot u i).limit = e.limit := rfl
@[simp] theorem Engine.setSlot_clock (e : Engine) (u : Nat) (i : Slot) : (e.setSlot u i).clock = e.clock := rfl
@[simp] theorem Engine.setSlot_tones (e : Engine) (u : Nat) (i : Slot) : (e.setSlot u i).tones = e.tones := rfl
@[simp] theorem Engine.setSlot_activeTones (e : Engine) (u : Nat) (i : Slot) : (e.setSlot u i).activeTones = e.activeTones := rfl
@[simp] theorem Engine.setSlot_releasedTones (e : Engine) (u : Nat) (i : Slot) : (e.setSlot u i).releasedTones = e.releasedTones := rfl
@[simp] theorem Engine.setSlot_waves (e : Engine) (u : Nat) (i : Slot) : (e.setSlot u i).waves = e.waves := rfl
@[simp] theorem Engine.setSlot_rng (e : Engine) (u : Nat) (i : Slot) : (e.setSlot u i).rng = e.rng := rfl

@[simp] theorem Engine.setSlot_slots (e : Engine) (u : Nat) (i : Slot) : (e.setSlot u i).slots = e.slots.set u i := rfl

@[simp] theorem Engine.writeWork_workEpoch (e : Engine) (i : Nat) (v : Num) : (e.writeWork i v).workEpoch = e.workEpoch := rfl
@[simp] theorem Engine.writeWork_scratch (e : Engine) (i : Nat) (v : Num) : (e.writeWork i v).scratch = e.scratch := rfl
@[simp] theorem Engine.writeWork_mixL (e : Engine) (i : Nat) (v : Num) : (e.writeWork i v).mixL = e.mixL := rfl
@[simp] theorem Engine.writeWork_mixR (e : Engine) (i : Nat) (v : Num) : (e.writeWork i v).mixR = e.mixR := rfl
@[simp] theorem Engine.writeWork_mixEpoch (e : Engine) (i : Nat) (v : Num) : (e.writeWork i v).mixEpoch = e.mixEpoch := rfl
@[simp] theorem Engine.writeWork_outL (e : Engine) (i : Nat) (v : Num) : (e.writeWork i v).outL = e.outL := rfl
@[simp] theorem Engine.writeWork_outR (e : Engine) (i : Nat) (v : Num) : (e.writeWork i v).outR = e.outR := rfl
@[simp] theorem Engine.writeWork_outEpoch (e : Engine) (i : Nat) (v : Num) : (e.writeWork i v).outEpoch = e.outEpoch := rfl
@[simp] theorem Engine.writeWork_limit (e : Engine) (i : Nat) (v : Num) : (e.writeWork i v).limit = e.limit := rfl
@[simp] theorem Engine.writeWork_clock (e : Engine) (i : Nat) (v : Num) : (e.writeWork i v).clock = e.clock := rfl
@[simp] theorem Engine.writeWork_tones (e : Engine) (i : Nat) (v : Num) : (e.writeWork i v).tones = e.tones := rfl
@[simp] theorem Engine.writeWork_activeTones (e : Engine) (i : Nat) (v : Num) : (e.writeWork i v).activeTones = e.activeTones := rfl
@[simp] theorem Engine.writeWork_releasedTones (e : Engine) (i : Nat) (v : Num) : (e.writeWork i v).releasedTones = e.releasedTones := rfl
@[simp] theorem Engine.writeWork_slots (e : Engine) (i : Nat) (v : Num) : (e.writeWork i v).slots = e.slots := rfl
@[simp] theorem Engine.writeWork_waves (e : Engine) (i : Nat) (v : Num) : (e.writeWork i v).waves = e.waves := rfl
@[simp] theorem Engine.writeWork_rng (e : Engine) (i : Nat) (v : Num) : (e.writeWork i v).rng = e.rng := rfl

@[simp] theorem Engine.fillWork_workEpoch (e : Engine) (l : List Num) : (e.fillWork l).workEpoch = e.workEpoch := rfl
@[simp] theorem Engine.fillWork_scratch (e : Engine) (l : List Num) : (e.fillWork l).scratch = e.scratch := rfl
@[simp] theorem Engine.fillWork_mixL (e : Engine) (l : List Num) : (e.fillWork l).mixL = e.mixL := rfl
@[simp] theorem Engine.fillWork_mixR (e : Engine) (l : List Num) : (e.fillWork l).mixR = e.mixR := rfl
@[simp] theorem Engine.fillWork_mixEpoch (e : Engine) (l : List Num) : (e.fillWork l).mixEpoch = e.mixEpoch := rfl
@[simp] theorem Engine.fillWork_outL (e : Engine) (l : List Num) : (e.fillWork l).outL = e.outL := rfl
@[simp] theorem Engine.fillWork_outR (e : Engine) (l : List Num) : (e.fillWork l).outR = e.outR := rfl
@[simp] theorem Engine.fillWork_outEpoch (e : Engine) (l : List Num) : (e.fillWork l).outEpoch = e.outEpoch := rfl
@[simp] theorem Engine.fillWork_limit (e : Engine) (l : List Num) : (e.fillWork l).limit = e.limit := rfl
@[simp] theorem Engine.fillWork_clock (e : Engine) (l : List Num) : (e.fillWork l).clock = e.clock := rfl
@[simp] theorem Engine.fillWork_tones (e : Engine) (l : List Num) : (e.fillWork l).tones = e.tones := rfl
@[simp] theorem Engine.fillWork_activeTones (e : Engine) (l : List Num) : (e.fillWork l).activeTones = e.activeTones := rfl
@[simp] theorem Engine.fillWork_releasedTones (e : Engine) (l : List Num) : (e.fillWork l).releasedTones = e.releasedTones := rfl
@[simp] theorem Engine.fillWork_slots (e : Engine) (l : List Num) : (e.fillWork l).slots = e.slots := rfl
@[simp] theorem Engine.fillWork_waves (e : Engine) (l : List Num) : (e.fillWork l).waves = e.waves := rfl
@[simp] theorem Engine.fillWork_rng (e : Engine) (l : List Num) : (e.fillWork l).rng = e.rng := rfl

@[simp] theorem Engine.addMix_work (e : Engine) (i : Nat) (l r : Num) : (e.addMix i l r).work = e.work := rfl
@[simp] theorem Engine.addMix_workEpoch (e : Engine) (i : Nat) (l r : Num) : (e.addMix i l r).workEpoch = e.workEpoch := rfl
@[simp] theorem Engine.addMix_scratch (e : Engine) (i : Nat) (l r : Num) : (e.addMix i l r).scratch = e.scratch := rfl
@[simp] theorem Engine.addMix_mixEpoch (e : Engine) (i : Nat) (l r : Num) : (e.addMix i l r).mixEpoch = e.mixEpoch := rfl
@[simp] theorem Engine.addMix_outL (e : Engine) (i : Nat) (l r : Num) : (e.addMix i l r).outL = e.outL := rfl
@[simp] theorem Engine.addMix_outR (e : Engine) (i : Nat) (l r : Num) : (e.addMix i l r).outR = e.outR := rfl
@[simp] theorem Engine.addMix_outEpoch (e : Engine) (i : Nat) (l r : Num) : (e.addMix i l r).outEpoch = e.outEpoch := rfl
@[simp] theorem Engine.addMix_limit (e : Engine) (i : Nat) (l r : Num) : (e.addMix i l r).limit = e.limit := rfl
@[simp] theorem Engine.addMix_clock (e : Engine) (i : Nat) (l r : Num) : (e.addMix i l r).clock = e.clock := rfl
@[simp] theorem Engine.addMix_tones (e : Engine) (i : Nat) (l r : Num) : (e.addMix i l r).tones = e.tones := rfl
@[simp] theorem Engine.addMix_activeTones (e : Engine) (i : Nat) (l r : Num) : (e.addMix i l r).activeTones = e.activeTones := rfl
@[simp] theorem Engine.addMix_releasedTones (e : Engine) (i : Nat) (l r : Num) : (e.addMix i l r).releasedTones = e.releasedTones := rfl
@[simp] theorem Engine.addMix_slots (e : Engine) (i : Nat) (l r : Num) : (e.addMix i l r).slots = e.slots := rfl
@[simp] theorem Engine.addMix_waves (e : Engine) (i : Nat) (l r : Num) : (e.addMix i l r).waves = e.waves := rfl
@[simp] theorem Engine.addMix_rng (e : Engine) (i : Nat) (l r : Num) : (e.addMix i l r).rng = e.rng := rfl

@[simp] theorem wakeSlot_work (e : Engine) (u : Nat) : (wakeSlot e u).work = e.work := rfl
@[simp] theorem wakeSlot_workEpoch (e : Engine) (u : Nat) : (wakeSlot e u).workEpoch = e.workEpoch := rfl
@[simp] theorem wakeSlot_scratch (e : Engine) (u : Nat) : (wakeSlot e u).scratch = e.scratch := rfl
@[simp] theorem wakeSlot_mixL (e : Engine) (u : Nat) : (wakeSlot e u).mixL = e.mixL := rfl
@[simp] theorem wakeSlot_mixR (e : Engine) (u : Nat) : (wakeSlot e u).mixR = e.mixR := rfl
@[simp] theorem wakeSlot_mixEpoch (e : Engine) (u : Nat) : (wakeSlot e u).mixEpoch = e.mixEpoch := rfl
@[simp] theorem wakeSlot_outL (e : Engine) (u : Nat) : (wakeSlot e u).outL = e.outL := rfl
@[simp] theorem wakeSlot_outR (e : Engine) (u : Nat) : (wakeSlot e u).outR = e.outR := rfl
@[simp] theorem wakeSlot_outEpoch (e : Engine) (u : Nat) : (wakeSlot e u).outEpoch = e.outEpoch := rfl
@[simp] theorem wakeSlot_limit (e : Engine) (u : Nat) : (wakeSlot e u).limit = e.limit := rfl
@[simp] theorem wakeSlot_clock (e : Engine) (u : Nat) : (wakeSlot e u).clock = e.clock := rfl
@[simp] theorem wakeSlot_tones (e : Engine) (u : Nat) : (wakeSlot e u).tones = e.tones := rfl
@[simp] theorem wakeSlot_activeTones (e : Engine) (u : Nat) : (wakeSlot e u).activeTones = e.activeTones := rfl
@[simp] theorem wakeSlot_releasedTones (e : Engine) (u : Nat) : (wakeSlot e u).releasedTones = e.releasedTones := rfl
@[simp] theorem wakeSlot_waves (e : Engine) (u : Nat) : (wakeSlot e u).waves = e.waves := rfl
@[simp] theorem wakeSlot_rng (e : Engine) (u : Nat) : (wakeSlot e u).rng = e.rng := rfl

@[simp] theorem freeTone_work (e : Engine) (u : Nat) : (freeTone e u).work = e.work := rfl
@[simp] theorem freeTone_workEpoch (e : Engine) (u : Nat) : (freeTone e u).workEpoch = e.workEpoch := rfl
@[simp] theorem freeTone_scratch (e : Engine) (u : Nat) : (freeTone e u).scratch = e.scratch := rfl
@[simp] theorem freeTone_mixL (e : Engine) (u : Nat) : (freeTone e u).mixL = e.mixL := rfl
@[simp] theorem freeTone_mixR (e : Engine) (u : Nat) : (freeTone e u).mixR = e.mixR := rfl
@[simp] theorem freeTone_mixEpoch (e : Engine) (u : Nat) : (freeTone e u).mixEpoch = e.mixEpoch := rfl
@[simp] theorem freeTone_outL (e : Engine) (u : Nat) : (freeTone e u).outL = e.outL := rfl
@[simp] theorem freeTone_outR (e : Engine) (u : Nat) : (freeTone e u).outR = e.outR := rfl
@[simp] theorem freeTone_outEpoch (e : Engine) (u : Nat) : (freeTone e u).outEpoch = e.outEpoch := rfl
@[simp] theorem freeTone_limit (e : Engine) (u : Nat) : (freeTone e u).limit = e.limit := rfl
@[simp] theorem freeTone_clock (e : Engine) (u : Nat) : (freeTone e u).clock = e.clock := rfl
@[simp] theorem freeTone_slots (e : Engine) (u : Nat) : (freeTone e u).slots = e.slots := rfl
@[simp] theorem freeTone_waves (e : Engine) (u : Nat) : (freeTone e u).waves = e.waves := rfl
@[simp] theorem freeTone_rng (e : Engine) (u : Nat) : (freeTone e u).rng = e.rng := rfl

@[simp] theorem releaseTone_work (e : Engine) (u : Nat) (t : Tone) : (releaseTone e u t).work = e.work := rfl
@[simp] theorem releaseTone_workEpoch (e : Engine) (u : Nat) (t : Tone) : (releaseTone e u t).workEpoch = e.workEpoch := rfl
@[simp] theorem releaseTone_scratch (e : Engine) (u : Nat) (t : Tone) : (releaseTone e u t).scratch = e.scratch := rfl
@[simp] theorem releaseTone_mixL (e : Engine) (u : Nat) (t : Tone) : (releaseTone e u t).mixL = e.mixL := rfl
@[simp] theorem releaseTone_mixR (e : Engine) (u : Nat) (t : Tone) : (releaseTone e u t).mixR = e.mixR := rfl
@[simp] theorem releaseTone_mixEpoch (e : Engine) (u : Nat) (t : Tone) : (releaseTone e u t).mixEpoch = e.mixEpoch := rfl
@[simp] theorem releaseTone_outL (e : Engine) (u : Nat) (t : Tone) : (releaseTone e u t).outL = e.outL := rfl
@[simp] theorem releaseTone_outR (e : Engine) (u : Nat) (t : Tone) : (releaseTone e u t).outR = e.outR := rfl
@[simp] theorem releaseTone_outEpoch (e : Engine) (u : Nat) (t : Tone) : (releaseTone e u t).outEpoch = e.outEpoch := rfl
@[simp] theorem releaseTone_limit (e : Engine) (u : Nat) (t : Tone) : (releaseTone e u t).limit = e.limit := rfl
@[simp] theorem releaseTone_clock (e : Engine) (u : Nat) (t : Tone) : (releaseTone e u t).clock = e.clock := rfl
@[simp] theorem releaseTone_slots (e : Engine) (u : Nat) (t : Tone) : (releaseTone e u t).slots = e.slots := rfl
@[simp] theorem releaseTone_waves (e : Engine) (u : Nat) (t : Tone) : (releaseTone e u t).waves = e.waves := rfl
@[simp] theorem releaseTone_rng (e : Engine) (u : Nat) (t : Tone) : (releaseTone e u t).rng = e.rng := rfl

@[simp] theorem clearTones_work (c : Cfg) (song : Song) (e : Engine) : (clearTones c song e).work = e.work := rfl
@[simp] theorem clearTones_workEpoch (c : Cfg) (song : Song) (e : Engine) : (clearTones c song e).workEpoch = e.workEpoch := rfl
@[simp] theorem clearTones_scratch (c : Cfg) (song : Song) (e : Engine) : (clearTones c song e).scratch = e.scratch := rfl
@[simp] theorem clearTones_mixL (c : Cfg) (song : Song) (e : Engine) : (clearTones c song e).mixL = e.mixL := rfl
@[simp] theorem clearTones_mixR (c : Cfg) (song : Song) (e : Engine) : (clearTones c song e).mixR = e.mixR := rfl
@[simp] theorem clearTones_mixEpoch (c : Cfg) (song : Song) (e : Engine) : (clearTones c song e).mixEpoch = e.mixEpoch := rfl
@[simp] theorem clearTones_outL (c : Cfg) (song : Song) (e : Engine) : (clearTones c song e).outL = e.outL := rfl
@[simp] theorem clearTones_outR (c : Cfg) (song : Song) (e : Engine) : (clearTones c song e).outR = e.outR := rfl
@[simp] theorem clearTones_outEpoch (c : Cfg) (song : Song) (e : Engine) : (clearTones c song e).outEpoch = e.outEpoch := rfl
@[simp] theorem clearTones_limit (c : Cfg) (song : Song) (e : Engine) : (clearTones c song e).limit = e.limit := rfl
@[simp] theorem clearTones_clock (c : Cfg) (song : Song) (e : Engine) : (clearTones c song e).clock = e.clock := rfl
@[simp] theorem clearTones_slots (c : Cfg) (song : Song) (e : Engine) : (clearTones c song e).slots = e.slots := rfl
@[simp] theorem clearTones_waves (c : Cfg) (song : Song) (e : Engine) : (clearTones c song e).waves = e.waves := rfl
@[simp] theorem clearTones_rng (c : Cfg) (song : Song) (e : Engine) : (clearTones c song e).rng = e.rng := rfl

@[simp] theorem clearSlots_work (c : Cfg) (song : Song) (e : Engine) : (clearSlots c song e).work = e.work := rfl
@[simp] theorem clearSlots_workEpoch (c : Cfg) (song : Song) (e : Engine) : (clearSlots c song e).workEpoch = e.workEpoch := rfl
@[simp] theorem clearSlots_scratch (c : Cfg) (song : Song) (e : Engine) : (clearSlots c song e).scratch = e.scratch := rfl
@[simp] theorem clearSlots_mixL (c : Cfg) (song : Song) (e : Engine) : (clearSlots c song e).mixL = e.mixL := rfl
@[simp] theorem clearSlots_mixR (c : Cfg) (song : Song) (e : Engine) : (clearSlots c song e).mixR = e.mixR := rfl
@[simp] theorem clearSlots_mixEpoch (c : Cfg) (song : Song) (e : Engine) : (clearSlots c song e).mixEpoch = e.mixEpoch := rfl
@[simp] theorem clearSlots_outL (c : Cfg) (song : Song) (e : Engine) : (clearSlots c song e).outL = e.outL := rfl
@[simp] theorem clearSlots_outR (c : Cfg) (song : Song) (e : Engine) : (clearSlots c song e).outR = e.outR := rfl
@[simp] theorem clearSlots_outEpoch (c : Cfg) (song : Song) (e : Engine) : (clearSlots c song e).outEpoch = e.outEpoch := rfl
@[simp] theorem clearSlots_limit (c : Cfg) (song : Song) (e : Engine) : (clearSlots c song e).limit = e.limit := rfl
@[simp] theorem clearSlots_clock (c : Cfg) (song : Song) (e : Engine) : (clearSlots c song e).clock = e.clock := rfl
@[simp] theorem clearSlots_waves (c : Cfg) (song : Song) (e : Engine) : (clearSlots c song e).waves = e.waves := rfl
@[simp] theorem clearSlots_rng (c : Cfg) (song : Song) (e : Engine) : (clearSlots c song e).rng = e.rng := rfl

/-! The fault latch (R452): what `raise` leaves. -/

@[simp] theorem raise_r (f : Raise) (s : State) : (raise f s).r = s.r := by
  unfold raise; split <;> rfl
@[simp] theorem raise_eng (f : Raise) (s : State) : (raise f s).eng = s.eng := by
  unfold raise; split <;> rfl
@[simp] theorem raise_sampleRate (f : Raise) (s : State) : (raise f s).sampleRate = s.sampleRate := by
  unfold raise; split <;> rfl
@[simp] theorem raise_volume (f : Raise) (s : State) : (raise f s).volume = s.volume := by
  unfold raise; split <;> rfl
@[simp] theorem raise_liveDeadlineSeconds (f : Raise) (s : State) : (raise f s).liveDeadlineSeconds = s.liveDeadlineSeconds := by
  unfold raise; split <;> rfl
@[simp] theorem raise_rngSeed (f : Raise) (s : State) : (raise f s).rngSeed = s.rngSeed := by
  unfold raise; split <;> rfl
@[simp] theorem raise_song (f : Raise) (s : State) : (raise f s).song = s.song := by
  unfold raise; split <;> rfl
@[simp] theorem raise_playing (f : Raise) (s : State) : (raise f s).playing = s.playing := by
  unfold raise; split <;> rfl
@[simp] theorem raise_audioActive (f : Raise) (s : State) : (raise f s).audioActive = s.audioActive := by
  unfold raise; split <;> rfl
@[simp] theorem raise_liveDeadline (f : Raise) (s : State) : (raise f s).liveDeadline = s.liveDeadline := by
  unfold raise; split <;> rfl
@[simp] theorem raise_monoTime (f : Raise) (s : State) : (raise f s).monoTime = s.monoTime := by
  unfold raise; split <;> rfl
@[simp] theorem raise_port (f : Raise) (s : State) : (raise f s).port = s.port := by
  unfold raise; split <;> rfl
@[simp] theorem raise_payload (f : Raise) (s : State) : (raise f s).payload = s.payload := by
  unfold raise; split <;> rfl
@[simp] theorem raise_responses (f : Raise) (s : State) : (raise f s).responses = s.responses := by
  unfold raise; split <;> rfl
@[simp] theorem raise_resetPin (f : Raise) (s : State) : (raise f s).resetPin = s.resetPin := by
  unfold raise; split <;> rfl
@[simp] theorem raise_turn (f : Raise) (s : State) : (raise f s).turn = s.turn := by
  unfold raise; split <;> rfl
@[simp] theorem raise_codec (f : Raise) (s : State) : (raise f s).codec = s.codec := by
  unfold raise; split <;> rfl
@[simp] theorem raise_epoch (f : Raise) (s : State) : (raise f s).epoch = s.epoch := by
  unfold raise; split <;> rfl
@[simp] theorem raise_fault (f : Raise) (s : State) : (raise f s).fault = true := by
  unfold raise; split
  · assumption
  · rfl
@[simp] theorem raise_busy (f : Raise) (s : State) : (raise f s).busy = false := by
  unfold raise; split <;> rfl
@[simp] theorem raise_seq (f : Raise) (s : State) : (raise f s).seq = .idle := by
  unfold raise; split <;> rfl

end Sys2Proof.Machine
end

