-- ==== Sys2Proof/Laws/Ops.lean ====
section
/-! SUPPORT. One lemma for each shared operation that says what it can do. -/

namespace Sys2Proof.Machine

/-! How a command ends. -/

/-- A first fault is recorded (R452, R456). -/
theorem raise_clear {f : Raise} {s : State} (h : s.fault = false) :
    (raise f s).faultCode = f.kind.code ∧ (raise f s).faultInfo = f.info := by
  simp [raise, h]

/-- A later fault changes neither code nor detail (R456). -/
theorem raise_set {f : Raise} {s : State} (h : s.fault = true) :
    (raise f s).faultCode = s.faultCode ∧ (raise f s).faultInfo = s.faultInfo := by
  simp [raise, h]

theorem FaultKind.code_range (k : FaultKind) : 1 ≤ k.code.toNat ∧ k.code.toNat ≤ 7 := by
  cases k <;> decide

/-- A raise keeps the latch legal. -/
theorem raise_latchLegal {f : Raise} {s : State} (h : s.latchLegal) : (raise f s).latchLegal := by
  cases hf : s.fault with
  | true =>
    refine ⟨by simp, fun _ => ?_⟩
    rw [(raise_set hf).1]
    exact h.2 hf
  | false =>
    refine ⟨by simp, fun _ => ?_⟩
    rw [(raise_clear hf).1]
    exact f.kind.code_range

theorem settle_cases (s : State) (r : Except Raise State) :
    (∃ t, r = .ok t ∧ settle s r = t) ∨ (∃ f, r = .error f ∧ settle s r = raise f s) := by
  cases r with
  | ok t => exact .inl ⟨t, rfl, rfl⟩
  | error f => exact .inr ⟨f, rfl, rfl⟩

/-- A command is ignored under a fault, or leaves its result, or takes its fault. -/
theorem command_cases (s : State) (r : Except Raise State) :
    (s.fault = true ∧ command s r = s) ∨
      (s.fault = false ∧ ((∃ t, r = .ok t ∧ command s r = t) ∨ (∃ f, r = .error f ∧ command s r = raise f s))) := by
  cases hf : s.fault with
  | true => exact .inl ⟨rfl, by simp [command, hf]⟩
  | false =>
    refine .inr ⟨rfl, ?_⟩
    have : command s r = settle s r := by simp [command, hf]
    rw [this]
    exact settle_cases s r

@[simp] theorem command_faulted {s : State} (h : s.fault = true) (r : Except Raise State) : command s r = s := by
  simp [command, h]

theorem command_ok {s : State} (h : s.fault = false) (t : State) : command s (.ok t) = t := by
  simp [command, h, settle]

theorem command_error {s : State} (h : s.fault = false) (f : Raise) : command s (.error f) = raise f s := by
  simp [command, h, settle]

/-- A command on the engine changes the engine alone, or takes its fault. -/
theorem onEngine_cases (s : State) (r : Except Raise Engine) :
    (s.fault = true ∧ onEngine s r = s) ∨
      (s.fault = false ∧ ((∃ e, r = .ok e ∧ onEngine s r = { s with eng := e }) ∨
        (∃ f, r = .error f ∧ onEngine s r = raise f s))) := by
  unfold onEngine
  rcases command_cases s (r.map (fun e => { s with eng := e })) with h | ⟨h, ⟨t, ht, e⟩ | ⟨f, hf, e⟩⟩
  · exact .inl h
  · cases r with
    | ok a => exact .inr ⟨h, .inl ⟨a, rfl, by rw [e]; simpa [Except.map] using ht.symm⟩⟩
    | error f => simp [Except.map] at ht
  · cases r with
    | ok a => simp [Except.map] at hf
    | error g => exact .inr ⟨h, .inr ⟨g, rfl, by simp [Except.map] at hf; rw [e, hf]⟩⟩

theorem onEngine_ok {s : State} (h : s.fault = false) (e : Engine) : onEngine s (.ok e) = { s with eng := e } := by
  simp [onEngine, Except.map, command_ok h]

theorem onEngine_error {s : State} (h : s.fault = false) (f : Raise) : onEngine s (.error f) = raise f s := by
  simp [onEngine, Except.map, command_error h]

/-- A read command adds a response, or, where it would raise, takes the fault; under a fault it then does nothing
(R457). -/
theorem readCommand_cases (s : State) (r : Except Raise Word) :
    (∃ w, r = .ok w ∧ readCommand s r = { s with responses := s.responses ++ [w] }) ∨
      (∃ f, r = .error f ∧ ((s.fault = true ∧ readCommand s r = s) ∨ (s.fault = false ∧ readCommand s r = raise f s))) := by
  cases r with
  | ok w => exact .inl ⟨w, rfl, rfl⟩
  | error f =>
    refine .inr ⟨f, rfl, ?_⟩
    cases hf : s.fault with
    | true => exact .inl ⟨rfl, by simp [readCommand, hf]⟩
    | false => exact .inr ⟨rfl, by simp [readCommand, hf]⟩

/-! Result registers. -/

theorem setResults_size (r : Vector Num 16) (i : Nat) (l : List Num) : (setResults r i l).toArray.size = 16 := by
  simp

/-- A register below the first one written keeps its value. -/
theorem setResults_below {r : Vector Num 16} {i j : Nat} {l : List Num} (h : j < i) :
    (setResults r i l).toArray[j]? = r.toArray[j]? := by
  induction l generalizing r i with
  | nil => rfl
  | cons v t ih =>
    rw [setResults, ih (Nat.lt_succ_of_lt h)]
    simp [Vector.toArray_setIfInBounds, Nat.ne_of_gt h]

/-- A register that is written holds its result. -/
theorem setResults_at {r : Vector Num 16} {i k : Nat} {l : List Num} (hk : k < l.length) (h : i + k < 16) :
    (setResults r i l).toArray[i + k]? = l[k]? := by
  induction l generalizing r i k with
  | nil => simp at hk
  | cons v t ih =>
    cases k with
    | zero =>
      have hi : i < 16 := by omega
      have low := setResults_below (r := r.setIfInBounds i v) (l := t) (Nat.lt_succ_self i)
      simp only [setResults, Nat.add_zero]
      rw [low]
      simp [Vector.toArray_setIfInBounds, hi]
    | succ k =>
      have hk' : k < t.length := by simpa using hk
      have e : i + (k + 1) = i + 1 + k := by omega
      rw [setResults, e, ih hk' (by omega)]
      simp

/-- A register above the last one written keeps its value. -/
theorem setResults_above {r : Vector Num 16} {i j : Nat} {l : List Num} (h : i + l.length ≤ j) :
    (setResults r i l).toArray[j]? = r.toArray[j]? := by
  induction l generalizing r i with
  | nil => rfl
  | cons v t ih =>
    have hl : i + (t.length + 1) ≤ j := by simpa using h
    rw [setResults, ih (by omega)]
    have : i ≠ j := by omega
    simp [Vector.toArray_setIfInBounds, this]

/-! Work buffer (R13, R384). -/

@[simp] theorem readWork_writeWork_same (e : Engine) (i : Nat) (v : Num) : (e.writeWork i v).readWork i = v := by
  simp [Engine.readWork, Engine.writeWork, Memory.find_write_none_same]

theorem readWork_writeWork_other (e : Engine) {i k : Nat} (v : Num) (ne : k ≠ i) :
    (e.writeWork i v).readWork k = e.readWork k := by
  simp [Engine.readWork, Engine.writeWork, Memory.find_write_none_other v ne]

/-- A fill writes the elements of the list from index 0 on, and no other. -/
theorem readWork_fillWork (e : Engine) (l : List Num) (k : Nat) :
    (e.fillWork l).readWork k = (l[k]?).getD (e.readWork k) := by
  have main : ∀ (l : List Num) (n : Nat) (m : Memory Num),
      Memory.find ((l.zipIdx n).foldl (fun m p => Memory.write none m p.2 p.1) m) k
        = if n ≤ k then (l[k - n]?).or (Memory.find m k) else Memory.find m k := by
    intro l
    induction l with
    | nil => intro n m; simp
    | cons v t ih =>
      intro n m
      simp only [List.zipIdx_cons, List.foldl_cons]
      rw [ih]
      by_cases h1 : n + 1 ≤ k
      · have h2 : n ≤ k := by omega
        have h3 : k - n = (k - (n + 1)) + 1 := by omega
        have h4 : k ≠ n := by omega
        simp [h1, h2, h3, Memory.find_write_none_other v h4]
      · by_cases h2 : k = n
        · subst h2; simp [Memory.find_write_none_same]
        · have h3 : ¬ n ≤ k := by omega
          simp [h1, h3, Memory.find_write_none_other v h2]
  have := main l 0 e.work
  simp only [Nat.zero_le, if_true, Nat.sub_zero] at this
  simp only [Engine.readWork, Engine.fillWork, this]
  cases l[k]? <;> simp

theorem wf_fillWork {e : Engine} (h : Memory.wf none e.work = true) (l : List Num) :
    Memory.wf none (e.fillWork l).work = true := by
  have main : ∀ (l : List (Num × Nat)) (m : Memory Num), Memory.wf none m = true →
      Memory.wf none (l.foldl (fun m p => Memory.write none m p.2 p.1) m) = true := by
    intro l
    induction l with
    | nil => intro m hm; exact hm
    | cons p t ih => intro m hm; exact ih _ (Memory.wf_write hm _ _)
  exact main _ _ h

/-! Tone pool (R28). -/

theorem freeSlotFrom_spec {i u : Nat} {l : List Tone} (h : freeSlotFrom i l = some u) :
    ∃ k t, u = i + k ∧ l[k]? = some t ∧ t.state = .free ∧ ∀ j, j < k → ∀ t', l[j]? = some t' → t'.state ≠ .free := by
  induction l generalizing i with
  | nil => simp [freeSlotFrom] at h
  | cons a t ih =>
    unfold freeSlotFrom at h
    split at h
    · rename_i hf
      simp only [Option.some.injEq] at h
      exact ⟨0, a, by omega, by simp, hf, by intro j hj; omega⟩
    · rename_i hf
      obtain ⟨k, t', hu, hk, hs, hlow⟩ := ih h
      refine ⟨k + 1, t', by omega, by simpa using hk, hs, ?_⟩
      intro j hj t'' ht
      cases j with
      | zero => simp only [List.getElem?_cons_zero, Option.some.injEq] at ht; subst ht; exact hf
      | succ j => exact hlow j (by omega) t'' (by simpa using ht)

/-- `newTone` answers the lowest-numbered free slot, or `ToneOverflow` where none is free. -/
theorem newTone_cases (x : Ctx) (e : Engine) (islot k asker : Nat) :
    (∃ u e', freeSlotFrom 0 e.tones = some u ∧ newTone x e islot k asker = .ok (u, e')) ∨
      (freeSlotFrom 0 e.tones = none ∧ ∃ info, newTone x e islot k asker = .error ⟨.toneOverflow, info⟩) := by
  unfold newTone
  cases freeSlotFrom 0 e.tones with
  | none => exact .inr ⟨rfl, _, rfl⟩
  | some u => exact .inl ⟨u, _, rfl, rfl⟩

end Sys2Proof.Machine
end

