-- ==== Sys2Proof/Laws/PerInstr.lean ====
section
/-! SUPPORT. Laws made for each instruction: its encoding has the shape that the opcode map gives its opcode (R107), and
a tag's character decodes to it (R412). -/

namespace Sys2Proof.Laws.Wire

/-- The selectors and the operand words of an instruction are as many as the opcode map says; a tag is read from its
character. -/
def Statement (i : Instr) : Prop :=
  (∀ op, i.opcode = some op → opcodeShape op = some (i.selectors.length, i.operandWords.length)) ∧
    (∀ ch, i.tagCode = some ch → i.opcode = none ∧ decodeTag (BitVec.ofNat 8 ch) = some i)

theorem of_command {i : Instr} {op : Nat} (h : i.opcode = some op) (t : i.tagCode = none)
    (s : opcodeShape op = some (i.selectors.length, i.operandWords.length)) : Statement i :=
  ⟨fun op' e => (by rw [h] at e; cases e; exact s), fun ch e => (by rw [t] at e; cases e)⟩

theorem of_tag {i : Instr} {ch : Nat} (h : i.opcode = none) (t : i.tagCode = some ch)
    (d : decodeTag (BitVec.ofNat 8 ch) = some i) : Statement i :=
  ⟨fun op e => (by rw [h] at e; cases e), fun ch' e => (by rw [t] at e; cases e; exact ⟨h, d⟩)⟩

theorem reset : Statement (.reset) := of_command rfl rfl rfl
theorem play : Statement (.play) := of_command rfl rfl rfl
theorem pause : Statement (.pause) := of_command rfl rfl rfl
theorem live : Statement (.live) := of_command rfl rfl rfl
theorem run (count : Nat) : Statement (.run count) := of_command rfl rfl rfl
theorem cfgw (u : Nat) (value : Word) : Statement (.cfgw u value) := of_command rfl rfl rfl
theorem cfgr (u : Nat) : Statement (.cfgr u) := of_command rfl rfl rfl
theorem songLoad : Statement (.songLoad) := of_command rfl rfl rfl
theorem songSet : Statement (.songSet) := of_command rfl rfl rfl
theorem setr (u : Nat) (value : Num) : Statement (.setr u value) := of_command rfl rfl rfl
theorem rdr (u : Nat) : Statement (.rdr u) := of_command rfl rfl rfl
theorem wrw (index : Nat) (value : Num) : Statement (.wrw index value) := of_command rfl rfl rfl
theorem rdw (index : Nat) : Statement (.rdw index) := of_command rfl rfl rfl
theorem rdm (u : Nat) (v : Nat) (w : Nat) (index : Nat) : Statement (.rdm u v w index) := of_command rfl rfl rfl
theorem sanitize : Statement (.sanitize) := of_command rfl rfl rfl
theorem ifft (size : Nat) : Statement (.ifft size) := of_command rfl rfl rfl
theorem waveSine : Statement (.waveSine) := of_command rfl rfl rfl
theorem waveChip (u : Nat) : Statement (.waveChip u) := of_command rfl rfl rfl
theorem waveNoise (u : Nat) : Statement (.waveNoise u) := of_command rfl rfl rfl
theorem waveSpectrum (u : Nat) (v : Nat) : Statement (.waveSpectrum u v) := of_command rfl rfl rfl
theorem waveHarmonics (u : Nat) : Statement (.waveHarmonics u) := of_command rfl rfl rfl
theorem waveImpulse : Statement (.waveImpulse) := of_command rfl rfl rfl
theorem waveInval : Statement (.waveInval) := of_command rfl rfl rfl
theorem bqLoadgrad (u : Nat) (v : Nat) (w : Nat) (start : CoefSet) (finish : CoefSet) (invN : Num) : Statement (.bqLoadgrad u v w start finish invN) := of_command rfl rfl rfl
theorem bqStep (u : Nat) (v : Nat) (w : Nat) (x : Num) : Statement (.bqStep u v w x) := of_command rfl rfl rfl
theorem coefLp1 (omega : Num) : Statement (.coefLp1 omega) := of_command rfl rfl rfl
theorem coefHp1 (omega : Num) : Statement (.coefHp1 omega) := of_command rfl rfl rfl
theorem coefLp2 (omega : Num) (gain : Num) : Statement (.coefLp2 omega gain) := of_command rfl rfl rfl
theorem coefHp2 (omega : Num) (gain : Num) : Statement (.coefHp2 omega gain) := of_command rfl rfl rfl
theorem coefPeak (omega : Num) (gain : Num) : Statement (.coefPeak omega gain) := of_command rfl rfl rfl
theorem coefHshelf1 (omega : Num) (shelfGain : Num) : Statement (.coefHshelf1 omega shelfGain) := of_command rfl rfl rfl
theorem coefAp1 (omega : Num) : Statement (.coefAp1 omega) := of_command rfl rfl rfl
theorem coefFdap (d : Num) : Statement (.coefFdap d) := of_command rfl rfl rfl
theorem fptHz (freq : Nat) : Statement (.fptHz freq) := of_command rfl rfl rfl
theorem fptGain (gain : Nat) : Statement (.fptGain gain) := of_command rfl rfl rfl
theorem volcomp (kind : Nat) (freq : Nat) (gain : Nat) : Statement (.volcomp kind freq gain) := of_command rfl rfl rfl
theorem envSteady (t : Num) (beats : Num) (speed : Num) (noteExpression : Num) : Statement (.envSteady t beats speed noteExpression) := of_command rfl rfl rfl
theorem envCustom (t : Num) (beats : Num) (speed : Num) (noteExpression : Num) : Statement (.envCustom t beats speed noteExpression) := of_command rfl rfl rfl
theorem envTwang (t : Num) (beats : Num) (speed : Num) (noteExpression : Num) : Statement (.envTwang t beats speed noteExpression) := of_command rfl rfl rfl
theorem envSwell (t : Num) (beats : Num) (speed : Num) (noteExpression : Num) : Statement (.envSwell t beats speed noteExpression) := of_command rfl rfl rfl
theorem envTremolo (t : Num) (beats : Num) (speed : Num) (noteExpression : Num) : Statement (.envTremolo t beats speed noteExpression) := of_command rfl rfl rfl
theorem envTremolo2 (t : Num) (beats : Num) (speed : Num) (noteExpression : Num) : Statement (.envTremolo2 t beats speed noteExpression) := of_command rfl rfl rfl
theorem envPunch (t : Num) (beats : Num) (speed : Num) (noteExpression : Num) : Statement (.envPunch t beats speed noteExpression) := of_command rfl rfl rfl
theorem envFlare (t : Num) (beats : Num) (speed : Num) (noteExpression : Num) : Statement (.envFlare t beats speed noteExpression) := of_command rfl rfl rfl
theorem envDecay (t : Num) (beats : Num) (speed : Num) (noteExpression : Num) : Statement (.envDecay t beats speed noteExpression) := of_command rfl rfl rfl
theorem lfo (u : Nat) (tau : Num) : Statement (.lfo u tau) := of_command rfl rfl rfl
theorem expr (x : Num) : Statement (.expr x) := of_command rfl rfl rfl
theorem relscale (ticksSinceReleased : Num) (releaseTicks : Num) : Statement (.relscale ticksSinceReleased releaseTicks) := of_command rfl rfl rfl
theorem vibRamp (ticks : Num) (delayTicks : Num) : Statement (.vibRamp ticks delayTicks) := of_command rfl rfl rfl
theorem pitchHz (pitch : Num) : Statement (.pitchHz pitch) := of_command rfl rfl rfl
theorem toneNew (u : Nat) : Statement (.toneNew u) := of_command rfl rfl rfl
theorem toneCompute (u : Nat) (runLength : Nat) : Statement (.toneCompute u runLength) := of_command rfl rfl rfl
theorem toneRelease (u : Nat) : Statement (.toneRelease u) := of_command rfl rfl rfl
theorem toneFree (u : Nat) : Statement (.toneFree u) := of_command rfl rfl rfl
theorem arpIndex (pitchCount : Nat) (rhythm : Nat) (arpStep : Nat) : Statement (.arpIndex pitchCount rhythm arpStep) := of_command rfl rfl rfl
theorem synChip (u : Nat) (runLength : Nat) : Statement (.synChip u runLength) := of_command rfl rfl rfl
theorem synFm (u : Nat) (runLength : Nat) : Statement (.synFm u runLength) := of_command rfl rfl rfl
theorem synNoise (u : Nat) (runLength : Nat) : Statement (.synNoise u runLength) := of_command rfl rfl rfl
theorem synSpectrum (u : Nat) (runLength : Nat) : Statement (.synSpectrum u runLength) := of_command rfl rfl rfl
theorem synDrumset (u : Nat) (runLength : Nat) : Statement (.synDrumset u runLength) := of_command rfl rfl rfl
theorem synHarmonics (u : Nat) (runLength : Nat) : Statement (.synHarmonics u runLength) := of_command rfl rfl rfl
theorem synPwm (u : Nat) (runLength : Nat) : Statement (.synPwm u runLength) := of_command rfl rfl rfl
theorem synGuitar (u : Nat) (runLength : Nat) : Statement (.synGuitar u runLength) := of_command rfl rfl rfl
theorem gtrPluck (u : Nat) (v : Nat) : Statement (.gtrPluck u v) := of_command rfl rfl rfl
theorem fxDistort (u : Nat) (x : Num) : Statement (.fxDistort u x) := of_command rfl rfl rfl
theorem fxBitcrush (u : Nat) (x : Num) : Statement (.fxBitcrush u x) := of_command rfl rfl rfl
theorem fxFilter (u : Nat) (x : Num) : Statement (.fxFilter u x) := of_command rfl rfl rfl
theorem fxPan (u : Nat) (x : Num) : Statement (.fxPan u x) := of_command rfl rfl rfl
theorem fxChorus (u : Nat) (left : Num) (right : Num) : Statement (.fxChorus u left right) := of_command rfl rfl rfl
theorem fxReverb (u : Nat) (left : Num) (right : Num) : Statement (.fxReverb u left right) := of_command rfl rfl rfl
theorem fxRun (u : Nat) (pos : Nat) (runLength : Nat) : Statement (.fxRun u pos runLength) := of_command rfl rfl rfl
theorem fxTail (u : Nat) : Statement (.fxTail u) := of_command rfl rfl rfl
theorem limit (left : Num) (right : Num) : Statement (.limit left right) := of_command rfl rfl rfl
theorem clkAdv (runLength : Nat) : Statement (.clkAdv runLength) := of_command rfl rfl rfl
theorem tickEnd : Statement (.tickEnd) := of_command rfl rfl rfl
theorem partEnd : Statement (.partEnd) := of_command rfl rfl rfl
theorem barNext : Statement (.barNext) := of_command rfl rfl rfl
theorem syncTones (u : Nat) : Statement (.syncTones u) := of_command rfl rfl rfl
theorem tagBeatsPerBar : Statement .tagBeatsPerBar := of_tag rfl rfl rfl
theorem tagBars : Statement .tagBars := of_tag rfl rfl rfl
theorem tagVibrato : Statement .tagVibrato := of_tag rfl rfl rfl
theorem tagTransition : Statement .tagTransition := of_tag rfl rfl rfl
theorem tagLoopEnd : Statement .tagLoopEnd := of_tag rfl rfl rfl
theorem tagFilter : Statement .tagFilter := of_tag rfl rfl rfl
theorem tagBarCount : Statement .tagBarCount := of_tag rfl rfl rfl
theorem tagInterval : Statement .tagInterval := of_tag rfl rfl rfl
theorem tagInstrumentCount : Statement .tagInstrumentCount := of_tag rfl rfl rfl
theorem tagPatternCount : Statement .tagPatternCount := of_tag rfl rfl rfl
theorem tagKey : Statement .tagKey := of_tag rfl rfl rfl
theorem tagLoopStart : Statement .tagLoopStart := of_tag rfl rfl rfl
theorem tagReverb : Statement .tagReverb := of_tag rfl rfl rfl
theorem tagChannelCount : Statement .tagChannelCount := of_tag rfl rfl rfl
theorem tagChannelOctave : Statement .tagChannelOctave := of_tag rfl rfl rfl
theorem tagPatterns : Statement .tagPatterns := of_tag rfl rfl rfl
theorem tagEffects : Statement .tagEffects := of_tag rfl rfl rfl
theorem tagRhythm : Statement .tagRhythm := of_tag rfl rfl rfl
theorem tagScale : Statement .tagScale := of_tag rfl rfl rfl
theorem tagTempo : Statement .tagTempo := of_tag rfl rfl rfl
theorem tagPreset : Statement .tagPreset := of_tag rfl rfl rfl
theorem tagVolume : Statement .tagVolume := of_tag rfl rfl rfl
theorem tagWave : Statement .tagWave := of_tag rfl rfl rfl
theorem tagFilterResonance : Statement .tagFilterResonance := of_tag rfl rfl rfl
theorem tagFilterEnvelope : Statement .tagFilterEnvelope := of_tag rfl rfl rfl
theorem tagAlgorithm : Statement .tagAlgorithm := of_tag rfl rfl rfl
theorem tagFeedbackAmplitude : Statement .tagFeedbackAmplitude := of_tag rfl rfl rfl
theorem tagChord : Statement .tagChord := of_tag rfl rfl rfl
theorem tagDistortion : Statement .tagDistortion := of_tag rfl rfl rfl
theorem tagOperatorEnvelopes : Statement .tagOperatorEnvelopes := of_tag rfl rfl rfl
theorem tagFeedbackType : Statement .tagFeedbackType := of_tag rfl rfl rfl
theorem tagDistortionFilter : Statement .tagDistortionFilter := of_tag rfl rfl rfl
theorem tagHarmonics : Statement .tagHarmonics := of_tag rfl rfl rfl
theorem tagPan : Statement .tagPan := of_tag rfl rfl rfl
theorem tagOperatorAmplitudes : Statement .tagOperatorAmplitudes := of_tag rfl rfl rfl
theorem tagOperatorFrequencies : Statement .tagOperatorFrequencies := of_tag rfl rfl rfl
theorem tagBitcrusher : Statement .tagBitcrusher := of_tag rfl rfl rfl
theorem tagSpectrum : Statement .tagSpectrum := of_tag rfl rfl rfl
theorem tagStartInstrument : Statement .tagStartInstrument := of_tag rfl rfl rfl
theorem tagSustain : Statement .tagSustain := of_tag rfl rfl rfl
theorem tagFeedbackEnvelope : Statement .tagFeedbackEnvelope := of_tag rfl rfl rfl
theorem tagPulseWidth : Statement .tagPulseWidth := of_tag rfl rfl rfl

end Sys2Proof.Laws.Wire
end

