-- ==== Sys2Proof/Laws/Runs.lean ====
section
/-! SUPPORT. Small lemmas of the operations that `Safety.lean` and the run use: what a command leaves, what the chain
of effects keeps, what the clamp of a bend gives, what a wave builder and an edit leave. -/

namespace Sys2Proof.Machine

theorem State.after_next {s t : State} {i : Instr} (h : exec i s = .next t) : s.after i = t := by
  rw [State.after, h]

@[simp] theorem State.afterAll_nil (s : State) : s.afterAll [] = s := rfl

@[simp] theorem State.afterAll_cons (s : State) (i : Instr) (l : List Instr) :
    s.afterAll (i :: l) = (s.after i).afterAll l := rfl

@[simp] theorem State.loadedSlot_awake (s : State) (ins : Instrument) (n : Nat) (i : Slot) :
    (s.loadedSlot ins n i).awake = i.awake := rfl

@[simp] theorem State.loadedSlot_fxFilterCount (s : State) (ins : Instrument) (n : Nat) (i : Slot) :
    (s.loadedSlot ins n i).fxFilterCount = ins.distortionFilter.length := rfl

/-- The stages of `FX.RUN` are loaded by their own points, whatever list the loop walks. -/
theorem loadEffectStages_eq (x : Ctx) (invN : Num) (points : List FilterPoint) (stages : List Biquad) :
    loadEffectStages x invN points stages = stages.mapIdx (fun j f =>
      match points[j]? with
      | none => f
      | some p =>
        let k := pointCoefs x.cfg x.sampleRate p.kind (Num.ofNat p.freq) p.gain
        loadGradient f k k invN) := by
  induction points generalizing stages with
  | nil =>
    cases stages <;> simp [loadEffectStages, List.mapIdx_eq_zipIdx_map]
  | cons p ps ih =>
    cases stages with
    | nil => rfl
    | cons f fs => simp only [loadEffectStages, ih, List.mapIdx_cons, List.getElem?_cons_zero, List.getElem?_cons_succ]

/-- The chain of effects does not touch the clock. -/
theorem chainLoop_clock (x : Ctx) (ins : Instrument) (pos n j : Nat) (i : Slot) (e : Engine) :
    (chainLoop x ins pos n j i e).2.clock = e.clock := by
  induction n generalizing j i e with
  | zero => rfl
  | succ n ih => simp only [chainLoop, ih]; rfl

/-- A clamped bend is a legal one. -/
theorem clampInterval_legal (c : Cfg) {top base : Nat} (h : base ≤ top) (v : Int) :
    bendLegal c top base (clampInterval c.ranges.interval top base v) = true := by
  simp only [bendLegal, Bool.and_eq_true, decide_eq_true_eq]
  unfold clampInterval
  omega

/-- A legal bend is left as it is. -/
theorem clampInterval_of_legal {c : Cfg} {top base : Nat} {v : Int} (h : bendLegal c top base v = true) :
    clampInterval c.ranges.interval top base v = v := by
  simp only [bendLegal, Bool.and_eq_true, decide_eq_true_eq] at h
  simp only [clampInterval]
  omega

/-! What a wave builder and an edit of the song leave. -/

/-- A fold keeps what each of its steps keeps. -/
theorem foldl_keeps {α β γ : Type} (f : β → α → β) (g : β → γ) (h : ∀ b a, g (f b a) = g b) (l : List α) (b : β) :
    g (l.foldl f b) = g b := by
  induction l generalizing b with
  | nil => rfl
  | cons a t ih => rw [List.foldl_cons, ih, h]

/-- The parts of the engine that no edit of a song's channels touches. -/
def Engine.outsideSong (e : Engine) : Engine :=
  { e with tones := [], activeTones := [], releasedTones := [], slots := [], waves := [] }

theorem freeTones_outsideSong (p : Tone → Bool) (e : Engine) : (freeTones p e).outsideSong = e.outsideSong := by
  refine foldl_keeps _ Engine.outsideSong (fun b a => ?_) _ e
  split
  · split
    · rfl
    · split <;> rfl
  · rfl

theorem replaceSlot_outsideSong (c : Cfg) (islot : Nat) (e : Engine) :
    (replaceSlot c islot e).outsideSong = e.outsideSong := freeTones_outsideSong (fun t => t.instrument == islot) e

/-- A new list of channels settles tones, queues, slots and waves; every other part stays, the clock among them. -/
theorem settleChannels_outsideSong (c : Cfg) (song : Song) (e : Engine) :
    (settleChannels c song e).outsideSong = e.outsideSong :=
  foldl_keeps _ Engine.outsideSong (fun b _ =>
    (foldl_keeps _ Engine.outsideSong (fun b _ => replaceSlot_outsideSong c _ b) _ _).trans
      (freeTones_outsideSong _ b)) _ e

/-- A wave builder changes the wave caches and `WORK`, nothing else. -/
theorem buildWave_frame (x : Ctx) (k : WaveKey) (e : Engine) : buildWave x k e = { e with
    waves := (buildWave x k e).waves, work := (buildWave x k e).work, workEpoch := (buildWave x k e).workEpoch } := by
  cases k <;> simp only [buildWave] <;> (try split) <;> rfl

/-- A table wave leaves `WORK` open (R493). -/
theorem buildWave_table_work (x : Ctx) {k : WaveKey} (e : Engine)
    (h : k = .sine ∨ k = .impulse ∨ (∃ u, k = .chip u) ∨ ∃ u, k = .noise u) :
    (buildWave x k e).work = [] ∧ (buildWave x k e).workEpoch = x.epoch := by
  rcases h with rfl | rfl | ⟨_, rfl⟩ | ⟨_, rfl⟩ <;> exact ⟨rfl, rfl⟩

end Sys2Proof.Machine
end

