-- ==== Sys2Proof/Tests/Slice0.lean ====
section
/-! SUPPORT. Tests of one step or one function each: expected values from the spec's words, from `95_test_vectors.md`,
or by hand from a rule. And for every statement with hypotheses a state that meets them. -/

set_option Elab.async false

namespace Sys2Proof.Machine

/-! Well-formedness (R101, R103): an ill-formed term for each check. -/

theorem test_selectors_fit : Instr.selectorsFit (.rdm 255 255 255 0) = true ∧ Instr.selectorsFit (.setr 256 .zero) = false ∧
    Instr.selectorsFit (.waveSpectrum 0 256) = false ∧ Instr.selectorsFit (.bqStep 0 0 256 .zero) = false := by decide

theorem test_operands_fit : Instr.operandsFit (.run (2 ^ 64 - 1)) = true ∧ Instr.operandsFit (.run (2 ^ 64)) = false ∧
    Instr.operandsFit (.volcomp 0 0 (2 ^ 64)) = false ∧ Instr.operandsFit (.arpIndex 0 (2 ^ 64) 0) = false := by decide

/-! Decoding: a word of every opcode, written out from its row (R101, R107, R412). -/

def readsAs (l : List (List Word × Instr)) : Bool := l.all (fun p => decide (decodeCommand p.1 = .ok (p.2, [])))

def tagsAre (l : List (Byte × Instr)) : Bool := l.all (fun p => decide (decodeTag p.1 = some p.2))

theorem test_decode_system :
    readsAs [
      ([0x0100000000000000#64], .reset),
      ([0x0200000000000000#64], .play),
      ([0x0300000000000000#64], .pause),
      ([0x0400000000000000#64], .live),
      ([0x0500000001000000#64, 0x10#64], .run 16),
      ([0x06C1000001000000#64, 0x3FF0000000000000#64], .cfgw 193 0x3FF0000000000000#64),
      ([0x07C1000000000000#64], .cfgr 193),
      ([0x0800000000000000#64], .songLoad),
      ([0x0900000000000000#64], .songSet),
      ([0x0AC1000001000000#64, 0x3FF0000000000000#64], .setr 193 ⟨0x3FF0000000000000#64⟩),
      ([0x0BC1000000000000#64], .rdr 193),
      ([0x0C00000002000000#64, 0x10#64, 0x3FF0000000000000#64], .wrw 16 ⟨0x3FF0000000000000#64⟩),
      ([0x0D00000001000000#64, 0x10#64], .rdw 16),
      ([0x0EC1020301000000#64, 0x10#64], .rdm 193 2 3 16),
      ([0x0F00000000000000#64], .sanitize)] = true := by decide

theorem test_decode_waves :
    readsAs [
      ([0x2000000001000000#64, 0x10#64], .ifft 16),
      ([0x2100000000000000#64], .waveSine),
      ([0x22C1000000000000#64], .waveChip 193),
      ([0x23C1000000000000#64], .waveNoise 193),
      ([0x24C1020000000000#64], .waveSpectrum 193 2),
      ([0x25C1000000000000#64], .waveHarmonics 193),
      ([0x2600000000000000#64], .waveImpulse),
      ([0x2700000000000000#64], .waveInval)] = true := by decide

theorem test_decode_filters :
    readsAs [
      ([0x30C102030B000000#64, 0x3FF0000000000000#64, 0x4000000000000000#64, 0x3FE0000000000000#64,
        0xBFF0000000000000#64, 0x7FF8000000000001#64, 0x0000000000000000#64, 0x4008000000000000#64,
        0x3FD0000000000000#64, 0xC000000000000000#64, 0x4010000000000000#64,
        0x3FE8000000000000#64],
        .bqLoadgrad 193 2 3 ⟨⟨0x3FF0000000000000#64⟩, ⟨0x4000000000000000#64⟩, ⟨0x3FE0000000000000#64⟩,
        ⟨0xBFF0000000000000#64⟩, ⟨0x7FF8000000000001#64⟩⟩ ⟨⟨0x0000000000000000#64⟩,
        ⟨0x4008000000000000#64⟩, ⟨0x3FD0000000000000#64⟩, ⟨0xC000000000000000#64⟩,
        ⟨0x4010000000000000#64⟩⟩ ⟨0x3FE8000000000000#64⟩),
      ([0x31C1020301000000#64, 0x3FF0000000000000#64], .bqStep 193 2 3 ⟨0x3FF0000000000000#64⟩),
      ([0x3200000001000000#64, 0x3FF0000000000000#64], .coefLp1 ⟨0x3FF0000000000000#64⟩),
      ([0x3300000001000000#64, 0x3FF0000000000000#64], .coefHp1 ⟨0x3FF0000000000000#64⟩),
      ([0x3400000002000000#64, 0x3FF0000000000000#64,
        0x4000000000000000#64],
        .coefLp2 ⟨0x3FF0000000000000#64⟩ ⟨0x4000000000000000#64⟩),
      ([0x3500000002000000#64, 0x3FF0000000000000#64,
        0x4000000000000000#64],
        .coefHp2 ⟨0x3FF0000000000000#64⟩ ⟨0x4000000000000000#64⟩),
      ([0x3600000002000000#64, 0x3FF0000000000000#64,
        0x4000000000000000#64],
        .coefPeak ⟨0x3FF0000000000000#64⟩ ⟨0x4000000000000000#64⟩),
      ([0x3700000002000000#64, 0x3FF0000000000000#64,
        0x4000000000000000#64],
        .coefHshelf1 ⟨0x3FF0000000000000#64⟩ ⟨0x4000000000000000#64⟩),
      ([0x3800000001000000#64, 0x3FF0000000000000#64], .coefAp1 ⟨0x3FF0000000000000#64⟩),
      ([0x3900000001000000#64, 0x3FF0000000000000#64], .coefFdap ⟨0x3FF0000000000000#64⟩),
      ([0x3A00000001000000#64, 0x10#64], .fptHz 16),
      ([0x3B00000001000000#64, 0x10#64], .fptGain 16),
      ([0x3C00000003000000#64, 0x10#64, 0x11#64, 0x12#64], .volcomp 16 17 18)] = true := by decide

theorem test_decode_envelopes :
    readsAs [
      ([0x4000000004000000#64, 0x3FF0000000000000#64, 0x4000000000000000#64, 0x3FE0000000000000#64,
        0xBFF0000000000000#64],
        .envSteady ⟨0x3FF0000000000000#64⟩ ⟨0x4000000000000000#64⟩ ⟨0x3FE0000000000000#64⟩ ⟨0xBFF0000000000000#64⟩),
      ([0x4100000004000000#64, 0x3FF0000000000000#64, 0x4000000000000000#64, 0x3FE0000000000000#64,
        0xBFF0000000000000#64],
        .envCustom ⟨0x3FF0000000000000#64⟩ ⟨0x4000000000000000#64⟩ ⟨0x3FE0000000000000#64⟩ ⟨0xBFF0000000000000#64⟩),
      ([0x4200000004000000#64, 0x3FF0000000000000#64, 0x4000000000000000#64, 0x3FE0000000000000#64,
        0xBFF0000000000000#64],
        .envTwang ⟨0x3FF0000000000000#64⟩ ⟨0x4000000000000000#64⟩ ⟨0x3FE0000000000000#64⟩ ⟨0xBFF0000000000000#64⟩),
      ([0x4300000004000000#64, 0x3FF0000000000000#64, 0x4000000000000000#64, 0x3FE0000000000000#64,
        0xBFF0000000000000#64],
        .envSwell ⟨0x3FF0000000000000#64⟩ ⟨0x4000000000000000#64⟩ ⟨0x3FE0000000000000#64⟩ ⟨0xBFF0000000000000#64⟩),
      ([0x4400000004000000#64, 0x3FF0000000000000#64, 0x4000000000000000#64, 0x3FE0000000000000#64,
        0xBFF0000000000000#64],
        .envTremolo ⟨0x3FF0000000000000#64⟩ ⟨0x4000000000000000#64⟩ ⟨0x3FE0000000000000#64⟩ ⟨0xBFF0000000000000#64⟩),
      ([0x4500000004000000#64, 0x3FF0000000000000#64, 0x4000000000000000#64, 0x3FE0000000000000#64,
        0xBFF0000000000000#64],
        .envTremolo2 ⟨0x3FF0000000000000#64⟩ ⟨0x4000000000000000#64⟩ ⟨0x3FE0000000000000#64⟩ ⟨0xBFF0000000000000#64⟩),
      ([0x4600000004000000#64, 0x3FF0000000000000#64, 0x4000000000000000#64, 0x3FE0000000000000#64,
        0xBFF0000000000000#64],
        .envPunch ⟨0x3FF0000000000000#64⟩ ⟨0x4000000000000000#64⟩ ⟨0x3FE0000000000000#64⟩ ⟨0xBFF0000000000000#64⟩),
      ([0x4700000004000000#64, 0x3FF0000000000000#64, 0x4000000000000000#64, 0x3FE0000000000000#64,
        0xBFF0000000000000#64],
        .envFlare ⟨0x3FF0000000000000#64⟩ ⟨0x4000000000000000#64⟩ ⟨0x3FE0000000000000#64⟩ ⟨0xBFF0000000000000#64⟩),
      ([0x4800000004000000#64, 0x3FF0000000000000#64, 0x4000000000000000#64, 0x3FE0000000000000#64,
        0xBFF0000000000000#64],
        .envDecay ⟨0x3FF0000000000000#64⟩ ⟨0x4000000000000000#64⟩ ⟨0x3FE0000000000000#64⟩ ⟨0xBFF0000000000000#64⟩),
      ([0x49C1000001000000#64, 0x3FF0000000000000#64], .lfo 193 ⟨0x3FF0000000000000#64⟩),
      ([0x4A00000001000000#64, 0x3FF0000000000000#64], .expr ⟨0x3FF0000000000000#64⟩),
      ([0x4B00000002000000#64, 0x3FF0000000000000#64,
        0x4000000000000000#64],
        .relscale ⟨0x3FF0000000000000#64⟩ ⟨0x4000000000000000#64⟩),
      ([0x4C00000002000000#64, 0x3FF0000000000000#64,
        0x4000000000000000#64],
        .vibRamp ⟨0x3FF0000000000000#64⟩ ⟨0x4000000000000000#64⟩),
      ([0x4D00000001000000#64, 0x3FF0000000000000#64], .pitchHz ⟨0x3FF0000000000000#64⟩)] = true := by decide

theorem test_decode_tones :
    readsAs [
      ([0x50C1000000000000#64], .toneNew 193),
      ([0x51C1000001000000#64, 0x10#64], .toneCompute 193 16),
      ([0x52C1000000000000#64], .toneRelease 193),
      ([0x53C1000000000000#64], .toneFree 193),
      ([0x5400000003000000#64, 0x10#64, 0x11#64, 0x12#64], .arpIndex 16 17 18)] = true := by decide

theorem test_decode_synths :
    readsAs [
      ([0x60C1000001000000#64, 0x10#64], .synChip 193 16),
      ([0x61C1000001000000#64, 0x10#64], .synFm 193 16),
      ([0x62C1000001000000#64, 0x10#64], .synNoise 193 16),
      ([0x63C1000001000000#64, 0x10#64], .synSpectrum 193 16),
      ([0x64C1000001000000#64, 0x10#64], .synDrumset 193 16),
      ([0x65C1000001000000#64, 0x10#64], .synHarmonics 193 16),
      ([0x66C1000001000000#64, 0x10#64], .synPwm 193 16),
      ([0x67C1000001000000#64, 0x10#64], .synGuitar 193 16),
      ([0x68C1020000000000#64], .gtrPluck 193 2)] = true := by decide

theorem test_decode_effects :
    readsAs [
      ([0x70C1000001000000#64, 0x3FF0000000000000#64], .fxDistort 193 ⟨0x3FF0000000000000#64⟩),
      ([0x71C1000001000000#64, 0x3FF0000000000000#64], .fxBitcrush 193 ⟨0x3FF0000000000000#64⟩),
      ([0x72C1000001000000#64, 0x3FF0000000000000#64], .fxFilter 193 ⟨0x3FF0000000000000#64⟩),
      ([0x73C1000001000000#64, 0x3FF0000000000000#64], .fxPan 193 ⟨0x3FF0000000000000#64⟩),
      ([0x74C1000002000000#64, 0x3FF0000000000000#64,
        0x4000000000000000#64],
        .fxChorus 193 ⟨0x3FF0000000000000#64⟩ ⟨0x4000000000000000#64⟩),
      ([0x75C1000002000000#64, 0x3FF0000000000000#64,
        0x4000000000000000#64],
        .fxReverb 193 ⟨0x3FF0000000000000#64⟩ ⟨0x4000000000000000#64⟩),
      ([0x76C1000002000000#64, 0x10#64, 0x11#64], .fxRun 193 16 17),
      ([0x77C1000000000000#64], .fxTail 193)] = true := by decide

theorem test_decode_master :
    readsAs [
      ([0x8000000002000000#64, 0x3FF0000000000000#64,
        0x4000000000000000#64],
        .limit ⟨0x3FF0000000000000#64⟩ ⟨0x4000000000000000#64⟩),
      ([0x8100000001000000#64, 0x10#64], .clkAdv 16),
      ([0x8200000000000000#64], .tickEnd),
      ([0x8300000000000000#64], .partEnd),
      ([0x8400000000000000#64], .barNext),
      ([0x85C1000000000000#64], .syncTones 193)] = true := by decide

theorem test_decode_tags :
    tagsAre [
      (0x61#8, .tagBeatsPerBar), (0x62#8, .tagBars), (0x63#8, .tagVibrato),
      (0x64#8, .tagTransition), (0x65#8, .tagLoopEnd), (0x66#8, .tagFilter),
      (0x67#8, .tagBarCount), (0x68#8, .tagInterval), (0x69#8, .tagInstrumentCount),
      (0x6A#8, .tagPatternCount), (0x6B#8, .tagKey), (0x6C#8, .tagLoopStart),
      (0x6D#8, .tagReverb), (0x6E#8, .tagChannelCount), (0x6F#8, .tagChannelOctave),
      (0x70#8, .tagPatterns), (0x71#8, .tagEffects), (0x72#8, .tagRhythm),
      (0x73#8, .tagScale), (0x74#8, .tagTempo), (0x75#8, .tagPreset),
      (0x76#8, .tagVolume), (0x77#8, .tagWave), (0x79#8, .tagFilterResonance),
      (0x7A#8, .tagFilterEnvelope), (0x41#8, .tagAlgorithm), (0x42#8, .tagFeedbackAmplitude),
      (0x43#8, .tagChord), (0x44#8, .tagDistortion), (0x45#8, .tagOperatorEnvelopes),
      (0x46#8, .tagFeedbackType), (0x47#8, .tagDistortionFilter), (0x48#8, .tagHarmonics),
      (0x4C#8, .tagPan), (0x50#8, .tagOperatorAmplitudes), (0x51#8, .tagOperatorFrequencies),
      (0x52#8, .tagBitcrusher), (0x53#8, .tagSpectrum), (0x54#8, .tagStartInstrument),
      (0x55#8, .tagSustain), (0x56#8, .tagFeedbackEnvelope), (0x57#8, .tagPulseWidth)] = true := by decide

/-- The illegal headers of the vectors, B.1. -/
theorem test_decode_illegal : ([0x0000000000000000#64, 0x1F00000000000000#64, 0x0100000001000000#64, 0x2000000000000000#64,
    0x0201000000000000#64, 0x0200000000000001#64, 0x4200000003000000#64] : List Word).all
      (fun h => match decodeCommand [h, 0#64, 0#64, 0#64] with
        | .ok _ => false
        | .error e => e != .noWord && e != .incomplete) = true := by decide

theorem test_decode_table_word : decodeTableWord 128 (0x3FF0000000000000 * 2 ^ 64 + 0x3101000001000000) =
    some (.bqStep 1 0 0 .one) ∧ decodeTableWord 8 0x54 = some .tagStartInstrument ∧ decodeTableWord 8 0x78 = none := by
  decide

/-! Helpers. -/

/-- A number written as its pattern. -/
def pat (w : BitVec 64) : Num := ⟨w⟩

/-- The state after an outcome. -/
def after (o : Host.Outcome State Fault Refusal) : Option State :=
  match o with
  | .next s => some s
  | .fault _ => none
  | .refused _ => none

/-- Result register `i` after an outcome. -/
def gives (o : Host.Outcome State Fault Refusal) (i : Nat) : Option Num := (after o).bind (fun s => s.result i)

/-- A song of one pitch channel with one instrument and one empty pattern. -/
def smallSong (ins : Instrument) : Song :=
  { emptySong with
    patternsPerChannel := 1
    instrumentsPerChannel := 1
    pitchChannelCount := 1
    channels := [⟨0, false, [ins], [⟨0, []⟩], [0]⟩] }

/-- An instrument of a kind. -/
def plain (kind : Nat) : Instrument := { blankInstrument with kind := kind }

/-- A state with one tone slot and one instrument slot. -/
def bench (c : Cfg) (ins : Instrument) (t : Tone) (i : Slot) : State :=
  { resetWith c with
    song := smallSong ins
    eng := { (resetWith c).eng with
      tones := [t], activeTones := [[0]], releasedTones := [[]], slots := [i], limit := .zero } }

/-- A small configuration for the vectors: the values that they name. -/
def smallCfg : Cfg :=
  { (default : Cfg) with
    workSizeExp := 2, runMaxLess1 := 511, outMaxLess1 := 511, ticksPerPartLess1 := 1, partsPerBeatLess1 := 23
    maxChordSizeLess1 := 3, sineWaveExp := 2, spectrumWaveExp := 1
    numerics := { (default : Numerics) with
      sin := fun x => (([.zero, .one, .zero, pat 0xBFF0000000000000#64, .zero] : List Num).getD
        ((x.div (pat 0x3FF921FB54442D18#64)).floorInt.toNat) .zero) }
    intervals := ⟨⟨.zero, .zero, .one⟩, []⟩
    algorithms := ⟨⟨#v[[], [], [], []], #v[true, false, false, false]⟩, []⟩
    chipWaves := ⟨[.one, .one, pat 0xBFF0000000000000#64, pat 0xBFF0000000000000#64], []⟩
    noiseWaveGen := fun _ => [.one, pat 0xBFF0000000000000#64]
    bitcrusherPhaseDelta := fun _ _ => .one
    bitcrusherStepSize := fun _ => pat 0x3FD0000000000000#64
    reverbMult := fun _ => pat 0x3FD0000000000000#64
    reverbLowpass := .half
    reverbTapOffsets := (3, 5, 7) }

/-- An active tone as the vectors of B.6 start it. -/
def ready : Tone :=
  { Tone.zero smallCfg with state := .active, phaseDeltaScale := .one, expressionStarts := #v[.one, .zero, .zero, .zero] }

/-- `SCRATCH[0 .. n − 1]` after an operation of the engine. -/
def scratchOf (n : Nat) (r : Except Raise Engine) : Option (List Num) :=
  match r with
  | .ok e => some ((List.range n).map (Memory.getNum e.scratch))
  | .error _ => none

/-- A synth loop on the one tone of a bench. -/
def loopOn (kind n : Nat) (t : Tone) : Option (List Num) :=
  let s := bench smallCfg (plain kind) t (Slot.zero smallCfg)
  scratchOf n (synthDirect (s.ctx smallCfg .play) kind 0 n s.eng)

/-! Arithmetic and filters: B.2, B.3. -/

theorem test_ifft : (after (ifftWith ((resetWith smallCfg).ctx smallCfg (.ifft 4))
    { resetWith smallCfg with eng := { (resetWith smallCfg).eng with
      work := [(0, .one), (1, .two), (2, Num.ofNat 3), (3, Num.ofNat 4)] } } 4 |> Host.Outcome.next)).map
      (fun s => [0, 1, 3].map (fun k => s.eng.readWork k)) =
    some [Num.ofNat 8, Num.ofNat 6, Num.ofInt (-10)] := by decide +kernel

theorem test_chip_table : integrate (smallCfg.chipSamples 0) = [.zero, .one, .two, .one, .zero] := by decide +kernel

/-- The second row of B.3's gradient table at its second sample. -/
theorem test_bq_step : gives (exec (.bqStep 1 0 0 .one) (bench Config.cfg (plain 0) ready
    { Slot.zero Config.cfg with fxFilters := [{ Biquad.zero with
      b0 := .one, a1 := pat 0xBFC0000000000000#64, a1Delta := pat 0xBFC0000000000000#64, in1 := .one, out1 := .one }] })) 0 =
    some (pat 0x3FF2000000000000#64) := by decide +kernel

theorem test_fdap : fdapOf .half = ⟨pat 0x3FD5555555555555#64, .zero, pat 0x3FD5555555555555#64, .one, .zero⟩ := by
  decide +kernel

theorem test_fdap_limit : (fdapOf (pat 0xBFF0000000000000#64)).a1 = Num.infOf false := by decide +kernel

/-- The functions of R7 next to the real values sin 1, 2 ^ 0.5 and ln 2: a value more than one unit in the last place off
is replaced, one that is one unit off stands. -/
theorem test_numerics : sinKept .one .zero = pat 0x3FEAED548F090CEE#64 ∧
    sinKept .one (pat 0x3FEAED548F090CEF#64) = pat 0x3FEAED548F090CEF#64 ∧
    powKept .two .half .zero = pat 0x3FF6A09E667F3BCD#64 ∧ logKept .two .one = pat 0x3FE62E42FEFA39EF#64 := by
  decide +kernel

/-- Not an infinity at `(2^53 − 1)² × 2^918`, one at `2^1024` (R7). -/
theorem test_overflow : nearReal (Num.infOf false) ((2 ^ 53 - 1) ^ 2 * 2 ^ 1200) (-282) = false ∧
    nearReal (Num.infOf false) (2 ^ 1300) (-276) = true := by decide +kernel

/-- The plain peak where the cosine is 1 keeps unit gain at zero frequency and at Nyquist (R160). -/
theorem test_plain_peak : (plainPeak smallCfg .zero .two).stable = true ∧
    (plainPeak smallCfg .zero .two).gainAtZero .one = true ∧ (plainPeak smallCfg .zero .two).gainAtNyquist .one = true := by
  decide +kernel

/-- The arc tangent of `1/4`, in units of `2^−64` (R261's argument). -/
theorem test_arc_tan : realArcTan 0 (2 ^ 1298) / 2 ^ 1236 = 4519058702220769989 := by decide +kernel

/-! Envelopes and helpers: B.4. -/

theorem test_twang : gives (exec (.envTwang (pat 0x3FF8000000000000#64) .zero .two .zero) State.reset) 0 =
    some (pat 0x3FD0000000000000#64) := by decide +kernel

theorem test_swell_at_infinity : gives (exec (.envSwell (Num.infOf false) .zero .two .zero) State.reset) 0 = some .one := by
  decide +kernel

theorem test_tremolo2 : gives (exec (.envTremolo2 .zero .zero (Num.ofNat 3) .zero) State.reset) 0 = some .half := by
  decide +kernel

theorem test_punch : gives (exec (.envPunch (Num.ofRat 5 100) .zero .zero .zero) State.reset) 0 =
    some (pat 0x3FF8000000000000#64) := by decide +kernel

theorem test_flare : gives (exec (.envFlare (pat 0x3FB0000000000000#64) .zero (Num.ofNat 4) .zero) State.reset) 0 =
    some .half := by decide +kernel

theorem test_flare_second_branch : gives (exec (.envFlare (pat 0x3FD8000000000000#64) .zero (Num.ofNat 4) .zero)
    State.reset) 0 = some .half := by decide +kernel

theorem test_vib_ramp : gives (exec (.vibRamp (Num.ofNat 11) (Num.ofNat 10)) State.reset) 0 = some .half := by
  decide +kernel

theorem test_relscale : gives (exec (.relscale .one .zero) State.reset) 0 = some .zero := by
  decide +kernel

theorem test_pitch_hz : gives (exec (.pitchHz (Num.ofNat 69)) State.reset) 0 = some (pat 0x407B800000000000#64) := by
  decide +kernel

/-! Synth loops: B.6. -/

theorem test_chip_loop : loopOn kindChip 8 { ready with phaseDeltas := #v[.half, .half, .zero, .zero], intervalExpressionMult := .one } =
    some ([2, 2, 2, 2, -2, -2, -2, -2].map Num.ofInt) := by decide +kernel

theorem test_noise_loop : loopOn kindNoise 4 { ready with phaseDeltas := #v[.half, .zero, .zero, .zero] } =
    some [.half, pat 0x3FE8000000000000#64, pat 0xBFC0000000000000#64, pat 0xBFE2000000000000#64] := by decide +kernel

/-- The third value is the sine of the binary64 next to π, which is not 0. -/
theorem test_fm_loop : loopOn kindFm 4 { ready with phaseDeltas := #v[.one, .zero, .zero, .zero] } =
    some [.zero, .one, pat 0x3CA1A62633145C07#64, pat 0xBFF0000000000000#64] := by decide +kernel

theorem test_pwm_loop : loopOn kindPwm 1 { ready with
    phases := #v[quarter, .zero, .zero, .zero], phaseDeltas := #v[pat 0x3FC0000000000000#64, .zero, .zero, .zero]
    pulseWidth := .half } = some [.half] := by decide +kernel

theorem test_pwm_loop_midpoint : loopOn kindPwm 1 { ready with
    phaseDeltas := #v[pat 0x3FC0000000000000#64, .zero, .zero, .zero], pulseWidth := .half } = some [.zero] := by
  decide +kernel

theorem test_string_holds : (let f := { Biquad.zero with b0 := .one }
    let w : StringState := { StringState.zero with ring := [(7, .one)], delayLength := .one, dispersion := f, shelf := f }
    (stringStep 8 (stringStep 8 w).2).1) = .one := by decide +kernel

theorem test_start_phase : startPhase [.one, pat 0xBFF0000000000000#64, pat 0xBFF0000000000000#64, .one, .one] 4 .half =
    pat 0x4004000000000000#64 := by decide +kernel

/-! Effects: B.7. -/

theorem test_bitcrush : (bitcrush ((resetWith smallCfg).ctx smallCfg .play) (plain 0) (Slot.zero smallCfg)
    (Num.ofRat (-3) 10)).1 = pat 0xBFD8000000000000#64 := by decide +kernel

theorem test_reverb : (let y := reverb ((resetWith smallCfg).ctx smallCfg .play) (plain 0) (Slot.zero smallCfg) .one .one
    (y.1, y.2.1, y.2.2.reverbLP, y.2.2.reverbRing, y.2.2.reverbPos)) =
    (.one, .one, #v[pat 0xBFC0000000000000#64, pat 0xBFC0000000000000#64, pat 0xBFC0000000000000#64,
      pat 0xBFC0000000000000#64],
      [(0, pat 0xBFC0000000000000#64), (3, pat 0xBFC0000000000000#64), (5, pat 0xBFC0000000000000#64),
        (7, pat 0xBFC0000000000000#64)], 1) := by decide +kernel

/-! Limiter, clock, sanitization: B.8. -/

theorem test_limit : (let s := { State.reset with sampleRate := Num.ofNat 4096 }
    (gives (exec (.limit .one (pat 0xBFE0000000000000#64)) s) 0, gives (exec (.limit .one (pat 0xBFE0000000000000#64)) s) 1)) =
    (some (pat 0x3FEF07C1F07C1F08#64), some (pat 0xBFDF07C1F07C1F08#64)) := by decide +kernel

theorem test_limit_above_one : (let m := nextLimit (Num.ofNat 4096) (pat 0x3FEFEB835FD78000#64) .two .two
    (m, limiterOutput .one m .two)) = (pat 0x3FFF9FC28A1F8680#64, pat 0x3FEED6A6CDAA033B#64) := by decide +kernel

theorem test_round32 : (pat 0x3FEF07C1F07C1F08#64).round32 = 0x3F783E10#32 := by decide +kernel

/-- `CLK.ADV : 260` of B.8: the tick ends inside it. -/
theorem test_clk_adv : (let s := bench smallCfg (plain 0) (Tone.zero smallCfg) (Slot.zero smallCfg)
    let song := { s.song with tempo := 120, beatsPerBar := 8 }
    let k : Clock := ⟨0, 0, 0, 0, pat 0x4070360000000000#64, true, pat 0x407CB60000000000#64, 0⟩
    let t := clkAdvWith ({ s with song := song }.ctx smallCfg .play)
      { s with song := song, eng := { s.eng with clock := k } } 260
    (t.fault, t.eng.clock.part, t.eng.clock.tick, t.eng.clock.tickSampleCountdown)) =
    (false, 0, 1, pat 0x407CAC0000000000#64) := by decide +kernel

theorem test_carry_chain : (let song := { emptySong with beatsPerBar := 8, barCount := 4, loopStart := 1, loopLength := 2 }
    let k (bar : Nat) : Clock := ⟨bar, 7, 23, 0, .zero, true, .one, 0⟩
    [0, 2, 3].map (fun b => (advancePart smallCfg song (k b)).bar)) = [1, 1, 1] := by decide +kernel

theorem test_sanitize : ([[.one, pat 0x39B4484BFEEBC2A0#64, Num.ofNat 250, Num.ofNat 3],
    [.half, pat 0x39B4484BFEEBC2A0#64, .half, .half], [Num.infOf false, .zero, .zero, .zero],
    [Num.ofNat 100, Num.ofInt (-100), .zero, sanitizeMin]] : List (List Num)).map sanitizeUnit =
    [[.zero, .zero, .zero, .zero], [.half, .zero, .half, .half], [.zero, .zero, .zero, .zero],
      [Num.ofNat 100, Num.ofInt (-100), .zero, sanitizeMin]] := by decide +kernel

/-! System and faults: B.9, B.10. -/

theorem test_status_after_play : (after (exec .play State.reset)).map (fun s => controlRead s 4) = some 0xA#64 := by
  decide +kernel

theorem test_illegal_step : (after (step { State.reset with port := [0x0B10000001000000#64, 7#64] })).map
    (fun s => (s.faultCode, s.faultInfo, s.port)) = some (1#8, 0x0B100000#32, []) := by decide +kernel

theorem test_setr_bad_index : (after (exec (.setr 16 .zero) State.reset)).map (fun s => (s.faultCode, s.faultInfo)) =
    some (2#8, 0x0A100000#32) := by decide +kernel

theorem test_volume_refused : (after (exec (.cfgw 1 0xBFF0000000000000#64) State.reset)).map
    (fun s => (s.faultCode, s.faultInfo, s.volume)) = some (3#8, 0x06010000#32, .one) := by decide +kernel

theorem test_placed_command_runs : (after (step (State.reset.withFetchWord 64 0x0200000000000000))).map
    (fun s => (s.playing, s.port)) = some (true, []) := by decide +kernel

/-! Bit codec: B.11. -/

theorem test_alphabet : [0x2E#8, 0x2D#8, 0x5F#8, 0x41#8, 0x5A#8, 0x7A#8].map symbolValue =
    [some 62, some 62, some 63, some 36, some 61, some 35] := by decide +kernel

theorem test_packing : encodeBase64 (writeBits 12 0xABC) = [0x47#8, 0x59#8] ∧
    encodeBase64 (writeBits 3 5 ++ writeBits 2 7) = [0x4B#8] ∧ encodeBase64 [] = [] := by decide +kernel

theorem test_long_tail : writeLongTail 1 0 100 =
      some [true, true, true, true, true, true, false, true, false, false, true, false, false] ∧
    writeLongTail 1 3 9 = some [true, false, false, false, false, false] ∧
    writeLongTail 1 3 88 = some [true, true, true, false, false, true, true, true, true, true] ∧
    writeLongTail 1 0 0 = none := by decide +kernel

/-! Song codec: B.12. -/

/-- A codec in its records phase with a song of one pitch channel. -/
def reading (text : List Byte) : Codec := { Codec.fresh (smallSong (plain 0)) with text := text, status := .records }

theorem test_frame_error : (readFrame smallCfg { Codec.fresh emptySong with text := [0x31#8] }).status = .failed none 0 := by
  decide +kernel

theorem test_unknown_tag : (after (step { State.reset with
    turn := .codec, codec := { reading [0x39#8, 0x78#8, 0x30#8] with pos := 1 } })).map (fun s => s.codec.status) =
    some (.failed (some 0x78#8) 1) := by decide +kernel

theorem test_bars_tag : (let k := reading [0x62#8, 0x49#8]
    (barsTag smallCfg { k with song := { k.song with barCount := 4 } }).song.channels.map Channel.bars) =
    [[1, 0, 1, 1]] := by decide +kernel

/-- The second row of the `p` vectors. -/
theorem test_patterns_tag : (let k := reading [0x70#8, 0x31#8, 0x35#8, 0x46#8, 0x44#8, 0x55#8, 0x65#8, 0x76#8]
    let c := { smallCfg with
      ranges := { (default : FieldRanges) with pitchChannelPitch := 40 }
      codec := { (default : CodecCfg) with
        initialLastPitch := fun _ _ => 12, initialRecentPitches := fun _ _ => [12, 1, 2, 3, 4, 5, 6, 7] } }
    (patternsTag c { k with song := { k.song with beatsPerBar := 4 } }).song.channels.map Channel.patterns) =
    [[⟨0, [⟨0, 8, [12], [⟨0, 0, 3⟩, ⟨8, 0, 3⟩]⟩]⟩]] := by decide +kernel

/-! Witnesses: for each statement with hypotheses, states and operands that meet them, at the ends of the ranges. The
configuration is uninterpreted, so a bound is met through what its accessors guarantee. -/

theorem one_le_runMax (c : Cfg) (e : Engine) : 1 ≤ e.runMax c :=
  Nat.le_trans (Nat.le_add_left 1 c.runMaxLess1) (Nat.le_max_left _ _)
theorem one_le_maxChord (c : Cfg) : 1 ≤ c.maxChordSize := by
  unfold Cfg.maxChordSize recentPitches
  omega

theorem maxChord_le (c : Cfg) : c.maxChordSize ≤ 8 := by
  unfold Cfg.maxChordSize recentPitches
  omega

theorem first_string (c : Cfg) : (Tone.zero c).strings[0]? = some .zero := by
  have := one_le_maxChord c
  simp only [Tone.zero, List.getElem?_replicate]
  rw [if_pos (by omega)]

theorem no_ninth_string (c : Cfg) : (Tone.zero c).strings[8]? = none := by
  have := maxChord_le c
  exact List.getElem?_eq_none (by simpa [Tone.zero] using this)

theorem one_le_outMax (c : Cfg) : 1 ≤ c.outMax := Nat.le_add_left 1 _

theorem powerOfTwoFrom_pos (n : Nat) : 0 < powerOfTwoFrom n := by
  unfold powerOfTwoFrom
  split
  · exact Nat.one_pos
  · exact Nat.two_pow_pos _

theorem two_le_workSize (c : Cfg) : 2 ≤ c.workSize := by
  have h : 2 ^ 1 ≤ 2 ^ (c.workSizeExp + 1) := Nat.pow_le_pow_right (by decide) (by omega)
  exact Nat.le_trans h (Nat.le_max_left _ _)

/-- A table has no entry at its length. -/
theorem table_get_length {α : Type} (t : Table α) : t.get? t.length = none := by
  show t.tail[t.tail.length]? = none
  simp

/-- The empty song is legal under every configuration. -/
theorem emptySong_legal (c : Cfg) : songLegal c emptySong = true := by
  simp [songLegal, globalsLegal, emptySong, Cfg.scaleCount, Cfg.keyCount, Cfg.rhythmCount, Cfg.tempoMax,
    Cfg.beatsPerBarMax, Cfg.barCountMax]

/-- A song of one channel without instruments and patterns. -/
def barSong : Song := { emptySong with pitchChannelCount := 1, channels := [⟨0, false, [], [], [0]⟩] }

/-- A block with one tone of a kind in use and one instrument slot. -/
def stage (kind : Nat) : State :=
  bench Config.cfg (plain kind) { Tone.zero Config.cfg with state := .active, pitches := [0] } (Slot.zero Config.cfg)

/-- A block without tones and slots, on the empty song, its clock at the start. -/
def still : State :=
  { State.reset with
    song := emptySong
    eng := { State.reset.eng with
      tones := [], activeTones := [], releasedTones := [], slots := [], limit := .zero
      clock := ⟨0, 0, 0, 0, .two, true, .two, 0⟩ } }

def faulted : State := still.withFault 1#8 0#32

/-! Encoding and stepping. -/

theorem test_meets_DecodeOfEncode : Instr.WellFormed (.rdm 255 255 255 (2 ^ 64 - 1)) ∧
    Instr.tagCode (.rdm 255 255 255 0) = none ∧ Instr.WellFormed .tagWave ∧ Instr.tagCode .tagWave = some 0x77 := by decide

theorem test_meets_EncodeOfDecode : decodeCommand [0x0200000000000000#64, 5#64] = .ok (.play, [5#64]) ∧
    decodeTag 0x62#8 = some .tagBars := by decide

theorem test_meets_StepRunsCommand : (let s := { still with port := [0x0500000001000000#64, 0#64] }
    s.resetPin = false ∧ s.turn = .engine ∧ s.busy = false ∧ decodeCommand s.port = .ok (.run 0, []) ∧
      awaitsPayload (.run 0) s = false) := by decide +kernel

theorem test_meets_StepReadsTag : (let s := { still with turn := .codec, codec := reading [0x61#8, 0x78#8] }
    s.resetPin = false ∧ s.turn = .codec ∧ s.codec.status = .records ∧ s.codec.text[s.codec.pos]? = some 0x61#8 ∧
      decodeTag 0x61#8 = some .tagBeatsPerBar ∧ decodeTag 0x78#8 = none) := by decide +kernel

/-- The five ways a header is illegal; each state meets the common hypotheses too. -/
theorem test_meets_IllegalCommandIsTaken : still.resetPin = false ∧ still.turn = .engine ∧ still.busy = false ∧
    still.fault = false ∧ opcodeShape (headerOp 0x1F00000000000000#64) = none ∧ headerCount 0x1F00000000000000#64 = 0 ∧
    opcodeShape (headerOp 0x0200000000000000#64) = some (0, 0) ∧ headerCount 0x0200000001000000#64 = 1 ∧
    (0x0200000000000001#64 : Word).toNat % 2 ^ 24 ≠ 0 ∧ headerU 0x0201000000000000#64 ≠ 0 ∧
    headerV 0x0200010000000000#64 ≠ 0 ∧ headerW 0x0200000100000000#64 ≠ 0 := by decide +kernel

theorem test_meets_PartialDescriptorWaits : still.resetPin = false ∧ still.turn = .engine ∧ still.busy = false ∧
    still.port = [] ∧ ([] : List Word).length < headerCount 0x0500000001000000#64 ∧ still.fault = false ∧
    still.payload = [] ∧ decodeCommand [0x0800000000000000#64] = .ok (.songLoad, []) ∧
    decodeCommand [0x0900000000000000#64] = .ok (.songSet, []) ∧ { still with busy := true }.busy = true := by
  decide +kernel

theorem test_meets_FaultIgnoresCommands : faulted.fault = true ∧ Instr.opcode .play = some 0x02 ∧
    0x02 ∉ [0x01, 0x07, 0x0B, 0x0D, 0x0E] ∧ 0 < Config.cfg.workSize :=
  ⟨rfl, rfl, by decide, Nat.lt_of_lt_of_le (by decide) (two_le_workSize _)⟩

theorem test_meets_FaultKeepsFirst : faulted.fault = true ∧ exec .play faulted = .next faulted ∧
    faulted.resetPin = false ∧ faulted.turn = .engine ∧ faulted.busy = false ∧ step faulted = .next faulted ∧
    opcodeShape (headerOp 0x1F00000000000000#64) = none ∧ headerCount 0x1F00000000000000#64 ≤ ([] : List Word).length ∧
    (∀ rest, decodeCommand faulted.port ≠ .ok (.reset, rest)) :=
  ⟨rfl, rfl, rfl, rfl, rfl, rfl, by decide, by decide, fun _ h => nomatch h⟩

/-- A reset line that is asserted, over an empty port, a descriptor cut short, and a whole one. -/
theorem test_meets_ResetLeaves : (let s := { still with resetPin := true }
    s.resetPin = true ∧ s.port = []) ∧ ([] : List Word).length < headerCount 0x0500000001000000#64 ∧
    decodeCommand [0x0200000000000000#64] = .ok (.play, []) := by decide +kernel

/-! Invariants. -/

theorem test_meets_ControlInvariantKept : still.ControlInv ∧ step still = .next still :=
  ⟨{ latch := ⟨fun _ => ⟨rfl, rfl⟩, fun h => absurd h (by decide)⟩
     controls := by
      refine ⟨⟨?_, ?_⟩, ⟨?_, ?_⟩, ⟨?_, ?_⟩⟩ <;> decide +kernel
     quiet := ⟨rfl, rfl⟩
     song := emptySong_legal _ }, rfl⟩

theorem test_meets_ClockInvariantKept : still.ClockInv ∧ step still = .next still :=
  ⟨{ song := emptySong_legal _, clock := ⟨Nat.one_pos, Nat.one_pos, Nat.succ_pos _, Nat.succ_pos _⟩ }, rfl⟩

theorem test_meets_MemoryCanonicalKept : still.eng.Canonical ∧ step still = .next still :=
  ⟨⟨rfl, rfl, rfl, rfl, rfl, rfl, (fun _ h => nomatch h), (fun _ h => nomatch h)⟩, rfl⟩

/-! System commands. -/

theorem test_meets_PlaybackControl : still.fault = false ∧ still.playing = false ∧ still.liveDeadline = none ∧
    { still with playing := true }.playing = true ∧ { still with liveDeadline := some Num.one }.liveDeadline ≠ none := by
  decide +kernel

theorem test_meets_ControlWrite : still.fault = false ∧ (pat 1#64).isFinite = true ∧ Num.zero.lt (pat 1#64) = true ∧
    (pat 0#64).isFinite = true ∧ Num.zero.le (pat 0#64) = true ∧ still.playing = false ∧
    (0#64 : Word).toNat < still.song.barCount := by decide +kernel

theorem test_meets_ControlWriteRefused : still.fault = false ∧ Num.zero.lt (pat 0#64) = false ∧
    (pat 0x7FF0000000000000#64).isFinite = false ∧ Num.zero.le (pat 0xBFF0000000000000#64) = false ∧
    { still with playing := true }.playing = true ∧ still.song.barCount ≤ (1#64 : Word).toNat := by decide +kernel

theorem test_meets_ControlRead : still.sampleRate.isNaN = false ∧ still.volume.isNaN = false ∧
    still.liveDeadlineSeconds.isNaN = false ∧ still.eng.limit.isNaN = false := by decide +kernel

theorem test_meets_SetResultRegister : still.fault = false ∧ 15 ≤ 15 ∧ 15 < 16 := ⟨rfl, by decide, by decide⟩

theorem test_meets_ReadResultRegister : (let s := still.setResult 15 .one
    s.result 15 = some .one ∧ Num.isNaN .one = false ∧ s.fault = false) := by decide +kernel

theorem test_meets_WriteWork : still.fault = false ∧ 0 < Config.cfg.workSize ∧
    Config.cfg.workSize ≤ Config.cfg.workSize :=
  ⟨rfl, Nat.lt_of_lt_of_le (by decide) (two_le_workSize _), Nat.le_refl _⟩

theorem test_meets_ReadWork : (let s := { still with eng := { still.eng with work := [(0, .one)] } }
    s.fault = false ∧ (s.eng.readWork 0).isNaN = false) ∧ 0 < Config.cfg.workSize :=
  ⟨by decide +kernel, Nat.lt_of_lt_of_le (by decide) (two_le_workSize _)⟩

theorem test_meets_ReadMemory : 0 < Config.cfg.outMax ∧ 0 < (stage 7).eng.runMax Config.cfg ∧
    0 < (stage 7).eng.mixSize Config.cfg ∧
    (stage 7).eng.slots[0]? = some (Slot.zero Config.cfg) ∧ 0 < reverbRingSize ∧
    (∃ a st, (stage 7).eng.tones[0]? = some a ∧ a.strings[0]? = some st ∧ a.strings[8]? = none) ∧
    0 < Config.cfg.stringRingSize (stage 7).sampleRate ∧ findWave [⟨.sine, [.zero], true⟩] .sine = some [.zero] ∧
    findWave (stage 7).eng.waves (.chip 0) = none ∧ (stage 7).fault = false ∧ (stage 7).eng.slots[1]? = none ∧
    (stage 7).eng.tones[1]? = none ∧ ((0x3F800000#32 : Single).toNat / 2 ^ 23 % 2 ^ 8 ≠ 255) ∧
    ((0x7F800000#32 : Single).toNat % 2 ^ 23 = 0) :=
  ⟨one_le_outMax _, one_le_runMax _ _, Nat.lt_of_lt_of_le (one_le_runMax _ _) (Nat.le_max_left _ _), rfl, by decide,
    ⟨_, .zero, rfl, first_string _, no_ninth_string _⟩, powerOfTwoFrom_pos _, rfl, rfl, rfl, rfl, rfl, by decide, by decide⟩

/-- A song is accepted where the table of FM descriptors is legal, as in the small configuration. -/
theorem test_meets_SongLoad : still.fault = false ∧ songAccepted smallCfg emptySong = true ∧
    songAccepted smallCfg { emptySong with tempo := 0 } = false ∧ songAccepted Config.cfg { emptySong with tempo := 0 } = false ∧
    { still with payload := [.song emptySong] }.payload = .song emptySong :: [] :=
  ⟨rfl, by simp [songAccepted, emptySong_legal]; decide, by simp [songAccepted, songLegal, globalsLegal, emptySong],
    by simp [songAccepted, songLegal, globalsLegal, emptySong], rfl⟩

theorem test_meets_SongSet : still.fault = false ∧ songAccepted smallCfg { still.song with tempo := 1 } = true ∧
    songAccepted Config.cfg { still.song with tempo := 0 } = false ∧
    songAccepted smallCfg (resizeCounts emptySong still.song { still.song with barCount := 1 }) = true ∧
    (let s := { still with song := smallSong (plain 3), payload := [.edit (.channel 0 (.bar 0 0))] }
     s.payload = .edit (.channel 0 (.bar 0 0)) :: [] ∧
     (∃ ch, s.song.channels[0]? = some ch ∧ 0 < ch.bars.length ∧ 0 < ch.patterns.length ∧
      ch.instruments[0]? = some (plain 3)) ∧ s.song.channels.length ≤ 1 ∧
     0 < (plain 3).spectrumWave.length ∧ 0 < (plain 3).harmonicsWave.length ∧ 0 < (plain 3).drumSpectrumWaves.length) ∧
    songAccepted smallCfg { still.song with channels := [] } = true ∧
    ({ still with payload := [.edit (.channels [])] }).payload = .edit (.channels []) :: [] := by
  have h := emptySong_legal smallCfg
  refine ⟨rfl, ?_, ?_, ?_, ⟨rfl, ⟨_, rfl, by decide, by decide, rfl⟩, by decide, by decide, by decide, by decide⟩, ?_, rfl⟩
  · show (songLegal smallCfg emptySong && algorithmsLegal smallCfg) = true
    rw [h]
    decide
  · simp [songAccepted, songLegal, globalsLegal, still, emptySong]
  · show (songLegal smallCfg emptySong && algorithmsLegal smallCfg) = true
    rw [h]
    decide
  · show (songLegal smallCfg emptySong && algorithmsLegal smallCfg) = true
    rw [h]
    decide

/-- Channels that stay under a count edit, one of each kind, and paths that name nothing. -/
theorem test_meets_SongSet_counts :
    (let s : Song := { smallSong (plain 3) with
      noiseChannelCount := 1, channels := (smallSong (plain 3)).channels ++ (smallSong (plain 2)).channels }
     let t : Song := { s with barCount := 2 }
     (∃ ch, s.channels[0]? = some ch ∧ 0 < s.pitchChannelCount ∧ 0 < t.pitchChannelCount ∧
       0 < ch.bars.length ∧ 0 < t.barCount ∧ 0 < ch.patterns.length ∧ 0 < t.patternsPerChannel ∧
       0 < ch.instruments.length ∧ 0 < t.instrumentsPerChannel) ∧
     (∃ ch, s.channels[1]? = some ch ∧ s.pitchChannelCount ≤ 1 ∧ 1 - s.pitchChannelCount < t.noiseChannelCount ∧
       1 = t.pitchChannelCount + (1 - s.pitchChannelCount) ∧
       ch.bars.length ≤ 1 ∧ ch.patterns.length ≤ 1 ∧ ch.instruments.length ≤ 1)) :=
  ⟨⟨_, rfl, by decide⟩, ⟨_, rfl, by decide⟩⟩

/-- An edit of the whole channel list: the tone and the slot's spectrum wave go, the sine wave and the clock stay
(R381). -/
theorem test_new_channels :
    (let e : Engine := { (stage 3).eng with
      waves := [⟨.sine, [.one], true⟩, ⟨.spectrum 0, [.one], true⟩, ⟨.spectrum 1, [.one], true⟩] }
     let r := settleChannels Config.cfg (smallSong (plain 3)) e
     r.tones.map Tone.state = [.free] ∧ r.slots = [Slot.zero Config.cfg] ∧ r.clock = e.clock ∧
     findWave r.waves .sine = some [.one] ∧ findWave r.waves (.spectrum 0) = none ∧
     findWave r.waves (.spectrum 1) = some [.one]) :=
  ⟨rfl, rfl, rfl, rfl, rfl, rfl⟩

/-- A table wave leaves `WORK` open (R493). -/
theorem test_sine_opens_work (x : Ctx) (e : Engine) : (buildWave x .sine { e with work := [(0, .one)] }).work = [] := rfl

/-! `RUN`. -/

/-- A block at work on one awake instrument slot of noise, two samples before the end of its tick. -/
structure Awake (s : State) : Prop where
  fault : s.fault = false
  song : s.song = smallSong (plain kindNoise)
  slot : ∃ i, s.eng.slots = [i] ∧ i.awake = true
  clock : s.eng.clock.tickSampleCountdown = .two ∧ s.eng.clock.bar = 0

/-- The same block with one released tone. -/
structure Sounding (s : State) : Prop extends Awake s where
  tone : ∃ a, s.eng.tones = [a] ∧ a.state = .released ∧ a.instrument = 0
  queues : s.eng.activeTones = [[]] ∧ s.eng.releasedTones = [[0]]

theorem noise_slot {s : State} (h : Awake s) : slotInstrument s.song 0 = some (plain kindNoise) := by rw [h.song]; rfl

theorem one_legal (x : Ctx) (e : Engine) : runLengthLegal x.cfg e 1 = true := by simp [runLengthLegal, one_le_runMax]

theorem noise_computes (x : Ctx) (k : Clock) (u n : Nat) (t : Tone) : ∃ t',
    computeTone x k u n (plain kindNoise) t = .ok t' ∧ t'.state = t.state ∧ t'.instrument = t.instrument := by
  have m : (markLastTick x.cfg (plain kindNoise) t).state = t.state ∧
      (markLastTick x.cfg (plain kindNoise) t).instrument = t.instrument := by
    unfold markLastTick
    split
    · split <;> simp
    · simp
  exact ⟨_, rfl, m.1, m.2⟩

theorem sync_sounding {s : State} (h : Sounding s) : Sounding (s.after (.syncTones 0)) := by
  obtain ⟨a, ht, ha, hi⟩ := h.tone
  have e : syncTones (s.ctx Config.cfg (.syncTones 0)) 0 s.eng =
      .ok (capTones (s.ctx Config.cfg (.syncTones 0)) 0 s.eng) := by
    have : currentPattern s.song s.eng.clock.bar 0 = none := by rw [h.song, h.clock.2]; rfl
    simp [syncTones, State.ctx, this, h.queues.1, endTones]
  have l : 0 < (s.ctx Config.cfg (.syncTones 0)).song.channelCount := by
    show 0 < s.song.channelCount
    rw [h.song]
    decide
  have r : s.after (.syncTones 0) = { s with eng := capTones (s.ctx Config.cfg (.syncTones 0)) 0 s.eng } := by
    show syncTonesWith _ _ _ = _
    rw [syncTonesWith, if_pos l, e, onEngine_ok h.fault]
  rw [r]
  refine ⟨⟨h.fault, h.song, h.slot, h.clock⟩, ⟨_, by simp only [capTones, ht]; rfl, ?_, ?_⟩, h.queues⟩ <;> dsimp only <;>
    split <;> assumption

theorem voice_awake {s : State} (h : Sounding s) : Awake (s.voiceTone 1 0) := by
  obtain ⟨a, ht, ha, hi⟩ := h.tone
  obtain ⟨t, hc, hst, hin⟩ := noise_computes (s.ctx Config.cfg (.toneCompute 0 1)) s.eng.clock 0 1 a
  have slot := noise_slot h.toAwake
  have r1 : s.after (.toneCompute 0 1) = { s with eng := s.eng.setTone 0 t } := by
    show toneComputeWith _ _ _ _ = _
    have l : liveTone (s.ctx Config.cfg (.toneCompute 0 1)) s.eng 0 = .ok a := by simp [liveTone, ht, ha]
    have c : computeSlot (s.ctx Config.cfg (.toneCompute 0 1)) 0 1 s.eng a = .ok (s.eng.setTone 0 t) := by
      simp only [computeSlot, hi, State.ctx, slot]
      exact congrArg (Except.map _) hc
    simp [toneComputeWith, h.fault, l, c, one_legal]
  let s1 : State := { s with eng := s.eng.setTone 0 t }
  have r2 : s1.after (.synNoise 0 1) =
      { s1 with eng := synthSlot (s1.ctx Config.cfg (.synNoise 0 1)) 0 1 (plain kindNoise) t s1.eng } := by
    show onEngine _ _ = _
    have l : liveTone (s1.ctx Config.cfg (.synNoise 0 1)) s1.eng 0 = .ok t := by
      simp [liveTone, s1, Engine.setTone, ht, hst, ha]
    have d : synthDirect (s1.ctx Config.cfg (.synNoise 0 1)) kindNoise 0 1 s1.eng =
        .ok (synthSlot (s1.ctx Config.cfg (.synNoise 0 1)) 0 1 (plain kindNoise) t s1.eng) := by
      have g : slotInstrument (s1.ctx Config.cfg (.synNoise 0 1)).song t.instrument = some (plain kindNoise) := by
        rw [hin, hi]
        exact slot
      simp only [synthDirect, l, g]
      simp [plain, one_legal]
    rw [d]
    exact onEngine_ok (s := s1) h.fault _
  have r : s.voiceTone 1 0 = s1.after (.synNoise 0 1) := by
    simp only [State.voiceTone, ht, List.getElem?_cons_zero, hi, slot]
    show (s.after (.toneCompute 0 1)).after (.synNoise 0 1) = _
    rw [r1]
  have w (x : Ctx) (e : Engine) : (ensureOptional x (some (.noise 0)) e).slots = e.slots ∧
      (ensureOptional x (some (.noise 0)) e).clock = e.clock := by
    unfold ensureOptional ensureWave
    dsimp only
    split <;> exact ⟨rfl, rfl⟩
  obtain ⟨i, hsl, hw⟩ := h.slot
  obtain ⟨w1, w2⟩ := w (s1.ctx Config.cfg (.synNoise 0 1)) s1.eng
  rw [r, r2]
  refine ⟨h.fault, h.song, ?_, ?_⟩
  · refine ⟨{ i with tonesThisTick := i.tonesThisTick + 1 }, ?_, hw⟩
    show (ensureOptional _ (some (.noise 0)) s1.eng).slots.modify t.instrument _ = _
    rw [w1, hin, hi]
    show s.eng.slots.modify 0 _ = _
    rw [hsl]
    rfl
  · show (ensureOptional _ (some (.noise 0)) s1.eng).clock.tickSampleCountdown = _ ∧
      (ensureOptional _ (some (.noise 0)) s1.eng).clock.bar = _
    rw [w2]
    exact h.clock

theorem fx_clock {s : State} (h : Awake s) : (s.after (.fxRun 0 0 1)).fault = false ∧
    (s.after (.fxRun 0 0 1)).eng.clock.tickSampleCountdown = .two := by
  obtain ⟨i, hsl, hw⟩ := h.slot
  have a : slotAt (s.ctx Config.cfg (.fxRun 0 0 1)) s.eng 0 = .ok (i, plain kindNoise) := by
    simp only [slotAt, hsl, List.getElem?_cons_zero, State.ctx, noise_slot h]
  have m : 0 + 1 ≤ s.eng.mixSize Config.cfg := Nat.le_trans (one_le_runMax Config.cfg s.eng) (Nat.le_max_left _ _)
  have r : s.after (.fxRun 0 0 1) =
      { s with eng := runEffects (s.ctx Config.cfg (.fxRun 0 0 1)) 0 0 1 (plain kindNoise) i s.eng } := by
    show fxRunWith _ _ _ _ _ = _
    have c : (runLengthLegal (s.ctx Config.cfg (.fxRun 0 0 1)).cfg s.eng 1 &&
        decide (0 + 1 ≤ s.eng.mixSize (s.ctx Config.cfg (.fxRun 0 0 1)).cfg)) = true := by
      rw [one_legal]
      exact decide_eq_true m
    simp only [fxRunWith, a]
    rw [if_pos c, onEngine_ok h.fault]
  rw [r]
  refine ⟨h.fault, ?_⟩
  show ((chainLoop _ _ _ _ _ _ _).2.setSlot 0 _).clock.tickSampleCountdown = _
  rw [Engine.setSlot_clock, chainLoop_clock]
  exact h.clock.1

/-- A tone sounds, its slot runs its effects, and no command of the run takes a fault. -/
theorem run_sounds {s : State} (h : Sounding s) : (s.oneRun 1).fault = false := by
  have h1 := sync_sounding h
  have h2 := voice_awake h1
  obtain ⟨i, hsl, hw⟩ := h2.slot
  have q : tonesOf (s.after (.syncTones 0)).eng (slotChannel (s.after (.syncTones 0)).song 0) 0 = [0] := by
    rw [h1.song]
    simp [tonesOf, slotChannel, h1.queues]
  have v : (s.after (.syncTones 0)).voiceSlot 1 0 = ((s.after (.syncTones 0)).voiceTone 1 0).after (.fxRun 0 0 1) := by
    simp only [State.voiceSlot, q, List.foldl_cons, List.foldl_nil, hsl, List.getElem?_cons_zero, hw, if_true]
  obtain ⟨f1, f2⟩ := fx_clock h2
  generalize hv : (s.after (.syncTones 0)).voiceSlot 1 0 = t at v
  rw [← v] at f1 f2
  have l : t.limitSample 0 = { t with r := (t.limitSample 0).r, eng := (t.limitSample 0).eng } ∧
      (t.limitSample 0).eng.clock = t.eng.clock := by
    have : t.after (.limit (t.eng.readMixL 0) (t.eng.readMixR 0)) = limitWith (t.ctx Config.cfg
      (.limit (t.eng.readMixL 0) (t.eng.readMixR 0))) t (t.eng.readMixL 0) (t.eng.readMixR 0) := rfl
    simp only [State.limitSample, this, limitWith, command_ok f1]
    exact ⟨rfl, rfl⟩
  have o : s.oneRun 1 = (t.limitSample 0).after (.clkAdv 1) := by
    have c1 : s.song.channelCount = 1 := by rw [h.song]; rfl
    have c2 : s.song.slotCount = 1 := by rw [h.song]; rfl
    simp only [State.oneRun, c1, c2]
    show ((s.after (.syncTones 0)).voiceSlot 1 0 |>.limitSample 0).after (.clkAdv 1) = _
    rw [hv]
  have d : ∀ e : Engine, e.clock.tickSampleCountdown = .two → ∀ x : Ctx, ∃ e', advanceClock x 1 e = .ok e' := by
    intro e he x
    have : (Num.two.sub (Num.ofNat 1)).le .zero = false := by decide +kernel
    exact ⟨_, by simp only [advanceClock, he, this]; rfl⟩
  have fl : (t.limitSample 0).fault = false := by rw [l.1]; exact f1
  have cd : (t.limitSample 0).eng.clock.tickSampleCountdown = .two := by rw [l.2]; exact f2
  obtain ⟨e', he⟩ := d _ cd ((t.limitSample 0).ctx Config.cfg (.clkAdv 1))
  rw [o]
  show (clkAdvWith _ _ _).fault = _
  have c : (decide (1 ≤ 1) && decide (1 ≤ ceilCount (t.limitSample 0).eng.clock.tickSampleCountdown)) = true := by
    rw [cd]
    decide +kernel
  rw [clkAdvWith, if_pos c, he, onEngine_ok fl]
  exact fl
/-- A playing block with one released noise tone in an awake slot. -/
def sounding : State :=
  { bench Config.cfg (plain kindNoise) { Tone.zero Config.cfg with state := .released, pitches := [0] }
      (Slot.zero Config.cfg).wake with
    playing := true
    eng := { (bench Config.cfg (plain kindNoise) { Tone.zero Config.cfg with state := .released, pitches := [0] }
        (Slot.zero Config.cfg).wake).eng with
      activeTones := [[]], releasedTones := [[0]], clock := ⟨0, 0, 0, 0, .two, true, .two, 0⟩ } }

theorem test_meets_RunOutcomes : still.fault = false ∧ still.playing = false ∧ { still with playing := true }.playing = true ∧
    Config.cfg.outMax < Config.cfg.outMax + 1 ∧ 0 < Config.cfg.outMax ∧ exec (.run 0) still = .next still ∧
    sounding.fault = false ∧ sounding.playing = true ∧ 1 ≤ Config.cfg.outMax ∧
    1 ≤ ceilCount sounding.eng.clock.tickSampleCountdown ∧ 1 ≤ sounding.eng.runMax Config.cfg ∧
    (({ sounding with eng := openBuffers (sounding.ctx Config.cfg (.run 1)) 1 sounding.eng } : State).oneRun 1).fault =
      false :=
  ⟨rfl, rfl, rfl, Nat.lt_succ_self _, one_le_outMax _, rfl, rfl, rfl, one_le_outMax _,
    (by decide +kernel : 1 ≤ ceilCount Num.two), one_le_runMax _ _,
    run_sounds ⟨⟨rfl, rfl, ⟨_, rfl, rfl⟩, rfl, rfl⟩, ⟨_, rfl, rfl, rfl⟩, rfl, rfl⟩⟩

theorem test_meets_RunOfSilentSong : (let s := { still with playing := true }
    s.fault = false ∧ s.playing = true ∧ s.controlsLegal ∧ s.eng.limit = .zero ∧ s.Silent) ∧
    1 ≤ Config.cfg.outMax ∧ Config.cfg.outMax ≤ Config.cfg.outMax :=
  ⟨⟨rfl, rfl, by refine ⟨⟨?_, ?_⟩, ⟨?_, ?_⟩, ⟨?_, ?_⟩⟩ <;> decide +kernel, rfl,
    ⟨(fun _ h => nomatch h), (fun _ h => nomatch h), (fun _ h => nomatch h), (fun _ h => nomatch h)⟩⟩,
    one_le_outMax _, Nat.le_refl _⟩

/-! Waves and filters. -/

theorem test_meets_InverseTransform : (let s := { still with eng := { still.eng with work := [(0, .zero), (1, .zero)] } }
    s.fault = false ∧ 2 = 2 ^ 1 ∧ (s.eng.workPrefix 2).all Num.isFinite = true ∧ ∀ j, j < 2 → (s.eng.readWork j).eq .zero = true) ∧ 2 ≤ Config.cfg.workSize ∧
    Config.cfg.workSize < Config.cfg.workSize + 1 :=
  ⟨⟨rfl, rfl, by decide +kernel, by decide +kernel⟩, two_le_workSize _, Nat.lt_succ_self _⟩

theorem test_meets_TableWaves : still.fault = false ∧ 0 < Config.cfg.chipWaves.length ∧ 0 < Config.cfg.noiseWaveCount ∧
    Config.cfg.chipWaves.length ≤ Config.cfg.chipWaves.length :=
  ⟨rfl, table_pos _, Nat.succ_pos _, Nat.le_refl _⟩

theorem test_meets_SpectralWaves : [kindSpectrum, kindDrumset, kindHarmonics, kindChip].all (fun k =>
    !(stage k).fault && decide (slotInstrument (stage k).song 0 = some (plain k))
      && decide (slotInstrument (stage k).song 1 = none)) = true ∧ (∀ p ∈ List.replicate 30 0, p = 0) := by decide +kernel

theorem test_meets_WaveInvalidate : still.fault = false := rfl

theorem test_meets_FirstOrderCoefficients : still.fault = false ∧
    inOmegaDomain .one = true ∧ (inOmegaDomain .one && Num.zero.lt .one) = true ∧
    Num.one.neg.lt Num.one.neg = false := by decide +kernel

theorem test_meets_SecondOrderCoefficients : still.fault = false ∧ inOmegaDomain .one = true ∧
    Num.zero.lt .one = true ∧ Num.one.eq .one = true ∧ Num.half.eq .one = false := by decide +kernel

theorem test_meets_FilterPoints : still.fault = false ∧ 0 < Config.cfg.filterFreqRange ∧
    Config.cfg.filterFreqRange ≤ Config.cfg.filterFreqRange ∧ 0 < Config.cfg.filterGainRange :=
  ⟨rfl, Nat.succ_pos _, Nat.le_refl _, Nat.succ_pos _⟩

theorem test_meets_BiquadOperations : (let s := { stage 0 with eng := { (stage 0).eng with
      tones := [{ Tone.zero Config.cfg with filters := [Biquad.zero], strings := [.zero] }]
      slots := [{ Slot.zero Config.cfg with fxFilters := [Biquad.zero] }] } }
    s.fault = false ∧ (∃ t z, s.eng.tones[0]? = some t ∧ t.filters[0]? = some Biquad.zero ∧ t.strings[0]? = some z) ∧
    (∃ i, s.eng.slots[0]? = some i ∧ i.fxFilters[0]? = some Biquad.zero) ∧
    biquadAt s.eng 4 0 0 = none ∧ biquadAt s.eng 0 0 1 = none ∧ s.eng.tones[1]? = none ∧ s.eng.slots[1]? = none) :=
  ⟨rfl, ⟨_, .zero, rfl, rfl, rfl⟩, ⟨_, rfl, rfl⟩, rfl, rfl, rfl, rfl⟩

/-! Envelopes and helpers. -/

theorem test_meets_EnvelopeCurves : still.fault = false ∧ Num.zero.isNaN = false ∧ Num.zero.lt .zero = false := by
  decide +kernel

theorem test_meets_VoiceHelpers : still.fault = false ∧ (∃ v, Config.cfg.vibratos.get? 0 = some v) ∧
    Config.cfg.vibratos.get? Config.cfg.vibratos.length = none ∧ Num.zero.le (Num.ofNat 3) = true ∧
    (Num.ofNat 3).le (Num.ofNat 3) = true ∧ Num.zero.le .zero = true ∧ Num.zero.lt .one = true ∧
    1 ≤ Config.cfg.maxChordSize ∧ 0 < Config.cfg.rhythmCount :=
  ⟨rfl, ⟨_, rfl⟩, table_get_length _, by decide +kernel, by decide +kernel, by decide +kernel, by decide +kernel,
    one_le_maxChord _, Nat.succ_pos _⟩

/-! Tones. -/

theorem test_meets_ToneNew : (let s := bench Config.cfg (plain 0) (Tone.zero Config.cfg) (Slot.zero Config.cfg)
    s.fault = false ∧ s.eng.slots[0]? = some (Slot.zero Config.cfg) ∧ slotInstrument s.song 0 = some (plain 0) ∧
    s.eng.activeTones[slotChannel s.song 0]? = some [0] ∧ s.eng.tones[0]? = some (Tone.zero Config.cfg) ∧
    (Tone.zero Config.cfg).state = .free) ∧ (stage 0).eng.slots[1]? = none ∧
    ∀ a ∈ (stage 0).eng.tones, a.state ≠ .free := by
  refine ⟨⟨rfl, rfl, rfl, rfl, rfl, rfl⟩, rfl, fun a h => ?_⟩
  rw [List.mem_singleton.mp h]
  decide

theorem test_meets_ToneReleaseAndFree : (stage 0).fault = false ∧
    (∃ a, (stage 0).eng.tones[0]? = some a ∧ a.state = .active ∧ (stage 0).eng.releasedTones[a.instrument]? = some []) ∧
    (Tone.zero Config.cfg).state = .free := ⟨rfl, ⟨_, rfl, rfl, rfl⟩, rfl⟩

theorem test_meets_ToneCompute : ∀ kind ∈ [kindChip, kindNoise, kindSpectrum, kindGuitar], (stage kind).fault = false ∧
    ∃ a, (stage kind).eng.tones[0]? = some a ∧ a.state = .active ∧
      slotInstrument (stage kind).song a.instrument = some (plain kind) ∧ kind < 8 ∧ usedEnvelopes (plain kind) a = [] ∧
      1 ≤ (stage kind).eng.runMax Config.cfg := by
  intro kind h
  have h' : kind = 0 ∨ kind = 2 ∨ kind = 3 ∨ kind = 7 := by
    simpa [kindChip, kindNoise, kindSpectrum, kindGuitar] using h
  obtain rfl | rfl | rfl | rfl := h' <;> exact ⟨rfl, _, rfl, rfl, rfl, by decide, rfl, one_le_runMax _ _⟩

/-- A kind of no known type, and under the small configuration an envelope of none. -/
theorem test_meets_ToneComputeFaults : (stage 8).fault = false ∧ slotInstrument (stage 8).song 0 = some (plain 8) ∧
    (∃ a, (stage 8).eng.tones[0]? = some a ∧ a.state ≠ .free) ∧ 1 ≤ (stage 8).eng.runMax Config.cfg ∧
    (let c := { smallCfg with envelopes := ⟨⟨9, .zero⟩, []⟩ }
     let s := bench c (plain kindPwm) ready (Slot.zero c)
     s.fault = false ∧ s.eng.tones[0]? = some ready ∧ ready.state ≠ .free ∧
     slotInstrument (s.ctx c (.toneCompute 0 1)).song ready.instrument = some (plain kindPwm) ∧
     1 ≤ s.eng.runMax (s.ctx c (.toneCompute 0 1)).cfg ∧ usedEnvelopes (plain kindPwm) ready = [0] ∧
     (c.envelopes.get 0).kind = 9) :=
  ⟨rfl, rfl, ⟨_, rfl, by decide⟩, one_le_runMax _ _, rfl, rfl, by decide, rfl, one_le_runMax _ _, by decide, rfl⟩

/-! Synth loops. -/

/-- A block whose one tone moves on by 1 a sample, the wave that its loop reads being valid. -/
def voiced (kind : Nat) : State :=
  let a : Tone := { Tone.zero Config.cfg with state := .active, pitches := [0], phaseDeltas := #v[.one, .one, .one, .one] }
  let s := bench Config.cfg (plain kind) a (Slot.zero Config.cfg)
  { s with eng := { s.eng with waves := ((waveOf (plain kind) a).map (fun k => ⟨k, [.zero, .one, .zero], true⟩)).toList } }

theorem test_meets_SynthLoops : ∀ kind : Nat, kind < 8 → (let s := voiced kind
    s.fault = false ∧ (∃ a, s.eng.tones[0]? = some a ∧ a.state ≠ .free ∧ a.atNoteStart = true ∧
      (∀ k < 4, (get4 a.phaseDeltas k).eq .zero = false) ∧ slotInstrument s.song a.instrument = some (plain kind) ∧
      ∀ k, waveOf (plain kind) a = some k → findWave s.eng.waves k = some [.zero, .one, .zero]) ∧
    (plain kind).kind = kind ∧ Memory.numWf s.eng.scratch = true ∧ 1 ≤ s.eng.runMax Config.cfg) := by
  intro kind _
  refine ⟨rfl, ⟨_, rfl, by decide, rfl, (by decide +kernel : ∀ k < 4, (get4 #v[.one, .one, .one, .one] k).eq .zero = false),
    ?_, fun k hk => ?_⟩, rfl, rfl, one_le_runMax _ _⟩
  · simp [slotInstrument, voiced, bench, smallSong, Song.slotCount, emptySong, Tone.zero]
  simp only [voiced]
  rw [show waveOf (plain kind) { Tone.zero Config.cfg with
    state := .active, pitches := [0], phaseDeltas := #v[.one, .one, .one, .one] } = some k from hk]
  simp [findWave]

theorem test_meets_SynthLoopsRefused : (stage 0).fault = false ∧ (plain 0).kind ≠ kindFm ∧
    (∃ a, (stage 0).eng.tones[0]? = some a ∧ a.state ≠ .free) ∧
    (stage 0).eng.runMax Config.cfg < (stage 0).eng.runMax Config.cfg + 1 :=
  ⟨rfl, by decide, ⟨_, rfl, by decide⟩, by omega⟩

theorem test_meets_GuitarPluck : (stage 7).fault = false ∧ (∃ a w, (stage 7).eng.tones[0]? = some a ∧ a.state ≠ .free ∧
    slotInstrument (stage 7).song a.instrument = some (plain 7) ∧ a.pitches[0]? = some 0 ∧ a.strings[0]? = some w ∧
    Memory.numWf w.ring = true ∧ a.pitches[1]? = none) ∧ (plain 7).kind = kindGuitar ∧
    0 = ringIndex 8 (1 - ((0 + 1 : Nat) : Int)) ∧ 4 ≠ ringIndex 8 (1 - ((0 + 1 : Nat) : Int)) ∧ 8 ≤ 8 :=
  ⟨rfl, ⟨_, .zero, rfl, by decide, rfl, rfl, first_string _, rfl, rfl⟩, rfl, by decide, by decide, by decide⟩

/-! Effects. -/

theorem test_meets_MonoEffects : (stage 0).fault = false ∧ (stage 0).eng.slots[0]? = some (Slot.zero Config.cfg) ∧
    slotInstrument (stage 0).song 0 = some (plain 0) ∧ (Slot.zero Config.cfg).fxFilterCount = 0 ∧
    Num.one.le ((Num.infOf false).add (Config.cfg.crushStep 0 (stage 0).sampleRate)) = true ∧
    (∀ x : Num, Num.one.le ((Num.nanOf 0#64 0#64).add x) = false) ∧ (stage 0).eng.slots[1]? = none ∧
    { Slot.zero Config.cfg with fxFilterCount := 1, fxFilters := [Biquad.zero] }.fxFilterCount = 0 + 1 := by
  have h := positive_facts (crushStep_positive Config.cfg 0 (stage 0).sampleRate)
  exact ⟨rfl, rfl, rfl, rfl, (infinity_add h.1 h.2).symm ▸ rfl, fun x => le_isNaN (add_isNaN (.inl (nanOf_isNaN _ _))), rfl, rfl⟩

theorem test_meets_StereoEffects : (stage 0).fault = false ∧ (stage 0).eng.slots[0]? = some (Slot.zero Config.cfg) ∧
    slotInstrument (stage 0).song 0 = some (plain 0) ∧ (Slot.zero Config.cfg).Canonical ∧ (stage 0).eng.slots[1]? = none :=
  ⟨rfl, rfl, rfl, ⟨rfl, rfl, rfl, rfl⟩, rfl⟩

theorem test_meets_EffectChain : (stage 0).fault = false ∧ (stage 0).eng.slots[0]? = some (Slot.zero Config.cfg) ∧
    slotInstrument (stage 0).song 0 = some (plain 0) ∧
    0 + (stage 0).eng.runMax Config.cfg ≤ (stage 0).eng.mixSize Config.cfg ∧
    Memory.numWf (stage 0).eng.scratch = true ∧ (plain 0).effects = 0 ∧ (plain 0).distortionFilter = [] ∧
    (stage 0).eng.mixSize Config.cfg < (stage 0).eng.mixSize Config.cfg + 1 :=
  ⟨rfl, rfl, rfl, by rw [Nat.zero_add]; exact Nat.le_max_left _ _, rfl, rfl, rfl, by omega⟩

theorem test_meets_TailUpdate : (stage 0).fault = false ∧ (stage 0).eng.slots[0]? = some (Slot.zero Config.cfg) ∧
    slotInstrument (stage 0).song 0 = some (plain 0) ∧ (Slot.zero Config.cfg).tonesThisTick = 0 ∧
    (Slot.zero Config.cfg).flushing = false ∧ { Slot.zero Config.cfg with flushing := true }.flushing = true ∧
    0 < { Slot.zero Config.cfg with tonesThisTick := 1 }.tonesThisTick ∧
    Num.one.le ((Num.infOf false).add (Num.one.div (Config.cfg.tailTicksOf (plain 0) (stage 0).sampleRate
      (stage 0).eng.clock.samplesPerTick))) = true ∧
    (∀ x : Num, Num.one.le ((Num.nanOf 0#64 0#64).add x) = false) := by
  have h := one_div_facts (tailTicks_positive Config.cfg (plain 0) (stage 0).sampleRate (stage 0).eng.clock.samplesPerTick)
  exact ⟨rfl, rfl, rfl, rfl, rfl, rfl, Nat.one_pos, (infinity_add h.1 h.2).symm ▸ rfl,
    fun x => le_isNaN (add_isNaN (.inl (nanOf_isNaN _ _)))⟩

/-! Master stage and clock. -/

/-- Both cases of the follower: a peak of 1 from `limit = 0`, and silence. -/
theorem test_meets_Limiter : (let s := { still with sampleRate := Num.ofNat 4096 }
    let next (peak : Num) : Num := s.eng.limit.add ((peak.sub s.eng.limit).mul ((Num.ofNat 4000).div s.sampleRate))
    s.fault = false ∧ Num.one.isNaN = false ∧ (next .one).isFinite = true ∧ (next .one).abs.lt sanitizeMin = false ∧
    (next .zero).abs.lt sanitizeMin = true) := by decide +kernel

/-- A block whose clock stands at a tick that is not the part's last. -/
def midPart : State :=
  { still with eng := { still.eng with clock := { still.eng.clock with tick := Config.cfg.ticksPerPart } } }

theorem test_meets_ClockAdvance : midPart.fault = false ∧ 1 ≤ ceilCount Num.two ∧ 2 ≤ ceilCount Num.two ∧
    (Num.two.sub (Num.ofNat 1)).le .zero = false ∧ (Num.two.sub (Num.ofNat 2)).le .zero = true ∧
    midPart.eng.clock.tickSampleCountdown = .two ∧ midPart.eng.clock.tick + 1 ≠ Config.cfg.ticksPerPart ∧
    ceilCount Num.two < 3 ∧
    (let s := { still with eng := { still.eng with clock := { still.eng.clock with tick := Config.cfg.ticksPerPart - 1 } } }
     s.fault = false ∧ s.eng.clock.tick + 1 = Config.cfg.ticksPerPart ∧ s.Silent) :=
  ⟨rfl, by decide +kernel, by decide +kernel, by decide +kernel, by decide +kernel, rfl, Nat.succ_ne_self _,
    by decide +kernel, rfl, rfl, ⟨(fun _ h => nomatch h), (fun _ h => nomatch h), (fun _ h => nomatch h),
      (fun _ h => nomatch h)⟩⟩

theorem test_meets_TickBoundary : (let s := { stage 0 with eng := { midPart.eng with
      tones := [{ Tone.zero Config.cfg with state := .released, isLastTick := true }, { Tone.zero Config.cfg with state := .released }]
      releasedTones := [[0, 1]]
      slots := [{ Slot.zero Config.cfg with deactivateAfterThisTick := true }, (Slot.zero Config.cfg).wake] } }
    s.fault = false ∧ s.eng.clock.tick + 1 ≠ Config.cfg.ticksPerPart ∧ s.eng.releasedTones.flatten.Nodup) ∧
    (let s := { still with eng := { still.eng with clock := { still.eng.clock with tick := Config.cfg.ticksPerPart - 1 } } }
     s.fault = false ∧ s.eng.clock.tick + 1 = Config.cfg.ticksPerPart ∧ s.Silent) :=
  ⟨⟨rfl, Nat.succ_ne_self _, by decide⟩, rfl, rfl, ⟨(fun _ h => nomatch h), (fun _ h => nomatch h),
    (fun _ h => nomatch h), (fun _ h => nomatch h)⟩⟩

theorem small_bar_empty (ins : Instrument) (bar : Nat) : currentPattern (smallSong ins) bar 0 = none := by
  cases bar <;> rfl

theorem part_end_small (x : Ctx) (e : Engine) {ins : Instrument} (h : x.song = smallSong ins) :
    ∃ e', partEnd x e = .ok e' := by
  have n (bar : Nat) : currentPattern x.song bar 0 = none := by rw [h, small_bar_empty]
  have l : x.song.channelCount = 1 := by rw [h]; rfl
  exact ⟨_, by simp only [partEnd, syncAll, l, syncFrom, syncTones, n]; rfl⟩

/-- The end of a part with a released tone and an awake slot. -/
theorem test_meets_TickBoundary_end : (let s := { stage 0 with eng := { (stage 0).eng with
      tones := [{ Tone.zero Config.cfg with state := .released }], activeTones := [[]], releasedTones := [[0]]
      slots := [(Slot.zero Config.cfg).wake]
      clock := { still.eng.clock with tick := Config.cfg.ticksPerPart - 1 } } }
    s.fault = false ∧ s.eng.clock.tick + 1 = Config.cfg.ticksPerPart ∧ ∃ b t : State,
      exec .tickEnd { s with eng := { s.eng with clock := { s.eng.clock with tick := Config.cfg.ticksPerPart } } } =
        .next b ∧
      exec .partEnd { s with eng := { b.eng with clock := { s.eng.clock with tick := 0 } } } = .next t ∧
      t.fault = false) := by
  refine ⟨rfl, rfl, _, _, rfl, rfl, ?_⟩
  rw [onEngine, (part_end_small (ins := plain 0) _ _ rfl).choose_spec]
  rfl

theorem test_meets_PartBoundary : still.fault = false ∧ still.Silent ∧
    Config.cfg.partsPerBeat + 1 ≠ Config.cfg.partsPerBeat ∧
    (Config.cfg.partsPerBeat - 1) + 1 = Config.cfg.partsPerBeat ∧ 0 + 1 = still.song.beatsPerBar ∧
    1 + 1 ≠ still.song.beatsPerBar ∧ still.song.channelCount = 0 :=
  ⟨rfl, ⟨(fun _ h => nomatch h), (fun _ h => nomatch h), (fun _ h => nomatch h), (fun _ h => nomatch h)⟩,
    Nat.succ_ne_self _, rfl, rfl, by decide, rfl⟩

theorem test_meets_BarNext : still.fault = false ∧
    still.eng.clock.bar + 1 = still.song.loopStart + still.song.loopLength ∧ still.song.barCount ≤ still.eng.clock.bar + 1 ∧
    (let s := { still with song := { emptySong with barCount := 2, loopLength := 2 } }
     s.eng.clock.bar + 1 ≠ s.song.loopStart + s.song.loopLength ∧ s.eng.clock.bar + 1 < s.song.barCount) := by
  decide +kernel

theorem test_meets_Sanitize : (stage 7).fault = false ∧ (Slot.zero Config.cfg).awake = false ∧
    (Slot.zero Config.cfg).wake.awake = true ∧ (stage 7).eng.slots[0]? = some (Slot.zero Config.cfg) ∧
    (Tone.zero Config.cfg).state = .free ∧ (∃ a, (stage 7).eng.tones[0]? = some a ∧ a.state ≠ .free ∧
      slotInstrument (stage 7).song a.instrument = some (plain 7)) ∧ (plain 7).kind = kindGuitar ∧
    Memory.numWf [(0, Num.ofNat 101)] = true ∧ Memory.numWf [(0, Num.ofNat 100)] = true :=
  ⟨rfl, rfl, rfl, rfl, rfl, ⟨_, rfl, by decide, rfl⟩, rfl, by decide +kernel, by decide +kernel⟩

theorem test_meets_SyncSilentChannel : (let s := stage 0
    s.fault = false ∧ (∃ ch, s.song.channels[0]? = some ch ∧ ch.bars.getD s.eng.clock.bar 0 = 0) ∧
    s.eng.activeTones[0]? = some [0] ∧ (∀ u ∈ [0], u < s.eng.tones.length) ∧
    (∀ (d : Nat) (q : List Nat), d ≠ 0 → s.eng.activeTones[d]? = some q → ∀ u ∈ [0], u ∉ q) ∧
    s.song.channels.length ≤ 1) := by
  refine ⟨rfl, ⟨_, rfl, rfl⟩, rfl, by decide, fun d q hd h => ?_, Nat.le_refl _⟩
  cases d with
  | zero => exact absurd rfl hd
  | succ d => exact nomatch h

/-- A song of one channel whose only bar plays a note of the given pitches on its first part. -/
def noteSong (pitches : List Nat) : Song :=
  { smallSong (plain 0) with
    channels := [⟨0, false, [plain 0], [⟨0, [⟨0, 1, pitches, [⟨0, 0, 3⟩, ⟨1, 0, 3⟩]⟩]⟩], [1]⟩] }

/-- A bar whose pattern has no note at the first part. -/
theorem test_meets_SyncRestingChannel : (let note : Note := ⟨1, 2, [5], [⟨0, 0, 3⟩, ⟨1, 0, 3⟩]⟩
    let ch : Channel := ⟨0, false, [plain 0], [⟨0, [note]⟩], [1]⟩
    let s := { stage 0 with
      song := { smallSong (plain 0) with channels := [ch] }
      eng := { (stage 0).eng with clock := still.eng.clock } }
    s.fault = false ∧ s.song.channels[0]? = some ch ∧ ch.bars.getD s.eng.clock.bar 0 = 0 + 1 ∧
    ch.patterns[0]? = some ⟨0, [note]⟩ ∧ partAbs Config.cfg s.eng.clock < note.start ∧ s.eng.activeTones[0]? = some [0] ∧
    0 < s.eng.tones.length) := by
  have hp : partAbs Config.cfg still.eng.clock = 0 := by simp [partAbs, still]
  exact ⟨rfl, rfl, rfl, rfl, hp ▸ Nat.one_pos, rfl, Nat.one_pos⟩

/-- A note of one pitch and a chord under an idle block; an active tone of another note and of the same one. -/
theorem test_meets_SyncSoundingChannel : ∀ pitches ∈ ([[5], [5, 9]] : List (List Nat)),
    (let s := { still with
      song := noteSong pitches
      eng := { still.eng with activeTones := [[]], tones := List.replicate 2 (Tone.zero smallCfg) } }
     let x := s.ctx smallCfg (.syncTones 0)
     x.song = s.song ∧ s.fault = false ∧ (∃ ch p note, s.song.channels[0]? = some ch ∧ ch.muted = false ∧
      ch.bars.getD s.eng.clock.bar 0 = 0 + 1 ∧ ch.patterns[0]? = some p ∧ p.instrument < s.song.instrumentsPerChannel ∧
      slotInstrument s.song (0 * s.song.instrumentsPerChannel + p.instrument) = some (plain 0) ∧
      p.notes[0]? = some note ∧ note.pitches = pitches ∧ note.start ≤ partAbs x.cfg s.eng.clock ∧
      partAbs x.cfg s.eng.clock < note.stop) ∧ s.eng.activeTones[0]? = some [] ∧ (∀ a ∈ s.eng.tones, a.state = .free) ∧
      pitches.length ≤ s.eng.tones.length) ∧
    (stage 0).eng.activeTones[0]? = some [0] ∧ (∃ a, (stage 0).eng.tones[0]? = some a ∧ a.note ≠ some ⟨0, 0, 0⟩) ∧
    { Tone.zero Config.cfg with note := some ⟨0, 0, 0⟩ }.note = some ⟨0, 0, 0⟩ := by
  intro pitches h
  have h' : pitches = [5] ∨ pitches = [5, 9] := by simpa using h
  obtain rfl | rfl := h' <;>
    exact ⟨⟨rfl, rfl, ⟨_, _, _, rfl, rfl, rfl, rfl, Nat.one_pos, rfl, rfl, rfl, by decide +kernel, by decide +kernel⟩, rfl,
      by decide +kernel, by decide⟩, rfl, ⟨_, rfl, by decide⟩, rfl⟩

/-- A configuration whose transitions are seamless. -/
def seamCfg : Cfg := { smallCfg with transitions := ⟨{ (default : Transition) with isSeamless := true }, []⟩ }

/-- A block at the second of two notes that touch, with one tone slot. -/
def atSeam (t : Tone) (active released : List (List Nat)) : State :=
  let s := bench seamCfg (plain 0) t (Slot.zero seamCfg)
  { s with
    song := { smallSong (plain 0) with channels := [⟨0, false, [plain 0],
      [⟨0, [⟨0, 1, [5], [⟨0, 0, 3⟩, ⟨1, 0, 3⟩]⟩, ⟨1, 2, [7], [⟨0, 0, 3⟩, ⟨1, 0, 3⟩]⟩]⟩], [1]⟩] }
    eng := { s.eng with
      activeTones := active, releasedTones := released, clock := ⟨0, 0, 1, 0, .two, true, .two, 0⟩ } }

/-- A tone that the next note carries over, and a block whose one slot is taken. -/
theorem test_meets_SyncSeams : ∀ carries : Bool,
    (let a : Tone := { Tone.zero seamCfg with
      state := if carries then .active else .released, note := if carries then some ⟨0, 0, 0⟩ else none }
     let s := atSeam a (if carries then [[0]] else [[]]) (if carries then [[]] else [[0]])
     let x := s.ctx seamCfg (.syncTones 0)
     x.song = s.song ∧ s.fault = false ∧ (∃ ch p note m, s.song.channels[0]? = some ch ∧ ch.muted = false ∧
      ch.bars.getD s.eng.clock.bar 0 = 0 + 1 ∧ ch.patterns[0]? = some p ∧ p.instrument < s.song.instrumentsPerChannel ∧
      slotInstrument s.song (0 * s.song.instrumentsPerChannel + p.instrument) = some (plain 0) ∧
      p.notes[1]? = some note ∧ p.notes[0]? = some m ∧ note.pitches = [7] ∧ note.start ≤ partAbs x.cfg s.eng.clock ∧
      partAbs x.cfg s.eng.clock < note.stop ∧ m.stop ≤ partAbs x.cfg s.eng.clock ∧ m.stop = note.start) ∧
     (carries = true → s.eng.activeTones[0]? = some [0] ∧ s.eng.tones[0]? = some a ∧ a.instrument = 0 ∧
      a.note = some ⟨0, 0, s.eng.clock.barsPassed⟩ ∧ (x.cfg.transitions.get (plain 0).transition).isSeamless = true) ∧
     (carries = false → s.eng.activeTones[0]? = some [] ∧ ∀ a ∈ s.eng.tones, a.state ≠ .free)) := by
  have h : 1 ≤ partAbs seamCfg ⟨0, 0, 1, 0, .two, true, .two, 0⟩ ∧ partAbs seamCfg ⟨0, 0, 1, 0, .two, true, .two, 0⟩ < 2 := by
    decide +kernel
  intro carries
  cases carries
  · exact ⟨rfl, rfl, ⟨_, _, _, _, rfl, rfl, rfl, rfl, Nat.one_pos, rfl, rfl, rfl, rfl, h.1, h.2, h.1, rfl⟩,
      (fun h => nomatch h), fun _ => ⟨rfl, fun a ha => by rw [List.mem_singleton.mp ha]; decide⟩⟩
  · exact ⟨rfl, rfl, ⟨_, _, _, _, rfl, rfl, rfl, rfl, Nat.one_pos, rfl, rfl, rfl, rfl, h.1, h.2, h.1, rfl⟩,
      (fun _ => ⟨rfl, rfl, rfl, rfl, rfl⟩), fun h => nomatch h⟩

/-- Of the same note in the next bar the tone is ended and a new one made; in the same bar it is kept (R346). -/
theorem test_bars_not_joined :
    (let x := (atSeam (Tone.zero seamCfg) [] []).ctx seamCfg (.syncTones 0)
     let note (bars : Nat) : Option NoteRef := (voicingOf x 0 1 bars (0, ⟨0, [⟨0, 8, [5], []⟩]⟩)).map (fun v => v.1.ref)
     (note 0 == note 1, note 1 == some ⟨0, 0, 1⟩)) = (false, true) := by decide +kernel

/-! The song codec. -/

/-- A codec at a record of one instrument of a kind. -/
def atRecord (kind version : Nat) : Codec :=
  { Codec.fresh (smallSong (plain kind)) with status := .records, version := version, cursor := some (0, 0) }

/-- The text of a record whose payload is the plain one, and `n` zeros behind it. -/
def plainText (k : Codec) (tag : Byte) (n : Nat) : List Byte :=
  tag :: ((tagSymbols Config.cfg (shapeContext k) tag (plainValues Config.cfg (shapeContext k) tag)).map symbolOf ++
    List.replicate n (symbolOf 0))

/-- In the latest version a plain payload reads as the plain values. -/
theorem payload_plain (k : Codec) (tag : Byte) (n : Nat) (hl : k.version = 9) (hs : hasShape Config.cfg tag = true)
    (hp : k.pos = 0) : ∃ next,
    payload Config.cfg { k with text := plainText k tag n } tag = .ok (plainValues Config.cfg (shapeContext k) tag, next) :=
  ⟨_, payload_written Config.cfg { k with text := plainText k tag n } tag _ [tag] (List.replicate n (symbolOf 0)) hl hs
    (plain_legal _ _ _ hl hs) (by rw [hp]; rfl) rfl⟩

theorem plain_record (kind : Nat) (tag : Byte) (hs : hasShape Config.cfg tag = true) : ∃ text next,
    payload Config.cfg { atRecord kind 9 with text := text } tag =
      .ok (plainValues Config.cfg (shapeContext (atRecord kind 9)) tag, next) :=
  ⟨_, payload_plain (atRecord kind 9) tag 0 rfl hs rfl⟩

/-- A record that the latest version does not write can be read: at least as many values as the plain ones, each index
inside its table. -/
theorem old_record (kind version : Nat) (tag : Byte) (hw : ¬(version = 9 ∧ hasShape Config.cfg tag = true)) :
    ∃ text next values, payload Config.cfg { atRecord kind version with text := text } tag = .ok (values, next) ∧
      indicesLegal Config.cfg (shapeContext (atRecord kind version)) tag values = true ∧
      (plainValues Config.cfg (shapeContext (atRecord kind version)) tag).length ≤ values.length := by
  obtain ⟨l, values, h1, h2, h3⟩ := payload_readable Config.cfg (shapeContext (atRecord kind version)) tag hw
  exact ⟨[tag] ++ (l.map symbolOf ++ []), _, values, h3 _ [tag] [] rfl rfl rfl, h1, h2⟩

/-- The records of the older versions and of the tags that version 9 only reads: a first value, or four of them, and each
that is an index inside the table of the envelopes. -/
theorem old_values : (∀ version, version < 9 → ∃ text next v vs,
      payload Config.cfg { atRecord 0 version with text := text } 0x66#8 = .ok (v :: vs, next)) ∧
    (∀ version tag, tag ∈ ([0x79#8, 0x56#8] : List Byte) → version ≤ 9 → ∃ text next v vs,
      payload Config.cfg { atRecord 0 version with text := text } tag = .ok (v :: vs, next) ∧
        (tag = 0x56#8 → 3 ≤ version → v < Config.cfg.envelopes.length)) ∧
    (∀ version, 3 ≤ version → version < 9 → ∃ text next v vs,
      payload Config.cfg { atRecord 0 version with text := text } 0x7A#8 = .ok (v :: vs, next) ∧
        v < Config.cfg.envelopes.length) ∧
    (∀ version tag, tag ∈ ([0x6D#8, 0x71#8] : List Byte) → version < 9 → ∃ text next v vs,
      payload Config.cfg { atRecord 0 version with text := text } tag = .ok (v :: vs, next)) ∧
    (∀ version, 3 ≤ version → version ≤ 9 → ∃ text next envs more,
      payload Config.cfg { atRecord 0 version with text := text } 0x45#8 = .ok (envs ++ more, next) ∧
        envs.length = operatorCount ∧ ∀ e ∈ envs, e < Config.cfg.envelopes.length) := by
  have unshaped : ∀ tag ∈ ([0x79#8, 0x56#8, 0x45#8] : List Byte), hasShape Config.cfg tag = false := by
    intro tag h
    simp only [List.mem_cons, List.not_mem_nil, or_false] at h
    rcases h with rfl | rfl | rfl <;> simp [hasShape, plainSongTags, plainInstrumentTags]
  have first : ∀ (version : Nat) (tag : Byte), ¬(version = 9 ∧ hasShape Config.cfg tag = true) →
      1 ≤ (plainValues Config.cfg (shapeContext (atRecord 0 version)) tag).length → ∃ text next v vs,
        payload Config.cfg { atRecord 0 version with text := text } tag = .ok (v :: vs, next) ∧
        indicesLegal Config.cfg (shapeContext (atRecord 0 version)) tag (v :: vs) = true := by
    intro version tag hw hl
    obtain ⟨text, next, values, h1, h2, h3⟩ := old_record 0 version tag hw
    cases values with
    | nil => exact absurd (Nat.le_trans hl h3) (by simp)
    | cons v vs => exact ⟨text, next, v, vs, h1, h2⟩
  have named : ∀ version tag, 3 ≤ version → namesChannel (shapeContext (atRecord 0 version)) tag = false := by
    intro version tag h
    have : ¬ (shapeContext (atRecord 0 version)).version < 3 := Nat.not_lt.mpr h
    simp [namesChannel, this]
  have long : ∀ x tag, tag ∈ ([0x66#8, 0x79#8, 0x56#8, 0x7A#8, 0x6D#8, 0x71#8] : List Byte) →
      (x : ShapeContext).version ≠ 9 ∨ tag ≠ 0x66#8 → 1 ≤ (plainValues Config.cfg x tag).length := by
    intro x tag h hx
    have : 1 ≤ (plainOwn Config.cfg x tag).length := by
      simp only [List.mem_cons, List.not_mem_nil, or_false] at h
      rcases h with rfl | rfl | rfl | rfl | rfl | rfl <;> simp [plainOwn, latestVersion]
      rcases hx with hx | hx
      · simp [hx]
      · exact absurd rfl hx
    simp only [plainValues, List.length_append]
    omega
  have less : ∀ (v : Nat) (vs : List Nat) (n : Nat), withinTops [some n] (v :: vs) = true → v < n := by
    intro v vs n h
    simpa [withinTops] using h
  refine ⟨fun version hv => ?_, fun version tag ht hv => ?_, fun version h3 hv => ?_, fun version tag ht hv => ?_,
    fun version h3 hv => ?_⟩
  · have hn : version ≠ 9 := Nat.ne_of_lt hv
    obtain ⟨text, next, v, vs, h, -⟩ := first version 0x66#8 (fun h => hn h.1) (long _ _ (by simp) (.inl hn))
    exact ⟨text, next, v, vs, h⟩
  · have hu := unshaped tag (by simp at ht ⊢; tauto)
    obtain ⟨text, next, v, vs, h, hi⟩ := first version tag (by simp [hu])
      (long _ _ (by simp at ht ⊢; tauto) (.inr (by simp at ht; rcases ht with rfl | rfl <;> decide)))
    refine ⟨text, next, v, vs, h, fun hV h3 => ?_⟩
    subst hV
    simp only [indicesLegal, named version _ h3] at hi
    exact less v vs _ hi
  · have hn : version ≠ 9 := Nat.ne_of_lt hv
    obtain ⟨text, next, v, vs, h, hi⟩ := first version 0x7A#8 (fun h => hn h.1) (long _ _ (by simp) (.inl hn))
    simp only [indicesLegal, named version _ h3] at hi
    exact ⟨text, next, v, vs, h, less v vs _ hi⟩
  · have hn : version ≠ 9 := Nat.ne_of_lt hv
    obtain ⟨text, next, v, vs, h, -⟩ := first version tag (fun h => hn h.1)
      (long _ _ (by simp at ht ⊢; tauto) (.inl hn))
    exact ⟨text, next, v, vs, h⟩
  · obtain ⟨text, next, values, h, hi, hl⟩ := old_record 0 version 0x45#8 (by simp [unshaped 0x45#8 (by simp)])
    have h4 : 4 ≤ values.length := by
      refine Nat.le_trans ?_ hl
      simp [plainValues, plainOwn, operatorCount]
      omega
    obtain ⟨a, b, c, d, vs, rfl⟩ : ∃ a b c d vs, values = a :: b :: c :: d :: vs := by
      match values, h4 with
      | a :: b :: c :: d :: vs, _ => exact ⟨a, b, c, d, vs, rfl⟩
    simp only [indicesLegal, named version _ h3] at hi
    refine ⟨text, next, [a, b, c, d], vs, h, rfl, ?_⟩
    simpa [indexTops, withinTops, operatorCount, List.replicate] using hi

/-- The plain values of the small song's records, without drum envelopes. -/
theorem test_plain_values : ∀ c : Cfg, ([0x61#8, 0x67#8, 0x74#8].all (fun t => plainValues c (shapeContext (atRecord 0 9)) t == [1]) = true) ∧
    ([0x65#8, 0x6C#8, 0x6A#8, 0x69#8, 0x6B#8, 0x73#8, 0x72#8, 0x6F#8, 0x63#8, 0x64#8, 0x68#8, 0x75#8, 0x41#8, 0x43#8,
      0x46#8, 0x77#8, 0x76#8, 0x44#8, 0x4C#8, 0x55#8, 0x6D#8, 0x71#8, 0x7A#8, 0x79#8, 0x56#8].all
      (fun t => plainValues c (shapeContext (atRecord 0 9)) t == [0]) = true) ∧
    ([0x6E#8, 0x52#8, 0x57#8, 0x42#8].all (fun t => plainValues c (shapeContext (atRecord 0 9)) t == [0, 0]) = true) ∧
    plainValues c (shapeContext (atRecord 0 9)) 0x47#8 = [] ∧
    plainValues c (shapeContext (atRecord 0 9)) 0x45#8 = [0, 0, 0, 0] := by
  intro c
  have h : ∀ t, carriesDrums c (shapeContext (atRecord 0 9)) t = false := by
    intro t
    have : ((shapeContext (atRecord 0 9)).cursorKind == kindDrumset) = false := by decide
    rw [carriesDrums, this, Bool.and_false]
  refine ⟨?_, ?_, ?_, ?_, ?_⟩ <;> simp only [plainValues, h] <;>
    simp [plainOwn, namesChannel, shapeContext, atRecord, songLevelTags, feedbackEnvelopePacked, latestVersion, Codec.fresh,
      smallSong, emptySong, operatorCount]

/-- A record of `l`, `v` or `T` whose value 0 is legal, and a note of the vectors. -/
theorem test_meets_BitCodecRoundTrips : 63 < 64 ∧ 2 ^ 6 - 1 < 2 ^ 6 ∧ 1 ≤ 1 ∧ 0 < 1 ∧ (1 : Int) ≠ 0 ∧
    (atRecord 0 9).status = .records ∧ (atRecord 0 9).version = 9 ∧ (atRecord 0 9).pos = ([] : List Byte).length ∧
    0x6C#8 ∈ plainSongTags ∧ 0x76#8 ∈ plainInstrumentTags Config.cfg ∧
    tagValues Config.cfg emptySong (plain 0) 0x6C#8 ∈ legalValues Config.cfg (shapeContext (atRecord 0 9)) 0x6C#8 ∧
    tagValues Config.cfg emptySong (plain 0) 0x76#8 ∈ legalValues Config.cfg (shapeContext (atRecord 0 9)) 0x76#8 ∧
    tagValues Config.cfg emptySong (plain 0) 0x54#8 ∈ legalValues Config.cfg (shapeContext (atRecord 0 9)) 0x54#8 ∧
    codecInstrument (atRecord 0 9) (0, 0) = some (plain 0) ∧ (plain 0).operators.length = operatorCount ∧
    (plain 0).harmonicsWave.length = 28 ∧ (plain 0).spectrumWave.length = 30 ∧
    (plain 4).drumSpectrumWaves.length = 12 ∧
    noteLegal { smallCfg with ranges := { (default : FieldRanges) with pitchChannelPitch := 40 } } 40 8
      ⟨0, 8, [12], [⟨0, 0, 3⟩, ⟨8, 0, 3⟩]⟩ = true := by
  have h := test_plain_values Config.cfg
  have legal : ∀ t, hasShape Config.cfg t = true → plainValues Config.cfg (shapeContext (atRecord 0 9)) t ∈
      legalValues Config.cfg (shapeContext (atRecord 0 9)) t := fun t ht => plain_legal _ _ _ rfl ht
  have kind : (plain 0).kind ≠ kindDrumset := by decide
  have l1 : tagValues Config.cfg emptySong (plain 0) 0x6C#8 = plainValues Config.cfg (shapeContext (atRecord 0 9)) 0x6C#8 := by
    have := List.all_eq_true.mp h.2.1 0x6C#8 (by decide)
    rw [beq_iff_eq.mp this]
    simp [tagValues, kind, emptySong]
  have l2 : tagValues Config.cfg emptySong (plain 0) 0x76#8 = plainValues Config.cfg (shapeContext (atRecord 0 9)) 0x76#8 := by
    have := List.all_eq_true.mp h.2.1 0x76#8 (by decide)
    rw [beq_iff_eq.mp this]
    simp only [tagValues, kind, and_false, if_false]
    rfl
  have t0 : tagValues Config.cfg emptySong (plain 0) 0x54#8 = [0] := by simp [tagValues, kind]; rfl
  have mem : 0x76#8 ∈ plainInstrumentTags Config.cfg := by simp [plainInstrumentTags]
  refine ⟨by decide, by decide, by decide, by decide, by decide, rfl, rfl, rfl, by decide, mem, ?_, ?_, ?_, rfl, by decide,
    by decide, by decide, by decide, by decide +kernel⟩
  · rw [l1]
    exact legal _ (by simp [hasShape, plainSongTags])
  · rw [l2]
    exact legal _ (by simp [hasShape, mem])
  · rw [t0, legalValues, if_pos rfl]
    refine List.mem_flatMap.mpr ⟨0, by simp, ?_⟩
    simp [kindDrumset]

/-- A song with a bent note is legal under a configuration with pitches 0 to 40. -/
theorem test_meets_PatternRoundTrip : (let c := { smallCfg with ranges := { (default : FieldRanges) with
      pitchChannelPitch := 40, interval := 9, patternsPerChannel := 1, instrumentsPerChannel := 1, pitchChannelCount := 1 } }
    let song := { smallSong (plain 0) with
      channels := [⟨0, false, [plain 0], [⟨0, [⟨0, 8, [12, 3], [⟨0, 0, 3⟩, ⟨2, 9, 1⟩, ⟨8, -3, 0⟩]⟩]⟩], [1]⟩] }
    songLegal c song = true) ∧
    (∀ rest : List Bool, readChannels Config.cfg false emptySong 0 [] ([] ++ rest) = .ok ([], rest)) ∧
    (let k := { reading [0x70#8, 0x30#8] with song := emptySong, version := 9 }
     k.status = .records ∧ k.pos = ([] : List Byte).length ∧ songLegal Config.cfg emptySong = true ∧
     writeChannels Config.cfg emptySong 0 emptySong.channels = some [] ∧ ([] : List Bool).length + 6 ≤ 6 * 64 ^ 63 ∧
     k.text = [] ++ (0x70#8 :: patternsPayload [] ++ [])) :=
  ⟨by decide +kernel, fun _ => rfl, rfl, rfl, emptySong_legal _, rfl, by decide, by decide +kernel⟩

/-- Legacy filters of the one instrument of the small song: one without a point, one with a point. -/
theorem test_meets_LegacyFilter : (∃ ch, (smallSong (plain 0)).channels[0]? = some ch ∧ ch.instruments[0]? = some (plain 0)) ∧
    (let c := smallCfg
     c.codec.legacyIsResonant (min 7 0) = false ∧ (c.envelopes.get (plain 0).filterEnvelope).kind = 0 ∧
     min 10 ((⟨0, 0, some 10, some 0, none⟩ : LegacyFilter).cutoff.getD c.codec.legacyCutoffDefault) = 10 ∧
     min 10 ((⟨0, 0, some 9, some 0, none⟩ : LegacyFilter).cutoff.getD c.codec.legacyCutoffDefault) ≠ 10) :=
  ⟨⟨_, rfl, rfl⟩, rfl, rfl, rfl, by decide⟩

theorem test_meets_SongTags : (atRecord 0 9).status = .records ∧
    0 < Config.cfg.keyCount ∧ 0 < Config.cfg.scaleCount ∧ 0 < Config.cfg.rhythmCount ∧
    (∀ tag ∈ plainSongTags, ∃ text next, payload Config.cfg { atRecord 0 9 with text := text } tag =
      .ok (plainValues Config.cfg (shapeContext (atRecord 0 9)) tag, next)) ∧
    (∃ text next v vs, payload Config.cfg { atRecord 0 6 with text := text } 0x6D#8 = .ok (v :: vs, next)) ∧
    (let s := { still with turn := .codec, codec := { reading [0x20#8, 0x23#8, 0x39#8] with status := .framing } }
     s.resetPin = false ∧ s.turn = .codec ∧ s.codec.text = [0x20#8] ++ [0x23#8, 0x39#8] ∧
     (2 = [0x20#8].length + if [0x23#8, 0x39#8].head? = some 0x23#8 then 1 else 0) ∧
     s.codec.text[2]? = some 0x39#8 ∧ symbolValue 0x39#8 = some 9 ∧ symbolValue 0x31#8 = some 1) ∧
    (parseJson [0x7B#8]).isNone = true ∧ (parseJson [0x7B#8, 0x7D#8]).isSome = true ∧
    (reading []).text.length ≤ (reading []).pos ∧ writeChannels Config.cfg emptySong 0 [] = some [] := by
  refine ⟨rfl, Nat.succ_pos _, Nat.succ_pos _, Nat.succ_pos _, fun tag h => plain_record 0 tag ?_,
    old_values.2.2.2.1 6 0x6D#8 (by simp) (by decide),
    ⟨rfl, rfl, rfl, rfl, rfl, rfl, rfl⟩, by decide +kernel, by decide +kernel, by decide, rfl⟩
  simp [hasShape, h]

theorem resizeList_first {α : Type} (n : Nat) (l : List α) (f : Nat → α) : ∃ v, (resizeList (n + 1) l f)[0]? = some v := by
  cases l with
  | nil => exact ⟨f 0, by simp [resizeList, List.range_succ_eq_map]⟩
  | cons v t => exact ⟨v, by simp [resizeList]⟩

/-- A channel and an instrument of the small song, and those of the default song at its counts. -/
theorem test_meets_SongTags_settled : ∃ dflt base,
    (smallSong (plain 0)).channels[0]? = some ⟨0, false, [plain 0], [⟨0, []⟩], [0]⟩ ∧
    (resizeCounts Config.cfg.initialSong Config.cfg.initialSong (smallSong (plain 0))).channels[0]? = some dflt ∧
    dflt.instruments[0]? = some base := by
  obtain ⟨ch, h⟩ := resizeList_first 0 (Config.cfg.initialSong.channels.take Config.cfg.initialSong.pitchChannelCount)
    (fun j => (Config.cfg.initialSong.channels.take Config.cfg.initialSong.pitchChannelCount).getD j blankChannel)
  let d := (Config.cfg.initialSong.channels.take Config.cfg.initialSong.pitchChannelCount).getD 0 blankChannel
  obtain ⟨ins, hi⟩ := resizeList_first 0 ch.instruments (fun j => d.instruments.getD j (d.instruments.headD blankInstrument))
  refine ⟨resizeChannel (smallSong (plain 0)) d ch, ins, rfl, ?_, hi⟩
  have : (resizeCounts Config.cfg.initialSong Config.cfg.initialSong (smallSong (plain 0))).channels =
      (resizeList 1 (Config.cfg.initialSong.channels.take Config.cfg.initialSong.pitchChannelCount)
        (fun j => (Config.cfg.initialSong.channels.take Config.cfg.initialSong.pitchChannelCount).getD j blankChannel)).mapIdx
        (fun j ch => resizeChannel (smallSong (plain 0))
          ((Config.cfg.initialSong.channels.take Config.cfg.initialSong.pitchChannelCount).getD j blankChannel) ch) ++
      (resizeList 0 (Config.cfg.initialSong.channels.drop Config.cfg.initialSong.pitchChannelCount)
        (fun j => (Config.cfg.initialSong.channels.drop Config.cfg.initialSong.pitchChannelCount).getD j blankChannel)).mapIdx
        (fun j ch => resizeChannel (smallSong (plain 0))
          ((Config.cfg.initialSong.channels.drop Config.cfg.initialSong.pitchChannelCount).getD j blankChannel) ch) := rfl
  rw [this, List.getElem?_append_left]
  · rw [List.getElem?_mapIdx, h]
    rfl
  · have := (List.getElem?_eq_some_iff.mp h).1
    simpa using this

/-- A noise wave that a text of version 2 set before its `T` made the instrument a chip one is not kept (R441). -/
theorem test_unwritten_wave :
    (withUnwritten blankInstrument { plain kindChip with noiseWave := 3, chipWave := 2 }).noiseWave = 0 ∧
    (withUnwritten blankInstrument { plain kindChip with noiseWave := 3, chipWave := 2 }).chipWave = 2 := by decide

/-- The tags of one value read 0, an index inside every table; of a noise instrument too, and in older versions. -/
theorem test_meets_InstrumentTags : (atRecord 0 9).status = .records ∧ (atRecord 0 9).version = 9 ∧
    (atRecord 0 9).cursor = some (0, 0) ∧ codecInstrument (atRecord 0 9) (0, 0) = some (plain 0) ∧
    codecInstrument (atRecord 2 9) (0, 0) = some (plain kindNoise) ∧ 0 < Config.cfg.envelopes.length ∧
    (∀ kind tag, hasShape Config.cfg tag = true → ∃ text next,
      payload Config.cfg { atRecord kind 9 with text := text } tag =
        .ok (plainValues Config.cfg (shapeContext (atRecord kind 9)) tag, next)) ∧
    (∀ version tag, tag ∈ ([0x79#8, 0x56#8] : List Byte) → version ≤ 9 → ∃ text next v vs,
      payload Config.cfg { atRecord 0 version with text := text } tag = .ok (v :: vs, next) ∧
        (tag = 0x56#8 → 3 ≤ version → v < Config.cfg.envelopes.length)) ∧
    (∃ text next v vs, payload Config.cfg { atRecord 0 8 with text := text } 0x7A#8 = .ok (v :: vs, next) ∧
      v < Config.cfg.envelopes.length) ∧
    (∃ text next v vs, payload Config.cfg { atRecord 0 5 with text := text } 0x71#8 = .ok (v :: vs, next)) ∧
    (∃ ds, plainValues Config.cfg (shapeContext (atRecord 4 9)) 0x76#8 = 0 :: ([] ++ ds) ∧
      ds.length = if carriesDrums Config.cfg (shapeContext (atRecord 4 9)) 0x76#8 then drumCount else 0) := by
  refine ⟨rfl, rfl, rfl, rfl, rfl, table_pos _, plain_record, old_values.2.1,
    old_values.2.2.1 8 (by decide) (by decide), old_values.2.2.2.1 5 0x71#8 (by simp) (by decide), ?_⟩
  refine ⟨if carriesDrums Config.cfg (shapeContext (atRecord 4 9)) 0x76#8 then List.replicate drumCount 0 else [], rfl, ?_⟩
  split <;> simp

theorem test_meets_CompoundTags : (plain 0).operators.length = operatorCount ∧ 0 < Config.cfg.envelopes.length ∧
    plainOwn Config.cfg (shapeContext (atRecord 0 9)) 0x66#8 =
      [] ++ (if filterEnvelopePacked Config.cfg 9 then [0] else []) ∧
    plainOwn Config.cfg (shapeContext (atRecord 0 9)) 0x50#8 = [0, 0, 0, 0] ++
      (if operatorEnvelopeTag Config.cfg 9 = some 0x50#8 then [0, 0, 0, 0] else []) ∧
    plainOwn Config.cfg (shapeContext (atRecord 0 9)) 0x51#8 = [0, 0, 0, 0] ++
      (if operatorEnvelopeTag Config.cfg 9 = some 0x51#8 then [0, 0, 0, 0] else []) ∧
    (∀ kind tag, hasShape Config.cfg tag = true → ∃ text next,
      payload Config.cfg { atRecord kind 9 with text := text } tag =
        .ok (plainValues Config.cfg (shapeContext (atRecord kind 9)) tag, next)) ∧
    (∃ text next v vs, payload Config.cfg { atRecord 0 8 with text := text } 0x66#8 = .ok (v :: vs, next)) ∧
    (∀ version, 3 ≤ version → version ≤ 9 → ∃ text next envs more,
      payload Config.cfg { atRecord 0 version with text := text } 0x45#8 = .ok (envs ++ more, next) ∧
        envs.length = operatorCount ∧ ∀ e ∈ envs, e < Config.cfg.envelopes.length) :=
  ⟨rfl, table_pos _, rfl, rfl, rfl, plain_record, old_values.1 8 (by decide), old_values.2.2.2.2⟩

/-- Symbols of value 0, any number of them. -/
theorem zeros_read (tag : Byte) (n : Nat) :
    symbolsAt (tag :: List.replicate n (symbolOf 0)) 1 n = .ok (List.replicate n 0) := by
  have h := symbolsAt_written [tag] (List.replicate n 0) [] (fun x hx => by rw [List.eq_of_mem_replicate hx]; decide)
  simpa using h

/-- The four malformed bit-streams: any bits behind the prefix, an index into an empty list, a note of one part in a bar
of none; and a `p` of no bits where a pattern stands. -/
theorem test_meets_MalformedPatterns : 0 < 1 ∧ 7 < 8 ∧ (⟨0, []⟩ : PitchHistory).recent[7]? = none ∧
    (∃ i b, readShapeIndex Config.cfg.codec (shapeIndexCode Config.cfg.codec 0) = some (i, b) ∧
      (⟨[], ⟨0, []⟩⟩ : PatternReader).shapes[i]? = none) ∧
    (let shape : Shape := ⟨1, 0, [⟨false, 1, 0⟩]⟩
     0 < 0 + shapeLength shape ∧
     readPitches Config.cfg.codec 0 shape.size ⟨0, [0]⟩ [true, false, false, false] = .ok ([0], ⟨0, [0]⟩, []) ∧
     readPitches Config.cfg.codec 0 (shape.pins.filter ShapePin.bend).length ⟨0, [0]⟩ [] = .ok ([], ⟨0, [0]⟩, [])) ∧
    (let k := reading [0x70#8, 0x30#8]
     symbolsAt k.text (k.pos + 1) 1 = .ok [0] ∧ symbolsAt k.text (k.pos + 2) 0 = .ok [] ∧
     symbolsAt k.text 2 (digitsValue []) = .ok [] ∧
     readChannels Config.cfg (legacyDuration Config.cfg k) k.song 0 k.song.channels (valueBits []) = .error 0) := by
  refine ⟨Nat.one_pos, by decide, rfl, ?_, ⟨by decide, rfl, rfl⟩, rfl, rfl, rfl, rfl⟩
  have h : ((List.range recentShapes).find? (fun i =>
      (shapeIndexCode Config.cfg.codec i).isPrefixOf (shapeIndexCode Config.cfg.codec 0))).isSome = true := by
    rw [List.find?_isSome]
    exact ⟨0, by decide, by simp⟩
  obtain ⟨i, hi⟩ := Option.isSome_iff_exists.mp h
  exact ⟨i, _, by rw [readShapeIndex, hi]; rfl, rfl⟩

theorem test_meets_BitTags : nextInstrument (atRecord 0 9).song none = (0, 0) ∧
    (∃ text start, payload Config.cfg { atRecord 0 9 with text := text, cursor := none } 0x54#8 =
      .ok (plainValues Config.cfg (shapeContext { atRecord 0 9 with cursor := none }) 0x54#8, start)) ∧
    plainValues Config.cfg (shapeContext { atRecord 0 9 with cursor := none }) 0x54#8 = [0] ∧
    (∀ kind tag width, (let k := { atRecord kind 9 with text := tag :: List.replicate (symbolsFor width) (symbolOf 0) }
      k.cursor = some (0, 0) ∧ codecInstrument k (0, 0) = some (plain kind) ∧
      symbolsAt k.text (k.pos + 1) (symbolsFor width) = .ok (List.replicate (symbolsFor width) 0))) ∧
    (let k := { atRecord 0 9 with text := [0x62#8, 0x30#8] }
     symbolsAt k.text (k.pos + 1) (symbolsFor (bitsFor (k.song.patternsPerChannel + 1) *
       (k.song.channels.length * k.song.barCount))) = .ok [0]) ∧
    (let k := { reading [0x70#8, 0x30#8] with song := barSong }
     symbolsAt k.text (k.pos + 1) 1 = .ok [0] ∧ symbolsAt k.text (k.pos + 2) 0 = .ok [] ∧
     symbolsAt k.text 2 (digitsValue []) = .ok [] ∧
     readChannels Config.cfg (legacyDuration Config.cfg k) k.song 0 k.song.channels (valueBits []) =
       .ok (k.song.channels, [])) ∧
    (reading [0x70#8]).text.length = (reading [0x70#8]).pos + 1 ∧ symbolValue 0x21#8 = none :=
  ⟨rfl, ⟨_, payload_plain { atRecord 0 9 with cursor := none } 0x54#8 0 rfl (by simp [hasShape]) rfl⟩, by
    simp [plainValues, plainOwn, namesChannel, shapeContext, atRecord, carriesDrums], fun kind tag width =>
    ⟨rfl, rfl, zeros_read tag _⟩, rfl, ⟨rfl, rfl, rfl, rfl⟩, rfl, rfl⟩

/-- A `channels` field that is no list reads as missing (R439). -/
theorem test_json_channels_kind (c : Cfg) :
    importJson c (.obj [(ascii "channels", .num 5 0)]) = importJson c (.obj []) := rfl

/-- No instrument under the cursor, and a `T` behind the last instrument. -/
theorem test_meets_BitTags_noInstrument :
    (∀ tag : Byte, hasShape Config.cfg tag = true → ∃ text r,
      payload Config.cfg { atRecord 0 9 with text := text, cursor := none } tag = .ok r) ∧
    hasShape Config.cfg 0x76#8 = true ∧ hasShape Config.cfg 0x6D#8 = true ∧
    codecInstrument (atRecord 0 9) (nextInstrument (atRecord 0 9).song (atRecord 0 9).cursor) = none ∧
    (∃ text r, payload Config.cfg { atRecord 0 9 with text := text } 0x54#8 = .ok r) := by
  refine ⟨fun tag h => ?_, by simp [hasShape, plainInstrumentTags], by simp [hasShape, plainInstrumentTags], rfl, ?_⟩
  · obtain ⟨n, h⟩ := payload_plain { atRecord 0 9 with cursor := none } tag 0 rfl h rfl
    exact ⟨_, _, h⟩
  · obtain ⟨text, n, h⟩ := plain_record 0 0x54#8 (by simp [hasShape])
    exact ⟨_, _, h⟩

end Sys2Proof.Machine
end

section
/-! SUPPORT. What the read commands of the control and result registers return (`47_system.md` R379, R383). -/

namespace Sys2Proof.Machine

/-! Response words (`00_scope.md` R7). -/

/-- A value that is no NaN is returned as its own pattern. -/
theorem response_of_not_isNaN {x : Num} (h : x.isNaN = false) : x.response = x.bits := by
  simp [Num.response, h]

/-- A NaN is returned as some NaN pattern. -/
theorem response_isNaN_of_isNaN {x : Num} (h : x.isNaN = true) : Num.isNaN ⟨x.response⟩ = true := by
  simpa [Num.response, h] using nanPattern_isNaN _

/-! How a read command ends. -/

/-- A first fault leaves the state that the statements name (R452). -/
theorem raise_eq_withFault {s : State} (h : s.fault = false) (f : Raise) :
    raise f s = s.withFault f.kind.code f.info := by
  simp [raise, h, State.withFault]

/-- A read that has a value adds it as one response word, under a fault too (R457). -/
theorem readCommand_ok (s : State) (w : Word) :
    readCommand s (.ok w) = { s with responses := s.responses ++ [w] } := rfl

theorem readCommand_error {s : State} (h : s.fault = false) (f : Raise) :
    readCommand s (.error f) = s.withFault f.kind.code f.info := by
  rw [← raise_eq_withFault h]
  simp [readCommand, h]

/-! Control registers (R44). -/

theorem exec_cfgr (u : Nat) (s : State) :
    exec (.cfgr u) s = .next { s with responses := s.responses ++ [controlRead s u] } := rfl

/-- The flags of `STATUS` have different weights, so the word is their sum. -/
theorem statusWord_toNat (playing fault audioActive : Bool) :
    (statusWord false playing fault audioActive).toNat =
      (if playing then 2 else 0) + (if fault then 4 else 0) + (if audioActive then 8 else 0) := by
  revert playing fault audioActive
  decide

theorem controlRead_status (s : State) : controlRead s 4 = statusWord false s.playing s.fault s.audioActive := rfl

/-- The latch's code and detail are narrower than a response word, so each is returned whole. -/
theorem controlRead_faultCode_toNat (s : State) : (controlRead s 5).toNat = s.faultCode.toNat :=
  Nat.mod_eq_of_lt (s.faultCode.isLt.trans (by decide))

theorem controlRead_faultInfo_toNat (s : State) : (controlRead s 6).toNat = s.faultInfo.toNat :=
  Nat.mod_eq_of_lt (s.faultInfo.isLt.trans (by decide))

/-- The reserved numbers read as 0. -/
theorem controlRead_reserved (s : State) {u : Nat} (h : 12 ≤ u) : controlRead s u = 0#64 := by
  obtain ⟨k, rfl⟩ := Nat.exists_eq_add_of_le' h
  rfl

/-! Result registers (R12). -/

/-- There are sixteen result registers. -/
theorem exists_result_iff {s : State} {u : Nat} : (∃ v, s.result u = some v) ↔ u ≤ 15 := by
  rw [← Option.isSome_iff_exists, State.result, isSome_getElem?, Vector.size_toArray]
  omega

theorem result_eq_none {s : State} {u : Nat} (h : 15 < u) : s.result u = none := by
  rw [Option.eq_none_iff_forall_ne_some]
  exact fun v hv => absurd (exists_result_iff.mp ⟨v, hv⟩) (by omega)

theorem exec_rdr (u : Nat) (s : State) :
    exec (.rdr u) s = .next (readCommand s
      ((orRaise (s.result u) ⟨.badIndex, headerInfo (Instr.header (.rdr u))⟩).map Num.response)) := rfl

theorem exec_rdr_of_result {s : State} {u : Nat} {v : Num} (h : s.result u = some v) :
    exec (.rdr u) s = .next { s with responses := s.responses ++ [v.response] } := by
  simp only [exec_rdr, h, orRaise, Except.map, readCommand_ok]

theorem exec_rdr_of_no_result {s : State} {u : Nat} (h : s.result u = none) (clear : s.fault = false) :
    exec (.rdr u) s = .next (s.withFault 2#8 (headerInfo (Instr.header (.rdr u)))) := by
  simp only [exec_rdr, h, orRaise, Except.map, readCommand_error clear, FaultKind.code]

end Sys2Proof.Machine

namespace Sys2Proof.Proofs

open Sys2Proof.Machine

/-- Settles O18: the word is the model's `Machine.controlRead`, taken register by register. -/
theorem controlRead : Obligations.ControlRead := by
  intro s u
  refine ⟨Machine.controlRead s u, exec_cfgr u s, ?sampleRate, ?volume, ?liveDeadline, ?rngSeed, ?status, ?faultCode,
    ?faultInfo, ?bar, ?beat, ?part, ?tick, ?limit, controlRead_reserved s⟩
  case sampleRate | volume | liveDeadline | limit => rintro rfl; exact response_of_not_isNaN
  case status => rintro rfl; rw [controlRead_status, statusWord_toNat]
  case faultCode => rintro rfl; exact controlRead_faultCode_toNat s
  case faultInfo => rintro rfl; exact controlRead_faultInfo_toNat s
  case rngSeed | bar | beat | part | tick => rintro rfl; rfl

/-- Settles O20, by whether the number names one of the sixteen registers. -/
theorem readResultRegister : Obligations.ReadResultRegister := by
  intro s u
  refine ⟨fun v hv => ?inside, exists_result_iff.mpr, fun above clear => ?outside⟩
  case inside => exact ⟨v.response, exec_rdr_of_result hv, response_of_not_isNaN, response_isNaN_of_isNaN⟩
  case outside => exact exec_rdr_of_no_result (result_eq_none above) clear

end Sys2Proof.Proofs
end

section
set_option Elab.async false
/-! SUPPORT. The clock and the number of tone slots, which every operation of the engine but the clock's own keeps, and
the clock's ranges, which the clock's own operations keep (`10_state.md` R15, `46_master_orchestrator.md` R336 to
R341). -/

namespace Sys2Proof.Machine

/-- The clock and the number of tone slots are the same in two engines. -/
structure Engine.SameFrame (e e' : Engine) : Prop where
  clock : e'.clock = e.clock
  tones : e'.tones.length = e.tones.length

theorem Engine.SameFrame.refl (e : Engine) : e.SameFrame e := ⟨rfl, rfl⟩

theorem Engine.SameFrame.trans {e e' e'' : Engine} (h : e.SameFrame e') (h' : e'.SameFrame e'') : e.SameFrame e'' :=
  ⟨h'.clock.trans h.clock, h'.tones.trans h.tones⟩

/-- A fold keeps the frame that each of its steps keeps. -/
theorem Engine.SameFrame.foldl {α : Type} {f : Engine → α → Engine} (h : ∀ (e : Engine) (a : α), e.SameFrame (f e a))
    (l : List α) (e : Engine) : e.SameFrame (l.foldl f e) := by
  induction l generalizing e with
  | nil => exact .refl e
  | cons a t ih => exact (h e a).trans (ih _)

/-! Tone pool (R27, R28). -/

theorem Engine.setTone_sameFrame (e : Engine) (u : Nat) (t : Tone) : e.SameFrame (e.setTone u t) :=
  ⟨rfl, List.length_set⟩

theorem Engine.setSlot_sameFrame (e : Engine) (u : Nat) (i : Slot) : e.SameFrame (e.setSlot u i) := ⟨rfl, rfl⟩

theorem freeTone_sameFrame (e : Engine) (u : Nat) : e.SameFrame (freeTone e u) := ⟨rfl, List.length_modify ..⟩

theorem releaseTone_sameFrame (e : Engine) (u : Nat) (t : Tone) : e.SameFrame (releaseTone e u t) :=
  ⟨rfl, List.length_set⟩

theorem newTone_sameFrame {x : Ctx} {e e' : Engine} {islot k asker u : Nat}
    (h : newTone x e islot k asker = .ok (u, e')) : e.SameFrame e' := by
  unfold newTone at h
  split at h
  · nomatch h
  · cases h
    exact ⟨rfl, List.length_set⟩

theorem freeTones_sameFrame (p : Tone → Bool) (e : Engine) : e.SameFrame (freeTones p e) := by
  refine Engine.SameFrame.foldl (fun e u => ?_) _ e
  split
  · split
    · exact .refl e
    · split
      · exact freeTone_sameFrame e u
      · exact .refl e
  · exact .refl e

theorem Engine.setBiquad_sameFrame (e : Engine) (u v w : Nat) (f : Biquad) : e.SameFrame (e.setBiquad u v w f) := by
  unfold Engine.setBiquad
  split
  case h_2 | h_5 => exact ⟨rfl, rfl⟩
  case h_1 | h_3 | h_4 => exact ⟨rfl, List.length_modify ..⟩

/-! Waves, synth loops and effects. -/

theorem buildWave_sameFrame (x : Ctx) (k : WaveKey) (e : Engine) : e.SameFrame (buildWave x k e) := by
  rw [buildWave_frame]
  exact ⟨rfl, rfl⟩

theorem ensureWave_sameFrame (x : Ctx) (k : WaveKey) (e : Engine) : e.SameFrame (ensureWave x k e) := by
  unfold ensureWave
  split
  · exact .refl e
  · exact buildWave_sameFrame x k e

theorem ensureOptional_sameFrame (x : Ctx) (k : Option WaveKey) (e : Engine) : e.SameFrame (ensureOptional x k e) := by
  cases k with
  | none => exact .refl e
  | some k => exact ensureWave_sameFrame x k e

theorem synthSlot_sameFrame (x : Ctx) (u n : Nat) (ins : Instrument) (t : Tone) (e : Engine) :
    e.SameFrame (synthSlot x u n ins t e) :=
  (ensureOptional_sameFrame x (waveOf ins t) e).trans ⟨rfl, List.length_set⟩

theorem chainLoop_sameFrame (x : Ctx) (ins : Instrument) (pos n j : Nat) (i : Slot) (e : Engine) :
    e.SameFrame (chainLoop x ins pos n j i e).2 := by
  induction n generalizing j i e with
  | zero => exact .refl e
  | succ n ih => exact ⟨(ih ..).clock, (ih ..).tones⟩

theorem runEffects_sameFrame (x : Ctx) (u pos n : Nat) (ins : Instrument) (i : Slot) (e : Engine) :
    e.SameFrame (runEffects x u pos n ins i e) :=
  (chainLoop_sameFrame x ins pos n 0 _ e).trans (Engine.setSlot_sameFrame _ u _)

theorem synthDirect_sameFrame {x : Ctx} {kind u n : Nat} {e e' : Engine} (h : synthDirect x kind u n e = .ok e') :
    e.SameFrame e' := by
  unfold synthDirect at h
  split at h
  · nomatch h
  · split at h
    · nomatch h
    · split at h
      · nomatch h
      · split at h
        · cases h
          exact synthSlot_sameFrame ..
        · nomatch h

theorem pluckDirect_sameFrame {x : Ctx} {u v : Nat} {e e' : Engine} (h : pluckDirect x u v e = .ok e') :
    e.SameFrame e' := by
  unfold pluckDirect at h
  split at h
  · nomatch h
  · split at h
    · split at h
      · nomatch h
      · cases h
        exact (ensureWave_sameFrame x .impulse e).trans ⟨rfl, List.length_set⟩
    · nomatch h

/-! Tone synchronisation (R345 to R347). -/

theorem endTone_sameFrame (x : Ctx) (e : Engine) (u : Nat) : e.SameFrame (endTone x e u) := by
  unfold endTone
  split
  · exact .refl e
  · split
    · exact freeTone_sameFrame e u
    · split
      · exact releaseTone_sameFrame e u _
      · exact freeTone_sameFrame e u

theorem endTones_sameFrame (x : Ctx) (us : List Nat) (e : Engine) : e.SameFrame (endTones x us e) :=
  .foldl (endTone_sameFrame x) us e

theorem capTones_sameFrame (x : Ctx) (c : Nat) (e : Engine) : e.SameFrame (capTones x c e) := ⟨rfl, List.length_mapIdx⟩


/-- Tone `k` of a chord made anew (R345). -/
def createTone (x : Ctx) (v : Voicing) (k : Nat) (e : Engine) : Except Raise Engine :=
  (newTone x e v.islot k v.channel).map (fun r => { r.2 with tones := r.2.tones.modify r.1 (fillTone v k) })

/-- With no tone at place `k` of the channel's queue, one is made. -/
theorem syncOne_of_no_tone (x : Ctx) (v : Voicing) {k : Nat} {e : Engine}
    (h : (e.activeTones.getD v.channel [])[k]? = none) : syncOne x v k e = createTone x v k e := by
  simp only [syncOne, h]
  rfl

/-- A tone at place `k` of the channel's queue is kept, carried over, or ended and made anew. -/
theorem syncOne_of_tone (x : Ctx) (v : Voicing) {k u : Nat} {e : Engine} {t : Tone}
    (hq : (e.activeTones.getD v.channel [])[k]? = some u) (ht : e.tones[u]? = some t) :
    syncOne x v k e =
      if t.note = some v.ref then .ok e
      else if keepSeamless v t then .ok (e.setTone u (carryOver v k t))
      else createTone x v k (endTone x e u) := by
  simp only [syncOne, hq, ht]
  rfl

/-- What one place of a chord leaves: the engine, a tone carried over, or a new tone behind one that may have ended. -/
theorem syncOne_cases (x : Ctx) (v : Voicing) (k : Nat) (e : Engine) :
    syncOne x v k e = .ok e ∨ (∃ u t, syncOne x v k e = .ok (e.setTone u (carryOver v k t))) ∨
      syncOne x v k e = createTone x v k e ∨ ∃ u, syncOne x v k e = createTone x v k (endTone x e u) := by
  unfold syncOne
  split
  · exact .inr (.inr (.inl rfl))
  · rename_i u _
    split
    · exact .inr (.inr (.inl rfl))
    · rename_i t _
      split
      · exact .inl rfl
      · split
        · exact .inr (.inl ⟨u, t, rfl⟩)
        · exact .inr (.inr (.inr ⟨u, rfl⟩))

theorem createTone_sameFrame {x : Ctx} {v : Voicing} {k : Nat} {e e' : Engine} (h : createTone x v k e = .ok e') :
    e.SameFrame e' := by
  unfold createTone at h
  cases hn : newTone x e v.islot k v.channel with
  | error f => simp [hn, Except.map] at h
  | ok r =>
    simp only [hn, Except.map, Except.ok.injEq] at h
    subst h
    exact (newTone_sameFrame hn).trans ⟨rfl, List.length_modify ..⟩

/-- The only fault of synchronisation is `ToneOverflow`, with the channel as its detail (R455). -/
def overflowOf (c : Nat) : Raise := ⟨.toneOverflow, BitVec.ofNat 32 (c % 2 ^ 16)⟩

/-- The overflow of some channel of a song. -/
def Overflows (song : Song) (f : Raise) : Prop := ∃ d, d < song.channelCount ∧ f = overflowOf d

theorem createTone_error {x : Ctx} {v : Voicing} {k : Nat} {e : Engine} {f : Raise}
    (h : createTone x v k e = .error f) : f = overflowOf v.channel := by
  unfold createTone newTone at h
  split at h
  · cases h; rfl
  · simp [Except.map] at h

theorem syncOne_sameFrame {x : Ctx} {v : Voicing} {k : Nat} {e e' : Engine} (h : syncOne x v k e = .ok e') :
    e.SameFrame e' := by
  obtain hs | ⟨u, t, hs⟩ | hs | ⟨u, hs⟩ := syncOne_cases x v k e <;> rw [hs] at h
  · cases h; exact .refl e
  · cases h; exact Engine.setTone_sameFrame e u _
  · exact createTone_sameFrame h
  · exact (endTone_sameFrame x e u).trans (createTone_sameFrame h)

theorem syncOne_error {x : Ctx} {v : Voicing} {k : Nat} {e : Engine} {f : Raise} (h : syncOne x v k e = .error f) :
    f = overflowOf v.channel := by
  obtain hs | ⟨u, t, hs⟩ | hs | ⟨u, hs⟩ := syncOne_cases x v k e <;> rw [hs] at h
  · nomatch h
  · nomatch h
  · exact createTone_error h
  · exact createTone_error h

/-- An operation that leaves an engine in the relation `R` where it completes, and takes a fault of `P` where it does
not. -/
structure Engine.Leaves (R : Engine → Engine → Prop) (P : Raise → Prop) (e : Engine) (r : Except Raise Engine) : Prop where
  ok : ∀ {e'}, r = .ok e' → R e e'
  error : ∀ {f}, r = .error f → P f

theorem Engine.Leaves.of_ok {R : Engine → Engine → Prop} {P : Raise → Prop} {e e' : Engine} (h : R e e') :
    e.Leaves R P (.ok e') := ⟨fun he => by cases he; exact h, fun he => nomatch he⟩

theorem Engine.Leaves.of_error {R : Engine → Engine → Prop} {P : Raise → Prop} {e : Engine} {f : Raise} (h : P f) :
    e.Leaves R P (.error f) := ⟨fun he => (nomatch he), fun he => by cases he; exact h⟩

/-- What an operation leaves, seen from another engine. -/
theorem Engine.Leaves.mono {R R' : Engine → Engine → Prop} {P P' : Raise → Prop} {e e0 : Engine}
    {r : Except Raise Engine} (h : e.Leaves R P r) (hR : ∀ {e'}, R e e' → R' e0 e') (hP : ∀ {f}, P f → P' f) :
    e0.Leaves R' P' r :=
  ⟨fun he => hR (h.ok he), fun he => hP (h.error he)⟩

/-- What a second operation leaves of the engine that a first one left. -/
theorem Engine.Leaves.after {P : Raise → Prop} {e e' : Engine} {r : Except Raise Engine} (h : e.SameFrame e')
    (h' : e'.Leaves Engine.SameFrame P r) : e.Leaves Engine.SameFrame P r := h'.mono h.trans id

theorem syncMany_leaves (x : Ctx) (v : Voicing) (n k : Nat) (e : Engine) :
    e.Leaves Engine.SameFrame (· = overflowOf v.channel) (syncMany x v n k e) := by
  induction n generalizing k e with
  | zero => exact .of_ok (.refl e)
  | succ n ih =>
    unfold syncMany
    split
    next f hs => exact .of_error (syncOne_error hs)
    next e' hs => exact (ih _ e').after (syncOne_sameFrame hs)

theorem voicingOf_channel {x : Ctx} {c part bars : Nat} {p : Nat × Pattern} {r : Voicing × Nat}
    (h : voicingOf x c part bars p = some r) : r.1.channel = c := by
  unfold voicingOf at h
  split at h
  · nomatch h
  · dsimp only at h
    split at h
    · nomatch h
    · cases h; rfl

theorem syncTones_leaves (x : Ctx) (c : Nat) (e : Engine) :
    e.Leaves Engine.SameFrame (· = overflowOf c) (syncTones x c e) := by
  unfold syncTones
  dsimp only
  split
  · exact .of_ok ((endTones_sameFrame ..).trans (capTones_sameFrame ..))
  · rename_i v want hv
    obtain ⟨p, -, hp⟩ := Option.bind_eq_some_iff.mp hv
    have many := syncMany_leaves x v want 0 e
    rw [voicingOf_channel hp] at many
    split
    next f hf => exact .of_error (many.error hf)
    next e1 h1 => exact .of_ok (((many.ok h1).trans (endTones_sameFrame ..)).trans (capTones_sameFrame ..))

theorem syncFrom_leaves (x : Ctx) (n c : Nat) (e : Engine) :
    e.Leaves Engine.SameFrame (fun f => ∃ d, d < c + n ∧ f = overflowOf d) (syncFrom x n c e) := by
  induction n generalizing c e with
  | zero => exact .of_ok (.refl e)
  | succ n ih =>
    unfold syncFrom
    split
    next f hf => exact .of_error ⟨c, by omega, (syncTones_leaves x c e).error hf⟩
    next e' h' =>
      refine ((ih (c + 1) e').after ((syncTones_leaves x c e).ok h')).mono id ?_
      rintro f ⟨d, hd, rfl⟩
      exact ⟨d, by omega, rfl⟩

theorem syncAll_leaves (x : Ctx) (e : Engine) :
    e.Leaves Engine.SameFrame (Overflows x.song) (syncAll x e) := by
  refine (syncFrom_leaves x x.song.channelCount 0 e).mono id (fun ⟨d, hd, hf⟩ => ⟨d, by omega, hf⟩)

/-! The clock's own operations (R336 to R341). -/

/-- The number of tone slots is the same, and a clock inside the ranges of a legal song is inside them again. -/
structure Engine.KeepsRange (c : Cfg) (song : Song) (e e' : Engine) : Prop where
  clock : songLegal c song = true → e.clock.Legal c song → e'.clock.Legal c song
  tones : e'.tones.length = e.tones.length

theorem Engine.SameFrame.keepsRange {e e' : Engine} (h : e.SameFrame e') (c : Cfg) (song : Song) :
    e.KeepsRange c song e' := ⟨fun _ => h.clock ▸ id, h.tones⟩

theorem Engine.KeepsRange.trans {c : Cfg} {song : Song} {e e' e'' : Engine} (h : e.KeepsRange c song e')
    (h' : e'.KeepsRange c song e'') : e.KeepsRange c song e'' :=
  ⟨fun hs hc => h'.clock hs (h.clock hs hc), h'.tones.trans h.tones⟩

/-- The numbers of a legal song that bound the clock (R47). -/
theorem songLegal_bounds {c : Cfg} {s : Song} (h : songLegal c s = true) :
    1 ≤ s.beatsPerBar ∧ 1 ≤ s.barCount ∧ 1 ≤ s.loopLength ∧ s.loopStart + s.loopLength ≤ s.barCount := by
  simp only [songLegal, globalsLegal, Bool.and_eq_true, decide_eq_true_eq] at h
  omega

/-- The clock at the start of a legal song. -/
theorem Clock.legal_of_zero {c : Cfg} {song : Song} {k : Clock} (h : songLegal c song = true)
    (start : k.bar = 0 ∧ k.beat = 0 ∧ k.part = 0 ∧ k.tick = 0) : k.Legal c song := by
  obtain ⟨hbar, hbeat, hpart, htick⟩ := start
  have b := songLegal_bounds h
  refine ⟨?_, ?_, ?_, ?_⟩ <;> simp only [hbar, hbeat, hpart, htick, Cfg.partsPerBeat, Cfg.ticksPerPart] <;> omega

theorem Clock.Legal.advanceBar {c : Cfg} {song : Song} {k : Clock} (hs : songLegal c song = true)
    (h : k.Legal c song) : (k.advanceBar song).Legal c song := by
  have b := songLegal_bounds hs
  refine ⟨?_, h.beat, h.part, h.tick⟩
  show nextBar song k.bar < song.barCount
  unfold nextBar
  split <;> omega

theorem Clock.Legal.advancePart {c : Cfg} {song : Song} {k : Clock} (hs : songLegal c song = true)
    (h : k.Legal c song) : (advancePart c song k).Legal c song := by
  have b := songLegal_bounds hs
  obtain ⟨hbar, hbeat, hpart, htick⟩ := h
  unfold Machine.advancePart
  split
  · split
    · exact Clock.Legal.advanceBar hs ⟨hbar, by dsimp; omega, Nat.succ_pos _, htick⟩
    · exact ⟨hbar, by dsimp; omega, Nat.succ_pos _, htick⟩
  · exact ⟨hbar, hbeat, by dsimp; omega, htick⟩

theorem partEnd_leaves (x : Ctx) (e : Engine) :
    e.Leaves (Engine.KeepsRange x.cfg x.song) (Overflows x.song) (partEnd x e) :=
  (syncAll_leaves x { e with clock := advancePart x.cfg x.song e.clock }).mono
    (fun h => ⟨fun hs hc => (h.keepsRange x.cfg x.song).clock hs (hc.advancePart hs), h.tones⟩) id

theorem ageTone_sameFrame (e : Engine) (u : Nat) : e.SameFrame (ageTone e u) := by
  unfold ageTone
  split
  · exact .refl e
  · split
    · exact freeTone_sameFrame e u
    · exact Engine.setTone_sameFrame e u _

theorem sanitize_sameFrame (song : Song) (e : Engine) : e.SameFrame (sanitize song e) := ⟨rfl, List.length_map ..⟩

theorem tickBoundary_sameFrame (x : Ctx) (e : Engine) : e.SameFrame (tickBoundary x e) := by
  have aged : e.SameFrame (e.releasedTones.flatten.foldl ageTone e) := .foldl ageTone_sameFrame _ e
  exact ⟨aged.clock, (List.length_map ..).trans aged.tones⟩

theorem tickEnd_leaves (x : Ctx) (e : Engine) :
    e.Leaves (Engine.KeepsRange x.cfg x.song) (Overflows x.song) (tickEnd x e) := by
  have swept := tickBoundary_sameFrame x e
  unfold tickEnd
  dsimp only
  split
  · have carried := partEnd_leaves x
      { tickBoundary x e with clock := { (tickBoundary x e).clock with tick := 0 } }
    cases hp : partEnd x { tickBoundary x e with clock := { (tickBoundary x e).clock with tick := 0 } } with
    | error f => exact .of_error (carried.error hp)
    | ok e2 =>
      obtain ⟨clock, tones⟩ := carried.ok hp
      refine .of_ok ⟨fun hs hc => ?_, tones.trans swept.tones⟩
      obtain ⟨hbar, hbeat, hpart, htick⟩ := hc
      rw [swept.clock] at clock
      obtain ⟨hbar, hbeat, hpart, htick⟩ := clock hs ⟨hbar, hbeat, hpart, Nat.succ_pos _⟩
      exact ⟨hbar, hbeat, hpart, htick⟩
  · rename_i hne
    refine .of_ok ⟨fun _ hc => ?_, swept.tones⟩
    rw [swept.clock] at hne ⊢
    obtain ⟨hbar, hbeat, hpart, htick⟩ := hc
    exact ⟨hbar, hbeat, hpart, by show e.clock.tick + 1 < _; omega⟩

theorem advanceClock_leaves (x : Ctx) (n : Nat) (e : Engine) :
    e.Leaves (Engine.KeepsRange x.cfg x.song) (Overflows x.song) (advanceClock x n e) := by
  unfold advanceClock
  dsimp only
  generalize e.clock.tickSampleCountdown.sub (Num.ofNat n) = left
  have legal_left : e.clock.Legal x.cfg x.song →
      { e.clock with tickSampleCountdown := left : Clock }.Legal x.cfg x.song :=
    fun ⟨hbar, hbeat, hpart, htick⟩ => ⟨hbar, hbeat, hpart, htick⟩
  split
  · have ticked := tickEnd_leaves x { e with clock := { e.clock with tickSampleCountdown := left } }
    cases ht : tickEnd x { e with clock := { e.clock with tickSampleCountdown := left } } with
    | error f => exact .of_error (ticked.error ht)
    | ok e2 =>
      obtain ⟨clock, tones⟩ := ticked.ok ht
      refine .of_ok ⟨fun hs hc => ?_, tones⟩
      obtain ⟨hbar, hbeat, hpart, htick⟩ := clock hs (legal_left hc)
      exact ⟨hbar, hbeat, hpart, htick⟩
  · exact .of_ok ⟨fun _ => legal_left, rfl⟩

end Sys2Proof.Machine
end

section
set_option Elab.async false
/-! SUPPORT. The faults of a tone's update, and what the loop of `RUN` leaves (`43_tone_voicing.md` R212, R217,
`46_master_orchestrator.md` R330, `60_exceptions.md` R453). -/

namespace Sys2Proof.Machine

/-! Faults of the parameter update. -/

/-- `UnknownEnvelope` of tone slot `u` for an entry of the table whose type is none of the nine. -/
def UnknownEnvelopeOf (c : Cfg) (u : Nat) (f : Raise) : Prop :=
  ∃ k, 9 ≤ (c.envelopes.get k).kind ∧
    f = ⟨.unknownEnvelope, BitVec.ofNat 32 (u % 2 ^ 16 + (c.envelopes.get k).kind % 2 ^ 8 * 2 ^ 16)⟩

/-- `UnknownInstrument` of an instrument slot whose kind is none of the eight. -/
def UnknownInstrumentOf (song : Song) (f : Raise) : Prop :=
  ∃ i ins, slotInstrument song i = some ins ∧ 8 ≤ ins.kind ∧
    f = ⟨.unknownInstrument, BitVec.ofNat 32 (i % 2 ^ 16 + ins.kind % 2 ^ 8 * 2 ^ 16)⟩

/-- The nine numbers of R180 name a curve each. -/
theorem exists_envelopeCurve (c : Cfg) {kind : Nat} (h : kind < 9) (t b s n o : Num) :
    ∃ v, envelopeCurve c kind t b s n o = some v := by
  interval_cases kind <;> exact ⟨_, rfl⟩

theorem envelopeEnds_error {x : Ctx} {u key entry : Nat} {s b n : Ends} {f : Raise}
    (h : envelopeEnds x u key entry s b n = .error f) : UnknownEnvelopeOf x.cfg u f := by
  refine ⟨entry, Nat.le_of_not_lt fun known => ?_, ?_⟩
  · obtain ⟨v, hv⟩ := exists_envelopeCurve x.cfg known s.start b.start (x.cfg.envelopes.get entry).speed n.start
      (x.free .voice [u, key])
    obtain ⟨w, hw⟩ := exists_envelopeCurve x.cfg known s.finish b.finish (x.cfg.envelopes.get entry).speed n.finish
      (x.free .voice [u, key + 1])
    simp only [envelopeEnds, hv, hw] at h
    nomatch h
  · unfold envelopeEnds at h
    dsimp only at h
    split at h
    · nomatch h
    · cases h; rfl

/-- A fault of a step is the fault of the operation that it maps. -/
theorem error_of_map_error {α β : Type} {r : Except Raise α} {g : α → β} {f : Raise} (h : r.map g = .error f) :
    r = .error f := by
  cases r with
  | ok a => nomatch h
  | error e => cases h; rfl

theorem updatePulse_error {x : Ctx} {v : Voice} {t : Tone} {f : Raise} (h : updatePulse x v t = .error f) :
    UnknownEnvelopeOf x.cfg v.u f := by
  unfold updatePulse at h
  split at h
  · exact envelopeEnds_error (error_of_map_error h)
  · split at h <;> nomatch h

theorem updateOperators_error {x : Ctx} {v : Voice} {k : Nat} {ops : List Operator} {t : Tone} {f : Raise}
    (h : updateOperators x v k ops t = .error f) : UnknownEnvelopeOf x.cfg v.u f := by
  induction ops generalizing k t with
  | nil => nomatch h
  | cons o rest ih =>
    unfold updateOperators at h
    split at h
    next g hg => cases h; exact envelopeEnds_error hg
    next env _ => exact ih h

theorem updateLevels_error {x : Ctx} {v : Voice} {t : Tone} {f : Raise} (h : updateLevels x v t = .error f) :
    UnknownEnvelopeOf x.cfg v.u f := by
  unfold updateLevels at h
  split at h
  · split at h
    next g hg => cases h; exact updateOperators_error hg
    next t' _ => exact envelopeEnds_error (error_of_map_error h)
  · nomatch h

theorem updateFilters_error {x : Ctx} {v : Voice} {t : Tone} {f : Raise} (h : updateFilters x v t = .error f) :
    UnknownEnvelopeOf x.cfg v.u f := by
  unfold updateFilters at h
  split at h
  · nomatch h
  · exact envelopeEnds_error (error_of_map_error h)

/-- The two faults of the update of a tone (R212, R217). -/
theorem computeTone_error {x : Ctx} {k : Clock} {u n : Nat} {ins : Instrument} {t : Tone} {f : Raise}
    (hi : slotInstrument x.song t.instrument = some ins) (h : computeTone x k u n ins t = .error f) :
    UnknownInstrumentOf x.song f ∨ UnknownEnvelopeOf x.cfg u f := by
  unfold computeTone at h
  split at h
  · rename_i unknown
    cases h
    exact .inl ⟨t.instrument, ins, hi, unknown, rfl⟩
  · dsimp only at h
    split at h
    next g hg => cases h; exact .inr (updatePulse_error hg)
    next t2 _ =>
      split at h
      next g hg => cases h; exact .inr (updateLevels_error hg)
      next t3 _ =>
        split at h
        next g hg => cases h; exact .inr (updateFilters_error hg)
        next t4 _ => nomatch h

/-! The voices and the limiter of a run. -/

/-- A fault of a tone's update in a block of `count` tone slots. -/
def VoiceFault (c : Cfg) (song : Song) (count : Nat) (f : Raise) : Prop :=
  UnknownInstrumentOf song f ∨ ∃ u, u < count ∧ UnknownEnvelopeOf c u f

theorem voiceTones_leaves (x : Ctx) (n : Nat) (us : List Nat) (e : Engine) :
    e.Leaves Engine.SameFrame (VoiceFault x.cfg x.song e.tones.length) (voiceTones x n us e) := by
  induction us generalizing e with
  | nil => exact .of_ok (.refl e)
  | cons u rest ih =>
    unfold voiceTones
    split
    · exact ih e
    · rename_i t ht
      split
      · exact ih e
      · rename_i ins hi
        split
        next f hf =>
          refine .of_error ((computeTone_error hi hf).imp_right fun unknown => ⟨u, ?_, unknown⟩)
          exact (List.getElem?_eq_some_iff.mp ht).1
        next t' _ =>
          have voiced := (Engine.setTone_sameFrame e u t').trans (synthSlot_sameFrame x u n ins t' _)
          exact (ih _).mono voiced.trans (fun {f} hf => voiced.tones ▸ hf)

theorem voiceSlot_leaves (x : Ctx) (pos n channel islot : Nat) (e : Engine) :
    e.Leaves Engine.SameFrame (VoiceFault x.cfg x.song e.tones.length) (voiceSlot x pos n channel islot e) := by
  have voices := voiceTones_leaves x n (tonesOf e channel islot) e
  unfold voiceSlot
  split
  next f hf => exact .of_error (voices.error hf)
  next e1 h1 =>
    split
    · split
      · exact .of_ok ((voices.ok h1).trans (runEffects_sameFrame ..))
      · exact .of_ok (voices.ok h1)
    · exact .of_ok (voices.ok h1)

theorem voiceSlots_leaves (x : Ctx) (pos n count i : Nat) (e : Engine) :
    e.Leaves Engine.SameFrame (VoiceFault x.cfg x.song e.tones.length) (voiceSlots x pos n count i e) := by
  induction count generalizing i e with
  | zero => exact .of_ok (.refl e)
  | succ count ih =>
    have first := voiceSlot_leaves x pos n (slotChannel x.song i) i e
    unfold voiceSlots
    split
    next f hf => exact .of_error (first.error hf)
    next e' h' => exact (ih _ e').mono (first.ok h').trans (fun {f} hf => (first.ok h').tones ▸ hf)

theorem limiterLoop_sameFrame (x : Ctx) (n j : Nat) (e : Engine) : e.SameFrame (limiterLoop x n j e) := by
  induction n generalizing j e with
  | zero => exact .refl e
  | succ n ih => exact ⟨(ih ..).clock, (ih ..).tones⟩

/-! The loop of a run. -/

/-- A fault of a run (R345, R453). -/
def RunFault (c : Cfg) (song : Song) (count : Nat) (f : Raise) : Prop :=
  Overflows song f ∨ VoiceFault c song count f

theorem runOnce_leaves (x : Ctx) (pos remaining : Nat) (e : Engine) :
    e.Leaves (Engine.KeepsRange x.cfg x.song) (RunFault x.cfg x.song e.tones.length)
      ((runOnce x pos remaining e).map Prod.snd) := by
  unfold runOnce
  split
  next f hf => exact .of_error (.inl ((syncAll_leaves x e).error hf))
  next e1 h1 =>
    have synced := (syncAll_leaves x e).ok h1
    dsimp only
    generalize nextRunLength remaining (e1.runMax x.cfg) e1.clock = n
    split
    next f hf => exact .of_error (.inr (synced.tones ▸ (voiceSlots_leaves x pos n _ 0 e1).error hf))
    next e2 h2 =>
      have limited := (synced.trans ((voiceSlots_leaves x pos n _ 0 e1).ok h2)).trans (limiterLoop_sameFrame x n pos e2)
      have ends := advanceClock_leaves x n (limiterLoop x n pos e2)
      cases ha : advanceClock x n (limiterLoop x n pos e2) with
      | error f => exact .of_error (.inl (ends.error ha))
      | ok e3 => exact .of_ok ((limited.keepsRange ..).trans (ends.ok ha))

theorem runLoop_leaves (x : Ctx) (fuel pos remaining : Nat) (e : Engine) :
    e.Leaves (Engine.KeepsRange x.cfg x.song) (RunFault x.cfg x.song e.tones.length)
      (runLoop x fuel pos remaining e) := by
  induction fuel generalizing pos remaining e with
  | zero => exact .of_ok ((Engine.SameFrame.refl e).keepsRange ..)
  | succ fuel ih =>
    have once := runOnce_leaves { x with pos := pos } pos remaining e
    unfold runLoop
    split
    · exact .of_ok ((Engine.SameFrame.refl e).keepsRange ..)
    · split
      next f hf => exact .of_error (once.error (by rw [hf]; rfl))
      next n e' h' =>
        have first : e.KeepsRange x.cfg x.song e' := once.ok (by rw [h']; rfl)
        exact (ih _ _ e').mono first.trans (fun {f} hf => first.tones ▸ hf)

theorem runEngine_leaves (x : Ctx) (n : Nat) (e : Engine) :
    e.Leaves (Engine.KeepsRange x.cfg x.song) (RunFault x.cfg x.song e.tones.length) (runEngine x n e) := by
  have loop := runLoop_leaves x n 0 n (openBuffers x n e)
  unfold runEngine
  cases hl : runLoop x n 0 n (openBuffers x n e) with
  | error f => exact .of_error (loop.error hl)
  | ok e' => exact .of_ok ⟨(loop.ok hl).clock, (loop.ok hl).tones⟩

/-- A free number below a bound that is not 0. -/
theorem Ctx.pick_lt (x : Ctx) (key : List Nat) {n : Nat} (h : 0 < n) : x.pick key n < n := Nat.mod_lt _ h

/-- A run that faults leaves the clock inside the ranges of a legal song. -/
theorem wreckEngine_clock_legal (x : Ctx) (e : Engine) (h : songLegal x.cfg x.song = true) :
    (wreckEngine x e).clock.Legal x.cfg x.song := by
  have b := songLegal_bounds h
  exact ⟨x.pick_lt _ b.2.1, x.pick_lt _ b.1, x.pick_lt _ (Nat.succ_pos _), x.pick_lt _ (Nat.succ_pos _)⟩

end Sys2Proof.Machine
end

section
set_option Elab.async false
/-! SUPPORT. What a step can do to the control state, the song and the clock's ranges (`10_state.md` R15, R43, R44, R46,
`47_system.md` R371, R378, R380, R381). -/

namespace Sys2Proof.Machine

/-! Commands that write no control register and no song. -/

/-- The control state and the song are the same in two states, and the clock stays inside its ranges. -/
structure State.SameControl (s t : State) : Prop where
  clock : songLegal Config.cfg s.song = true → s.eng.clock.Legal Config.cfg s.song →
    t.eng.clock.Legal Config.cfg s.song
  latch : t.fault = s.fault ∧ t.faultCode = s.faultCode ∧ t.faultInfo = s.faultInfo := by exact ⟨rfl, rfl, rfl⟩
  controls : t.sampleRate = s.sampleRate ∧ t.volume = s.volume ∧ t.liveDeadlineSeconds = s.liveDeadlineSeconds := by
    exact ⟨rfl, rfl, rfl⟩
  place : t.seq = s.seq ∧ t.busy = s.busy := by exact ⟨rfl, rfl⟩
  song : t.song = s.song := by rfl

theorem State.SameControl.refl (s : State) : s.SameControl s := { clock := fun _ => id }

/-- A command's end: a state with the same control state, or a fault taken in one. -/
def State.EndsIn (s t : State) : Prop := ∃ u, s.SameControl u ∧ (t = u ∨ ∃ f, t = raise f u)

theorem State.SameControl.endsIn {s t : State} (h : s.SameControl t) : s.EndsIn t := ⟨t, h, .inl rfl⟩

theorem State.EndsIn.refl (s : State) : s.EndsIn s := (State.SameControl.refl s).endsIn

theorem raise_endsIn (f : Raise) (s : State) : s.EndsIn (raise f s) := ⟨s, .refl s, .inr ⟨f, rfl⟩⟩

theorem command_endsIn {s : State} {r : Except Raise State} (h : ∀ {t}, r = .ok t → s.SameControl t) :
    s.EndsIn (command s r) := by
  obtain ⟨-, he⟩ | ⟨-, ⟨t, ht, he⟩ | ⟨f, -, he⟩⟩ := command_cases s r <;> rw [he]
  · exact .refl s
  · exact (h ht).endsIn
  · exact raise_endsIn f s

/-- The value that a mapped operation answers. -/
theorem ok_of_map_ok {α β : Type} {r : Except Raise α} {g : α → β} {b : β} (h : r.map g = .ok b) :
    ∃ a, r = .ok a ∧ b = g a := by
  cases r with
  | ok a => cases h; exact ⟨a, rfl, rfl⟩
  | error f => nomatch h

theorem onEngine_endsIn {s : State} {r : Except Raise Engine}
    (h : ∀ {e}, r = .ok e → s.eng.KeepsRange Config.cfg s.song e) : s.EndsIn (onEngine s r) := by
  obtain ⟨-, he⟩ | ⟨-, ⟨e, hr, he⟩ | ⟨f, -, he⟩⟩ := onEngine_cases s r <;> rw [he]
  · exact .refl s
  · exact State.SameControl.endsIn { clock := (h hr).clock }
  · exact raise_endsIn f s

/-- A command on the engine that keeps its frame wherever it has a value. -/
theorem onEngine_map_endsIn {α : Type} {s : State} {r : Except Raise α} {g : α → Engine}
    (h : ∀ a, s.eng.SameFrame (g a)) : s.EndsIn (onEngine s (r.map g)) :=
  onEngine_endsIn fun hr => by
    obtain ⟨a, -, rfl⟩ := ok_of_map_ok hr
    exact (h a).keepsRange ..

theorem readCommand_endsIn (s : State) (r : Except Raise Word) : s.EndsIn (readCommand s r) := by
  obtain ⟨w, -, he⟩ | ⟨f, -, ⟨-, he⟩ | ⟨-, he⟩⟩ := readCommand_cases s r <;> rw [he]
  · exact State.SameControl.endsIn { clock := fun _ => id }
  · exact .refl s
  · exact raise_endsIn f s

/-- A command that only answers in the result registers. -/
theorem command_answer_endsIn (s : State) (l : List Num) : s.EndsIn (command s (.ok (answer s l))) :=
  command_endsIn fun h => by cases h; exact { clock := fun _ => id }

theorem command_map_answer_endsIn {α : Type} (s : State) (r : Except Raise α) (l : α → List Num) :
    s.EndsIn (command s (r.map fun a => answer s (l a))) :=
  command_endsIn fun h => by obtain ⟨a, -, rfl⟩ := ok_of_map_ok h; exact { clock := fun _ => id }

/-- A command that answers and changes the engine inside its frame. -/
theorem command_map_endsIn {α : Type} {s : State} {r : Except Raise α} {g : α → Engine} {l : α → List Num}
    (h : ∀ a, s.eng.SameFrame (g a)) : s.EndsIn (command s (r.map fun a => answer { s with eng := g a } (l a))) :=
  command_endsIn fun hr => by
    obtain ⟨a, -, rfl⟩ := ok_of_map_ok hr
    exact { clock := ((h a).keepsRange ..).clock }

theorem onCodec_endsIn (s : State) (f : Codec → Codec) : s.EndsIn (onCodec s f) := by
  unfold onCodec
  split
  · exact State.SameControl.endsIn { clock := fun _ => id }
  · exact .refl s

/-! The commands whose ends take more than one of these rules. -/

theorem play_endsIn (s : State) : s.EndsIn (command s (.ok (play Config.cfg s))) :=
  command_endsIn fun h => by
    cases h
    unfold play
    split
    · exact .refl s
    · exact { clock := fun _ ⟨hbar, hbeat, hpart, htick⟩ => ⟨hbar, hbeat, hpart, htick⟩ }

theorem toneNewWith_endsIn (x : Ctx) (s : State) (u : Nat) : s.EndsIn (toneNewWith x s u) :=
  command_endsIn fun h => by
    split at h
    · nomatch h
    · split at h
      · nomatch h
      next hn => cases h; exact { clock := ((newTone_sameFrame hn).keepsRange ..).clock }

theorem toneComputeWith_endsIn (x : Ctx) (s : State) (u n : Nat) : s.EndsIn (toneComputeWith x s u n) := by
  unfold toneComputeWith
  split
  · exact .refl s
  · split
    · exact raise_endsIn _ s
    · split
      · split
        next e he =>
          have kept : s.eng.SameFrame e := by
            unfold computeSlot at he
            split at he
            · nomatch he
            · obtain ⟨t', -, rfl⟩ := ok_of_map_ok he
              exact Engine.setTone_sameFrame ..
          exact State.SameControl.endsIn { clock := (kept.keepsRange ..).clock }
        next f _ => exact ⟨{ s with eng := s.eng.setTone u _ }, { clock := fun _ => id }, .inr ⟨f, rfl⟩⟩
      · exact raise_endsIn _ s

theorem toneReleaseWith_endsIn (x : Ctx) (s : State) (u : Nat) : s.EndsIn (toneReleaseWith x s u) :=
  onEngine_endsIn fun h => by
    split at h
    · split at h
      · cases h; exact (releaseTone_sameFrame ..).keepsRange ..
      · nomatch h
    · nomatch h

theorem fxRunWith_endsIn (x : Ctx) (s : State) (u pos n : Nat) : s.EndsIn (fxRunWith x s u pos n) :=
  onEngine_endsIn fun h => by
    split at h
    · nomatch h
    · split at h
      · cases h; exact (runEffects_sameFrame ..).keepsRange ..
      · nomatch h

theorem clkAdvWith_endsIn (s : State) (i : Instr) (n : Nat) : s.EndsIn (clkAdvWith (s.ctx Config.cfg i) s n) :=
  onEngine_endsIn fun h => by
    split at h
    · exact (advanceClock_leaves _ n s.eng).ok h
    · nomatch h

theorem syncTonesWith_endsIn (x : Ctx) (s : State) (u : Nat) : s.EndsIn (syncTonesWith x s u) :=
  onEngine_endsIn fun h => by
    split at h
    · exact ((syncTones_leaves x u s.eng).ok h).keepsRange ..
    · nomatch h

theorem runWith_endsIn {s t : State} {i : Instr} {n : Nat} (h : runWith (s.ctx Config.cfg i) s n = .next t) :
    s.EndsIn t := by
  unfold runWith at h
  split at h
  · cases h; exact .refl s
  · split at h
    · cases h; exact .refl s
    · split at h
      · cases h; exact raise_endsIn _ s
      · split at h
        · cases h
          unfold runPlaying
          split
          next e he => exact State.SameControl.endsIn { clock := ((runEngine_leaves (s.ctx Config.cfg i) n s.eng).ok he).clock }
          next f _ =>
            exact ⟨{ s with eng := wreckEngine (s.ctx Config.cfg i) s.eng }, { clock := fun hs _ => wreckEngine_clock_legal (s.ctx Config.cfg i) s.eng hs }, .inr ⟨f, rfl⟩⟩
        · split at h
          · nomatch h
          · cases h
            exact State.SameControl.endsIn { clock := fun _ => id }

theorem synthDirect_endsIn (s : State) (x : Ctx) (kind u n : Nat) :
    s.EndsIn (onEngine s (synthDirect x kind u n s.eng)) :=
  onEngine_endsIn fun h => (synthDirect_sameFrame h).keepsRange ..

/-- An instruction that writes a control register or the song. -/
def Rewrites (i : Instr) : Prop := i = .reset ∨ (∃ u value, i = .cfgw u value) ∨ i = .songLoad ∨ i = .songSet

theorem exec_endsIn {i : Instr} {s t : State} (other : ¬ Rewrites i) (h : exec i s = .next t) : s.EndsIn t := by
  cases i
  case reset => exact absurd (.inl rfl) other
  case cfgw u value => exact absurd (.inr (.inl ⟨u, value, rfl⟩)) other
  case songLoad => exact absurd (.inr (.inr (.inl rfl))) other
  case songSet => exact absurd (.inr (.inr (.inr rfl))) other
  case run => exact runWith_endsIn h
  all_goals cases h
  case play => exact play_endsIn s
  case pause | live => exact command_endsIn fun h => by cases h; exact { clock := fun _ => id }
  case cfgr | rdr | rdw | rdm => exact readCommand_endsIn s _
  case setr u v => exact command_endsIn fun h => by obtain ⟨_, -, rfl⟩ := ok_of_map_ok h; exact { clock := fun _ => id }
  case wrw => exact onEngine_map_endsIn fun _ => ⟨rfl, rfl⟩
  case ifft => exact onEngine_map_endsIn fun _ => ⟨rfl, rfl⟩
  case waveSine | waveChip | waveNoise | waveSpectrum | waveHarmonics | waveImpulse =>
    exact onEngine_map_endsIn fun _ => buildWave_sameFrame ..
  case waveInval => exact onEngine_endsIn fun h => by cases h; exact ⟨fun _ => id, rfl⟩
  case sanitize => exact onEngine_endsIn fun h => by cases h; exact (sanitize_sameFrame s.song s.eng).keepsRange ..
  case barNext => exact onEngine_endsIn fun h => by cases h; exact ⟨fun hs hc => hc.advanceBar hs, rfl⟩
  case bqLoadgrad => exact onEngine_map_endsIn fun _ => Engine.setBiquad_sameFrame ..
  case bqStep => exact command_map_endsIn fun _ => Engine.setBiquad_sameFrame ..
  case coefLp1 | coefHp1 | coefLp2 | coefHp2 | coefPeak | coefHshelf1 | coefAp1 | coefFdap | envSteady | envCustom | envTwang
      | envSwell | envTremolo | envTremolo2 | envPunch | envFlare | envDecay | expr | relscale | vibRamp | pitchHz =>
    exact command_answer_endsIn s _
  case fptHz | fptGain | volcomp | lfo | arpIndex => exact command_map_answer_endsIn s _ _
  case toneNew => exact toneNewWith_endsIn ..
  case toneCompute => exact toneComputeWith_endsIn ..
  case toneRelease => exact toneReleaseWith_endsIn ..
  case toneFree => exact onEngine_map_endsIn fun _ => freeTone_sameFrame ..
  case synChip | synFm | synNoise | synSpectrum | synDrumset | synHarmonics | synPwm | synGuitar =>
    exact synthDirect_endsIn ..
  case gtrPluck => exact onEngine_endsIn fun h => (pluckDirect_sameFrame h).keepsRange ..
  case fxDistort | fxBitcrush | fxFilter | fxPan | fxChorus | fxReverb =>
    exact command_map_endsIn fun _ => Engine.setSlot_sameFrame ..
  case fxRun => exact fxRunWith_endsIn ..
  case fxTail => exact onEngine_map_endsIn fun _ => Engine.setSlot_sameFrame ..
  case limit => exact command_endsIn fun h => by cases h; exact { clock := fun _ => id }
  case clkAdv => exact clkAdvWith_endsIn ..
  case tickEnd => exact onEngine_endsIn fun h => (tickEnd_leaves _ s.eng).ok h
  case partEnd => exact onEngine_endsIn fun h => (partEnd_leaves _ s.eng).ok h
  case syncTones => exact syncTonesWith_endsIn ..
  all_goals exact onCodec_endsIn s _

end Sys2Proof.Machine
end

section
set_option Elab.async false
/-! SUPPORT. The commands that write a control register or the song, and the two invariants of a step (`10_state.md` R15,
R43, R44, R46, `47_system.md` R378, R380, R381, R480). -/

namespace Sys2Proof.Machine

/-! Taking a fault keeps what the invariants speak of. -/

/-- The control invariant of a block that may be at work on a command. -/
structure State.WorkInv (s : State) : Prop where
  latch : s.latchLegal
  controls : s.controlsLegal
  seq : s.seq = .idle
  song : songLegal Config.cfg s.song = true

theorem State.controlInv_iff {s : State} : s.ControlInv ↔ s.WorkInv ∧ s.busy = false :=
  ⟨fun ⟨latch, controls, ⟨seq, busy⟩, song⟩ => ⟨⟨latch, controls, seq, song⟩, busy⟩,
    fun ⟨⟨latch, controls, seq, song⟩, busy⟩ => ⟨latch, controls, ⟨seq, busy⟩, song⟩⟩

theorem State.WorkInv.raise {s : State} (h : s.WorkInv) (f : Raise) : (raise f s).WorkInv :=
  ⟨raise_latchLegal h.latch, by simpa [State.controlsLegal] using h.controls, by simp, by simpa using h.song⟩

theorem State.ClockInv.raise {s : State} (h : s.ClockInv) (f : Raise) : (raise f s).ClockInv :=
  ⟨by simpa using h.song, by simpa using h.clock⟩

theorem State.SameControl.workInv {s t : State} (h : s.SameControl t) (hs : s.WorkInv) : t.WorkInv := by
  obtain ⟨-, ⟨hfault, hcode, hinfo⟩, ⟨hrate, hvolume, hdeadline⟩, ⟨hseq, -⟩, hsong⟩ := h
  obtain ⟨latch, controls, seq, song⟩ := hs
  constructor
  · simpa only [State.latchLegal, hfault, hcode, hinfo] using latch
  · simpa only [State.controlsLegal, hrate, hvolume, hdeadline] using controls
  · exact hseq.trans seq
  · exact hsong ▸ song

theorem State.SameControl.clockInv {s t : State} (h : s.SameControl t) (hs : s.ClockInv) : t.ClockInv :=
  ⟨h.song ▸ hs.song, h.song ▸ h.clock hs.song hs.clock⟩

theorem State.EndsIn.workInv {s t : State} (h : s.EndsIn t) (hs : s.WorkInv) : t.WorkInv := by
  obtain ⟨u, hu, rfl | ⟨f, rfl⟩⟩ := h
  · exact hu.workInv hs
  · exact (hu.workInv hs).raise f

theorem State.EndsIn.clockInv {s t : State} (h : s.EndsIn t) (hs : s.ClockInv) : t.ClockInv := by
  obtain ⟨u, hu, rfl | ⟨f, rfl⟩⟩ := h
  · exact hu.clockInv hs
  · exact (hu.clockInv hs).raise f

theorem State.EndsIn.busy {s t : State} (h : s.EndsIn t) (hs : s.busy = false) : t.busy = false := by
  obtain ⟨u, hu, rfl | ⟨f, rfl⟩⟩ := h
  · exact hu.place.2.trans hs
  · exact raise_busy f u

/-! `RESET` (R480). -/

/-- The song after reset is legal under every configuration (assumption 8). -/
theorem initialSong_legal (c : Cfg) : songLegal c c.initialSong = true := by
  unfold Cfg.initialSong
  split
  · assumption
  · simp [songLegal, globalsLegal, emptySong, Cfg.scaleCount, Cfg.keyCount, Cfg.rhythmCount, Cfg.tempoMax,
      Cfg.beatsPerBarMax, Cfg.barCountMax]

/-- The reset values of the control registers are legal (R44). -/
theorem resetControls_legal : (resetSampleRate.isFinite = true ∧ Num.zero.lt resetSampleRate = true) ∧
    (Num.one.isFinite = true ∧ Num.zero.le .one = true) ∧
      (resetLiveDeadline.isFinite = true ∧ Num.zero.le resetLiveDeadline = true) := by decide +kernel

theorem resetBlock_workInv (s : State) : (resetBlock Config.cfg s).WorkInv :=
  ⟨⟨fun _ => ⟨rfl, rfl⟩, fun h => nomatch h⟩, resetControls_legal, rfl, initialSong_legal _⟩

theorem resetBlock_clockInv (s : State) : (resetBlock Config.cfg s).ClockInv :=
  ⟨initialSong_legal _, Clock.legal_of_zero (initialSong_legal _) ⟨rfl, rfl, rfl, rfl⟩⟩

/-! `CFGW` (R378). -/

/-- A legal write of a control register, by the register (R44, R378). -/
theorem controlWrite_eq_some {s : State} {u : Nat} {value : Word} {w : ControlWrite}
    (h : controlWrite s u value = some w) :
    (w = .sampleRate ⟨value⟩ ∧ Num.isFinite ⟨value⟩ = true ∧ Num.zero.lt ⟨value⟩ = true) ∨
      (w = .volume ⟨value⟩ ∧ Num.isFinite ⟨value⟩ = true ∧ Num.zero.le ⟨value⟩ = true) ∨
      (w = .liveDeadline ⟨value⟩ ∧ Num.isFinite ⟨value⟩ = true ∧ Num.zero.le ⟨value⟩ = true) ∨
      w = .rngSeed value ∨
      (w = .bar value.toNat ∧ s.playing = false ∧ value.toNat < s.song.barCount) := by
  unfold controlWrite at h
  dsimp only at h
  split at h
  case h_4 => simp_all
  case h_6 => nomatch h
  all_goals
    split at h
    · simp_all
    · nomatch h

/-- `CFGW` under a set latch leaves the state, an illegal one takes `BadConfig`, a legal one is applied. -/
theorem exec_cfgw_cases {s t : State} {u : Nat} {value : Word} (h : exec (.cfgw u value) s = .next t) :
    t = s ∨ (∃ f, t = raise f s) ∨ ∃ w, controlWrite s u value = some w ∧ t = applyControl Config.cfg w s := by
  have ht : t = cfgwWith (s.ctx Config.cfg (.cfgw u value)) s u value := (Host.Outcome.next.inj h).symm
  subst ht
  unfold cfgwWith
  obtain ⟨-, he⟩ | ⟨-, ⟨t, ht, he⟩ | ⟨f, -, he⟩⟩ := command_cases s
    ((orRaise (controlWrite s u value) ⟨.badConfig, (s.ctx Config.cfg (.cfgw u value)).info⟩).map
      (fun w => applyControl (s.ctx Config.cfg (.cfgw u value)).cfg w s))
  · exact .inl he
  · obtain ⟨w, hw, rfl⟩ := ok_of_map_ok ht
    refine .inr (.inr ⟨w, ?_, he⟩)
    cases hc : controlWrite s u value with
    | none => rw [hc] at hw; nomatch hw
    | some w' => rw [hc] at hw; cases hw; rfl
  · exact .inr (.inl ⟨f, he⟩)

theorem applyControl_workInv {s : State} {u : Nat} {value : Word} {w : ControlWrite}
    (h : controlWrite s u value = some w) (hs : s.WorkInv) : (applyControl Config.cfg w s).WorkInv := by
  obtain ⟨latch, ⟨hrate, hvolume, hdeadline⟩, seq, song⟩ := hs
  obtain ⟨rfl, legal⟩ | ⟨rfl, legal⟩ | ⟨rfl, legal⟩ | rfl | ⟨rfl, -⟩ := controlWrite_eq_some h
  · exact ⟨latch, ⟨legal, hvolume, hdeadline⟩, seq, song⟩
  · exact ⟨latch, ⟨hrate, legal, hdeadline⟩, seq, song⟩
  · exact ⟨latch, ⟨hrate, hvolume, legal⟩, seq, song⟩
  · exact ⟨latch, ⟨hrate, hvolume, hdeadline⟩, seq, song⟩
  · exact ⟨latch, ⟨hrate, hvolume, hdeadline⟩, seq, song⟩

theorem applyControl_clockInv {s : State} {u : Nat} {value : Word} {w : ControlWrite}
    (h : controlWrite s u value = some w) (hs : s.ClockInv) : (applyControl Config.cfg w s).ClockInv := by
  obtain ⟨song, clock⟩ := hs
  obtain ⟨rfl, -⟩ | ⟨rfl, -⟩ | ⟨rfl, -⟩ | rfl | ⟨rfl, -, hbar⟩ := controlWrite_eq_some h
  case inr.inr.inr.inr =>
    exact ⟨song, hbar, (songLegal_bounds song).1, Nat.succ_pos _, Nat.succ_pos _⟩
  all_goals exact ⟨song, clock⟩

theorem applyControl_busy (c : Cfg) (w : ControlWrite) (s : State) : (applyControl c w s).busy = s.busy := by
  cases w <;> rfl

/-! `SONG.LOAD` and `SONG.SET` (R380, R381). -/

/-- `SONG.LOAD` leaves the state, refuses the payload, or installs an accepted song. -/
theorem exec_songLoad_cases {s t : State} (h : exec .songLoad s = .next t) :
    t = s ∨ (∃ f rest, t = raise f { s with payload := rest }) ∨
      ∃ v rest, songAccepted Config.cfg v = true ∧ t = installSong Config.cfg v { s with payload := rest } := by
  have ht : t = songLoadWith (s.ctx Config.cfg .songLoad) s := (Host.Outcome.next.inj h).symm
  subst ht
  unfold songLoadWith
  split
  · exact .inl rfl
  · split
    · exact .inl rfl
    · split
      next ok => exact .inr (.inr ⟨_, _, ok, rfl⟩)
      next => exact .inr (.inl ⟨_, _, rfl⟩)
    · exact .inr (.inl ⟨_, _, rfl⟩)

/-- `SONG.SET` leaves the state, refuses the payload, or installs an edit that gives an accepted song. -/
theorem exec_songSet_cases {s t : State} (h : exec .songSet s = .next t) :
    t = s ∨ (∃ f rest, t = raise f { s with payload := rest }) ∨
      ∃ ed v rest, editSong Config.cfg.initialSong s.song ed = some v ∧ songAccepted Config.cfg v = true ∧
        t = installEdit Config.cfg v ed { s with payload := rest } := by
  have ht : t = songSetWith (s.ctx Config.cfg .songSet) s := (Host.Outcome.next.inj h).symm
  subst ht
  unfold songSetWith
  split
  · exact .inl rfl
  · split
    · exact .inl rfl
    · split
      next v he =>
        split
        next ok => exact .inr (.inr ⟨_, v, _, he, ok, rfl⟩)
        next => exact .inr (.inl ⟨_, _, rfl⟩)
      next => exact .inr (.inl ⟨_, _, rfl⟩)
    · exact .inr (.inl ⟨_, _, rfl⟩)

theorem songAccepted_legal {c : Cfg} {v : Song} (h : songAccepted c v = true) : songLegal c v = true :=
  (Bool.and_eq_true_iff.mp h).1

/-- The edits of a count field, after which the clock starts again (R381). -/
def resizes : SongEdit → Bool
  | .beatsPerBar _ | .barCount _ | .patternsPerChannel _ | .instrumentsPerChannel _ | .pitchChannelCount _
  | .noiseChannelCount _ => true
  | _ => false

theorem installEdit_song (c : Cfg) (v : Song) (ed : SongEdit) (s : State) : (installEdit c v ed s).song = v := by
  cases ed <;> rfl

/-- An edit writes the song and the engine alone. -/
theorem installEdit_frame (c : Cfg) (v : Song) (ed : SongEdit) (s : State) :
    installEdit c v ed s = { s with song := v, eng := (installEdit c v ed s).eng } := by
  cases ed <;> rfl

theorem installEdit_clock_of_resizes (c : Cfg) (v : Song) {ed : SongEdit} (s : State) (h : resizes ed = true) :
    (installEdit c v ed s).eng.clock = rewindClock c s v := by
  cases ed with
  | beatsPerBar | barCount | patternsPerChannel | instrumentsPerChannel | pitchChannelCount | noiseChannelCount => rfl
  | _ => nomatch h

/-- The clock is outside what an edit of the channels touches. -/
theorem clock_of_outsideSong {e e' : Engine} (h : e'.outsideSong = e.outsideSong) : e'.clock = e.clock :=
  (congrArg Engine.clock h :)

theorem replaceSlot_clock (c : Cfg) (islot : Nat) (e : Engine) : (replaceSlot c islot e).clock = e.clock :=
  clock_of_outsideSong (replaceSlot_outsideSong c islot e)

/-- The coherence of an edited instrument leaves the clock. -/
theorem settleInstrument_clock (c : Cfg) (islot : Nat) (ed : InstrumentEdit) (e : Engine) :
    (settleInstrument c islot ed e).clock = e.clock := by
  unfold settleInstrument
  split
  case h_1 => exact (freeTones_sameFrame _ e).clock
  all_goals rfl

/-- The coherence of an edited channel leaves the clock. -/
theorem settleChannel_clock (c : Cfg) (song : Song) (ch : Nat) (ed : ChannelEdit) (e : Engine) :
    (settleChannel c song ch ed e).clock = e.clock := by
  cases ed with
  | bars | bar | patterns | pattern | patternField => exact (freeTones_sameFrame _ e).clock
  | instruments => exact foldl_keeps _ Engine.clock (fun e _ => replaceSlot_clock c _ e) _ e
  | instrument => exact replaceSlot_clock ..
  | instrumentField => exact settleInstrument_clock ..
  | octave | muted => rfl

theorem installEdit_clock_of_not_resizes (c : Cfg) (v : Song) {ed : SongEdit} (s : State) (h : resizes ed = false) :
    (installEdit c v ed s).eng.clock = s.eng.clock := by
  cases ed with
  | channels => exact clock_of_outsideSong (settleChannels_outsideSong c v s.eng)
  | channel ch f => exact settleChannel_clock c v ch f s.eng
  | scale | key | tempo | rhythm | loopStart | loopLength => rfl
  | _ => nomatch h

/-- Only a count edit changes the numbers that bound the clock. -/
theorem editSong_bounds {dflt s v : Song} {ed : SongEdit} (h : editSong dflt s ed = some v) (hc : resizes ed = false) :
    v.barCount = s.barCount ∧ v.beatsPerBar = s.beatsPerBar := by
  cases ed with
  | channel ch f =>
    obtain ⟨l, -, rfl⟩ := Option.map_eq_some_iff.mp h
    exact ⟨rfl, rfl⟩
  | channels | scale | key | tempo | rhythm | loopStart | loopLength => cases h; exact ⟨rfl, rfl⟩
  | _ => nomatch hc

theorem installEdit_clock_legal {s : State} {v : Song} {ed : SongEdit} (he : editSong Config.cfg.initialSong s.song ed = some v)
    (hv : songLegal Config.cfg v = true) (hs : s.eng.clock.Legal Config.cfg s.song) (rest : List Payload) :
    (installEdit Config.cfg v ed { s with payload := rest }).eng.clock.Legal Config.cfg v := by
  cases hc : resizes ed with
  | true =>
    rw [installEdit_clock_of_resizes _ _ _ hc]
    exact Clock.legal_of_zero hv ⟨rfl, rfl, rfl, rfl⟩
  | false =>
    obtain ⟨hbars, hbeats⟩ := editSong_bounds he hc
    rw [installEdit_clock_of_not_resizes _ _ _ hc]
    exact ⟨hbars ▸ hs.bar, hbeats ▸ hs.beat, hs.part, hs.tick⟩

/-! Every instruction. -/

theorem exec_reset_eq {s t : State} (h : exec .reset s = .next t) : t = resetBlock Config.cfg s :=
  (Host.Outcome.next.inj h).symm

theorem exec_workInv {i : Instr} {s t : State} (hs : s.WorkInv) (h : exec i s = .next t) : t.WorkInv := by
  by_cases other : Rewrites i
  · obtain rfl | ⟨u, value, rfl⟩ | rfl | rfl := other
    · exact exec_reset_eq h ▸ resetBlock_workInv s
    · obtain rfl | ⟨f, rfl⟩ | ⟨w, hw, rfl⟩ := exec_cfgw_cases h
      · exact hs
      · exact hs.raise f
      · exact applyControl_workInv hw hs
    · obtain rfl | ⟨f, rest, rfl⟩ | ⟨v, rest, hv, rfl⟩ := exec_songLoad_cases h
      · exact hs
      · exact State.WorkInv.raise (s := { s with payload := rest }) ⟨hs.latch, hs.controls, hs.seq, hs.song⟩ f
      · exact ⟨hs.latch, hs.controls, hs.seq, songAccepted_legal hv⟩
    · obtain rfl | ⟨f, rest, rfl⟩ | ⟨ed, v, rest, -, hv, rfl⟩ := exec_songSet_cases h
      · exact hs
      · exact State.WorkInv.raise (s := { s with payload := rest }) ⟨hs.latch, hs.controls, hs.seq, hs.song⟩ f
      · rw [installEdit_frame]
        exact ⟨hs.latch, hs.controls, hs.seq, songAccepted_legal hv⟩
  · exact (exec_endsIn other h).workInv hs

theorem exec_clockInv {i : Instr} {s t : State} (hs : s.ClockInv) (h : exec i s = .next t) : t.ClockInv := by
  by_cases other : Rewrites i
  · obtain rfl | ⟨u, value, rfl⟩ | rfl | rfl := other
    · exact exec_reset_eq h ▸ resetBlock_clockInv s
    · obtain rfl | ⟨f, rfl⟩ | ⟨w, hw, rfl⟩ := exec_cfgw_cases h
      · exact hs
      · exact hs.raise f
      · exact applyControl_clockInv hw hs
    · obtain rfl | ⟨f, rest, rfl⟩ | ⟨v, rest, hv, rfl⟩ := exec_songLoad_cases h
      · exact hs
      · exact State.ClockInv.raise (s := { s with payload := rest }) ⟨hs.song, hs.clock⟩ f
      · exact ⟨songAccepted_legal hv, Clock.legal_of_zero (songAccepted_legal hv) ⟨rfl, rfl, rfl, rfl⟩⟩
    · obtain rfl | ⟨f, rest, rfl⟩ | ⟨ed, v, rest, he, hv, rfl⟩ := exec_songSet_cases h
      · exact hs
      · exact State.ClockInv.raise (s := { s with payload := rest }) ⟨hs.song, hs.clock⟩ f
      · have legal := songAccepted_legal hv
        have clock := installEdit_clock_legal he legal hs.clock rest
        have song := installEdit_song Config.cfg v ed { s with payload := rest }
        exact ⟨by rw [song]; exact legal, by rw [song]; exact clock⟩
  · exact (exec_endsIn other h).clockInv hs

/-- `busy` rises at acceptance only: an instruction that starts idle ends idle. -/
theorem exec_busy {i : Instr} {s t : State} (hs : s.busy = false) (h : exec i s = .next t) : t.busy = false := by
  by_cases other : Rewrites i
  · obtain rfl | ⟨u, value, rfl⟩ | rfl | rfl := other
    · rw [exec_reset_eq h]
      rfl
    · obtain rfl | ⟨f, rfl⟩ | ⟨w, -, rfl⟩ := exec_cfgw_cases h
      · exact hs
      · exact raise_busy f s
      · exact (applyControl_busy _ w s).trans hs
    · obtain rfl | ⟨f, rest, rfl⟩ | ⟨v, rest, -, rfl⟩ := exec_songLoad_cases h
      · exact hs
      · exact raise_busy f _
      · exact hs
    · obtain rfl | ⟨f, rest, rfl⟩ | ⟨ed, v, rest, -, -, rfl⟩ := exec_songSet_cases h
      · exact hs
      · exact raise_busy f _
      · rw [installEdit_frame]
        exact hs
  · exact (exec_endsIn other h).busy hs

/-! Steps (R371, R482). -/

/-- Acceptance changes the port, `busy`, the deadline and the counters alone. -/
theorem accept_frame (rest : List Word) (s : State) : accept rest s = { s with
    port := rest, busy := true, epoch := s.epoch + 1, monoTime := (accept rest s).monoTime
    liveDeadline := (accept rest s).liveDeadline, audioActive := (accept rest s).audioActive } := by
  unfold accept checkDeadline
  split
  · rename_i h; simp_all
  · split <;> simp_all

/-- The end of a command only lowers `busy`. -/
theorem complete_eq_next {o : Host.Outcome State Fault Refusal} {t : State} (h : complete o = .next t) :
    ∃ u, o = .next u ∧ t = { u with busy := false } := by
  cases o with
  | next u => cases h; exact ⟨u, rfl, rfl⟩
  | fault f => nomatch h
  | refused r => nomatch h

/-- One step of the block: `busy` words aside, it waits, refuses a descriptor, or accepts a command and runs it. -/
theorem engineStep_cases {s t : State} (h : engineStep s = .next t) :
    t = s ∨ (s.busy = true ∧ t = presentBusy Config.cfg s) ∨
      (∃ f rest, t = { raise f (accept rest s) with busy := false }) ∨
      ∃ i rest u, exec i (accept rest s) = .next u ∧ t = { u with busy := false } := by
  unfold engineStep at h
  split at h
  next busy => cases h; exact .inr (.inl ⟨busy, rfl⟩)
  next =>
    split at h
    next => cases h; exact .inl rfl
    next info rest _ => cases h; exact .inr (.inr (.inl ⟨_, rest, rfl⟩))
    next i rest _ =>
      obtain ⟨u, hu, ht⟩ := complete_eq_next h
      exact .inr (.inr (.inr ⟨i, rest, u, hu, ht⟩))

/-- One step of the codec changes the codec alone, or runs the instruction of a tag. -/
theorem codecStep_cases {s t : State} (h : codecStep s = .next t) :
    (∃ k, t = { s with codec := k }) ∨ ∃ i, exec i s = .next t := by
  unfold codecStep at h
  dsimp only at h
  split at h
  case h_7 =>
    split at h
    · cases h; exact .inl ⟨_, rfl⟩
    · split at h
      · cases h; exact .inl ⟨_, rfl⟩
      · exact .inr ⟨_, h⟩
  all_goals cases h; exact .inl ⟨_, rfl⟩

/-- A step resets the block, leaves all but the ports and the codec, refuses a descriptor, or runs an instruction; a
command runs behind its acceptance. -/
theorem step_cases {s t : State} (h : step s = .next t) :
    t = platformReset Config.cfg s ∨ (∃ k, t = { s with codec := k }) ∨
      (s.busy = true ∧ t = presentBusy Config.cfg s) ∨
      (∃ f rest, t = { raise f (accept rest s) with busy := false }) ∨
      (∃ i rest u, exec i (accept rest s) = .next u ∧ t = { u with busy := false }) ∨
      ∃ i, exec i s = .next t := by
  unfold step at h
  split at h
  · exact .inl (Host.Outcome.next.inj h).symm
  · split at h
    · obtain rfl | h | h | h := engineStep_cases h
      · exact .inr (.inl ⟨_, rfl⟩)
      · exact .inr (.inr (.inl h))
      · exact .inr (.inr (.inr (.inl h)))
      · exact .inr (.inr (.inr (.inr (.inl h))))
    · obtain h | h := codecStep_cases h
      · exact .inr (.inl h)
      · exact .inr (.inr (.inr (.inr (.inr h))))

theorem accept_workInv {s : State} (hs : s.WorkInv) (rest : List Word) : (accept rest s).WorkInv := by
  rw [accept_frame]
  exact ⟨hs.latch, hs.controls, hs.seq, hs.song⟩

theorem accept_clockInv {s : State} (hs : s.ClockInv) (rest : List Word) : (accept rest s).ClockInv := by
  rw [accept_frame]
  exact ⟨hs.song, hs.clock⟩

theorem State.WorkInv.lowered {s : State} (h : s.WorkInv) : { s with busy := false : State }.ControlInv :=
  ⟨h.latch, h.controls, ⟨h.seq, rfl⟩, h.song⟩

theorem presentBusy_clockInv {s : State} (hs : s.ClockInv) : (presentBusy Config.cfg s).ClockInv := by
  unfold presentBusy
  split
  · exact hs
  · exact ⟨hs.song, hs.clock⟩

theorem step_controlInv {s t : State} (hs : s.ControlInv) (h : step s = .next t) : t.ControlInv := by
  obtain ⟨work, idle⟩ := State.controlInv_iff.mp hs
  obtain rfl | ⟨k, rfl⟩ | ⟨busy, -⟩ | ⟨f, rest, rfl⟩ | ⟨i, rest, u, hu, rfl⟩ | ⟨i, hi⟩ := step_cases h
  · obtain ⟨latch, controls, seq, song⟩ := resetBlock_workInv { s with epoch := s.epoch + 1 }
    exact ⟨latch, controls, ⟨seq, rfl⟩, song⟩
  · exact ⟨hs.latch, hs.controls, hs.quiet, hs.song⟩
  · exact absurd busy (by simp [idle])
  · exact ((accept_workInv work rest).raise f).lowered
  · exact (exec_workInv (accept_workInv work rest) hu).lowered
  · exact State.controlInv_iff.mpr ⟨exec_workInv work hi, exec_busy idle hi⟩

theorem step_clockInv {s t : State} (hs : s.ClockInv) (h : step s = .next t) : t.ClockInv := by
  obtain rfl | ⟨k, rfl⟩ | ⟨-, rfl⟩ | ⟨f, rest, rfl⟩ | ⟨i, rest, u, hu, rfl⟩ | ⟨i, hi⟩ := step_cases h
  · obtain ⟨song, clock⟩ := resetBlock_clockInv { s with epoch := s.epoch + 1 }
    exact ⟨song, clock⟩
  · exact ⟨hs.song, hs.clock⟩
  · exact presentBusy_clockInv hs
  · obtain ⟨song, clock⟩ := (accept_clockInv hs rest).raise f
    exact ⟨song, clock⟩
  · obtain ⟨song, clock⟩ := exec_clockInv (accept_clockInv hs rest) hu
    exact ⟨song, clock⟩
  · exact exec_clockInv hs hi

/-! The state after reset (R64). -/

theorem Tone.zero_strings_canonical (c : Cfg) : ∀ w ∈ (Tone.zero c).strings, w.Canonical := fun w hw => by
  rw [List.eq_of_mem_replicate hw]
  rfl

theorem Slot.zero_canonical (c : Cfg) : (Slot.zero c).Canonical := ⟨rfl, rfl, rfl, rfl⟩

/-- After a reset every memory is empty, which is the canonical form of a space that reads as its default. -/
theorem Engine.fresh_canonical (c : Cfg) (sampleRate : Num) (song : Song) (epoch : Nat) :
    (Engine.fresh c sampleRate song epoch).Canonical where
  work := Memory.wf_nil none
  scratch := Memory.numWf_nil
  mixL := Memory.wf_nil none
  mixR := Memory.wf_nil none
  outL := Memory.wf_nil none
  outR := Memory.wf_nil none
  strings := fun t ht => by
    rw [List.eq_of_mem_replicate ht]
    exact Tone.zero_strings_canonical c
  slots := fun i hi => by
    rw [List.eq_of_mem_replicate hi]
    exact Slot.zero_canonical c

end Sys2Proof.Machine

namespace Sys2Proof.Proofs

open Sys2Proof.Machine

/-- Settles O10: a step resets, leaves the control state, takes a fault, or runs an instruction, and each of these keeps
the invariant. -/
theorem controlInvariantKept : Obligations.ControlInvariantKept := fun _ _ => step_controlInv

/-- Settles O11, over the same cases of a step. -/
theorem clockInvariantKept : Obligations.ClockInvariantKept := fun _ _ => step_clockInv

/-- Settles O13: the state after reset is as `RESET` leaves it, with every memory empty. -/
theorem invariantsAtReset : Obligations.InvariantsAtReset :=
  ⟨⟨⟨fun _ => ⟨rfl, rfl⟩, fun h => nomatch h⟩, resetControls_legal, ⟨rfl, rfl⟩, initialSong_legal _⟩,
    ⟨initialSong_legal _, Clock.legal_of_zero (initialSong_legal _) ⟨rfl, rfl, rfl, rfl⟩⟩,
    Engine.fresh_canonical ..⟩

end Sys2Proof.Proofs
end

section
set_option Elab.async false
/-! SUPPORT. Illegal descriptors, resets, control register writes and the direct tone commands (`60_exceptions.md` R454,
`70_reset_and_hazards.md` R480, R482, `47_system.md` R378, `43_tone_voicing.md` R211, R224, R225). -/

namespace Sys2Proof.Machine

/-! Illegal descriptors (R454). -/

/-- The ways a header fails the checks of R454. -/
theorem checkHeader_error {h : Word}
    (bad : opcodeShape (headerOp h) = none ∨
      ∃ used count, opcodeShape (headerOp h) = some (used, count) ∧
        (headerCount h ≠ count ∨ h.toNat % 2 ^ 24 ≠ 0 ∨ (used < 1 ∧ headerU h ≠ 0) ∨ (used < 2 ∧ headerV h ≠ 0) ∨
          (used < 3 ∧ headerW h ≠ 0))) :
    ∃ e, checkHeader h = .error e ∧ e ≠ .noWord ∧ e ≠ .incomplete := by
  have zeros : headerZero h = h.toNat % 2 ^ 24 := by simp [headerZero, wordField]
  unfold checkHeader
  obtain hop | ⟨used, count, hop, hbad⟩ := bad <;> rw [hop]
  · exact ⟨_, rfl, by decide, by decide⟩
  · dsimp only
    by_cases hcount : headerCount h = count
    · by_cases hzero : headerZero h = 0
      · have selectors : ((used < 1 && headerU h != 0) || (used < 2 && headerV h != 0)
            || (used < 3 && headerW h != 0)) = true := by
          rw [zeros] at hzero
          have : (used < 1 ∧ headerU h ≠ 0) ∨ (used < 2 ∧ headerV h ≠ 0) ∨ (used < 3 ∧ headerW h ≠ 0) :=
            (hbad.resolve_left (absurd hcount)).resolve_left (absurd hzero)
          simpa [or_assoc] using this
        rw [if_neg (by simpa using hcount), if_neg (by simpa using hzero), if_pos selectors]
        exact ⟨_, rfl, by decide, by decide⟩
      · rw [if_neg (by simpa using hcount), if_pos hzero]
        exact ⟨_, rfl, by decide, by decide⟩
    · rw [if_pos hcount]
      exact ⟨_, rfl, by decide, by decide⟩

/-- A whole descriptor with a bad header is fetched as an illegal one. -/
theorem fetch_illegal {s : State} {h : Word} {rest : List Word} {e : Reject} (hport : s.port = h :: rest)
    (whole : headerCount h ≤ rest.length) (bad : checkHeader h = .error e) (hw : e ≠ .noWord) (hi : e ≠ .incomplete) :
    fetch s = .illegal (headerInfo h) (rest.drop (headerCount h)) := by
  have hd : decodeCommand s.port = .error e := by
    rw [hport, decodeCommand, if_neg (by omega), bad]
  unfold fetch
  rw [hd, hport]
  cases e <;> first | rfl | contradiction

end Sys2Proof.Machine

namespace Sys2Proof.Proofs

open Sys2Proof.Machine

/-- Settles O6: the descriptor is fetched as illegal, accepted, and the fault is the latch's first. -/
theorem illegalCommandIsTaken : Obligations.IllegalCommandIsTaken := by
  intro s h rest hpin hturn hbusy hfault hport whole bad
  obtain ⟨e, he, hw, hi⟩ := checkHeader_error bad
  have fetched := fetch_illegal hport whole he hw hi
  have accepted := accept_frame (rest.drop (headerCount h)) s
  have clear : (accept (rest.drop (headerCount h)) s).fault = false := by rw [accepted]; exact hfault
  have stepped : step s = .next { raise ⟨.illegalCommand, headerInfo h⟩ (accept (rest.drop (headerCount h)) s) with
      busy := false } := by
    simp [step, hpin, hturn, engineStep, hbusy, fetched, complete]
  refine ⟨_, stepped, ?_⟩
  have info : (headerInfo h).toNat = h.toNat / 2 ^ 32 := by
    have := h.isLt
    simp only [headerInfo, BitVec.toNat_ofNat]
    omega
  rw [raise_eq_withFault clear, accepted]
  exact ⟨rfl, rfl, info, rfl, rfl, rfl, rfl, rfl, rfl, rfl, rfl, rfl, rfl, rfl, rfl, rfl, rfl⟩

end Sys2Proof.Proofs

namespace Sys2Proof.Machine

/-! Resets (R480, R482). -/

/-- The values of R64 and R480. -/
structure State.IsFresh (t : State) : Prop where
  latch : t.fault = false ∧ t.faultCode = 0#8 ∧ t.faultInfo = 0#32
  flags : t.playing = false ∧ t.audioActive = false ∧ t.liveDeadline = none ∧ t.busy = false ∧ t.seq = .idle
  controls : t.sampleRate = resetSampleRate ∧ t.volume = .one ∧ t.liveDeadlineSeconds = resetLiveDeadline ∧
    t.rngSeed = 0#64
  song : t.song = Config.cfg.initialSong
  eng : ∃ epoch, t.eng = Engine.fresh Config.cfg resetSampleRate Config.cfg.initialSong epoch

theorem resetBlock_isFresh (s : State) : (resetBlock Config.cfg s).IsFresh :=
  ⟨⟨rfl, rfl, rfl⟩, ⟨rfl, rfl, rfl, rfl, rfl⟩, ⟨rfl, rfl, rfl, rfl⟩, rfl, s.epoch, rfl⟩

/-- The ports, the time and the codec are outside the block's state elements. -/
theorem resetBlock_frame (c : Cfg) (s : State) : (resetBlock c s).port = s.port ∧ (resetBlock c s).payload = s.payload ∧
    (resetBlock c s).responses = s.responses ∧ (resetBlock c s).monoTime = s.monoTime ∧
    (resetBlock c s).resetPin = s.resetPin ∧ (resetBlock c s).turn = s.turn ∧ (resetBlock c s).codec = s.codec := by
  simp only [resetBlock, and_self]

theorem platformReset_frame (c : Cfg) (s : State) : (platformReset c s).payload = s.payload ∧
    (platformReset c s).responses = [] ∧ (platformReset c s).monoTime = s.monoTime ∧
    (platformReset c s).resetPin = false ∧ (platformReset c s).turn = s.turn ∧ (platformReset c s).codec = s.codec := by
  simp only [platformReset, resetBlock, and_self]

theorem platformReset_isFresh (s : State) : (platformReset Config.cfg s).IsFresh :=
  ⟨⟨rfl, rfl, rfl⟩, ⟨rfl, rfl, rfl, rfl, rfl⟩, ⟨rfl, rfl, rfl, rfl⟩, rfl, s.epoch + 1, rfl⟩

theorem platformReset_port (c : Cfg) (s : State) :
    (platformReset c s).port = completeDescriptors s.port.length s.port := rfl

theorem step_of_resetPin {s : State} (h : s.resetPin = true) : step s = .next (platformReset Config.cfg s) := by
  simp [step, h]

/-- The port after a reset holds no descriptor cut short. -/
theorem completeDescriptors_of_short {h : Word} {rest : List Word} (fuel : Nat) (short : rest.length < headerCount h) :
    completeDescriptors fuel (h :: rest) = [] := by
  cases fuel with
  | zero => rfl
  | succ n => simp [completeDescriptors, short]

/-- One whole descriptor stays on the port. -/
theorem completeDescriptors_of_whole {h : Word} {rest : List Word} (fuel : Nat) (whole : rest.length = headerCount h) :
    completeDescriptors (fuel + 1) (h :: rest) = h :: rest := by
  have nothing : completeDescriptors fuel [] = [] := by cases fuel <;> rfl
  simp [completeDescriptors, ← whole, nothing]

/-- A decoded descriptor is whole. -/
theorem length_of_decodeCommand {words rest : List Word} {i : Instr} (h : decodeCommand words = .ok (i, rest)) :
    ∃ hd tl, words = hd :: tl ∧ headerCount hd ≤ tl.length ∧ rest = tl.drop (headerCount hd) := by
  unfold decodeCommand at h
  split at h
  · nomatch h
  · split at h
    · nomatch h
    · split at h
      · nomatch h
      · split at h
        · nomatch h
        · cases h; exact ⟨_, _, rfl, by omega, rfl⟩

/-- The port that holds just one command is the same after the platform's reset. -/
theorem completeDescriptors_of_decode {words : List Word} {i : Instr} (h : decodeCommand words = .ok (i, [])) :
    completeDescriptors words.length words = words := by
  obtain ⟨hd, tl, rfl, whole, taken⟩ := length_of_decodeCommand h
  have : tl.length ≤ headerCount hd := List.drop_eq_nil_iff.mp taken.symm
  exact completeDescriptors_of_whole tl.length (by omega)

end Sys2Proof.Machine

namespace Sys2Proof.Proofs

open Sys2Proof.Machine

/-- Settles O14: both resets leave the fresh engine of the default song; the line also empties the responses and the
descriptor cut short. -/
theorem resetLeaves : Obligations.ResetLeaves := by
  unfold Obligations.ResetLeaves
  intro fresh
  have of_isFresh {t : State} (h : t.IsFresh) : fresh t := by
    obtain ⟨latch, flags, ⟨hrate, hvolume, hdeadline, hseed⟩, song, epoch, eng⟩ := h
    dsimp only [fresh]
    rw [eng, hrate, hvolume, hdeadline, song]
    exact ⟨latch, flags, ⟨rfl, rfl, rfl, rfl, rfl⟩, rfl, ⟨fun _ => List.eq_of_mem_replicate, fun _ => List.eq_of_mem_replicate⟩,
      rfl, ⟨fun _ => rfl, rfl⟩, ⟨rfl, rfl, rfl, hseed⟩, rfl, fun _ => rfl, rfl⟩
  refine ⟨fun s => ⟨_, rfl, of_isFresh (resetBlock_isFresh s), resetBlock_frame _ s⟩, fun s hpin =>
    ⟨_, step_of_resetPin hpin, of_isFresh (platformReset_isFresh s), platformReset_frame _ s,
      fun hport => ?_, fun h rest hport short => ?_, fun i decoded => completeDescriptors_of_decode decoded⟩⟩
  · rw [platformReset_port, hport]
    rfl
  · rw [platformReset_port, hport]
    exact completeDescriptors_of_short _ short

end Sys2Proof.Proofs

namespace Sys2Proof.Machine

/-! Control register writes (R378). -/

theorem exec_cfgw (u : Nat) (value : Word) (s : State) :
    exec (.cfgw u value) s = .next (command s ((orRaise (controlWrite s u value)
      ⟨.badConfig, headerInfo (Instr.header (.cfgw u value))⟩).map (fun w => applyControl Config.cfg w s))) := rfl

theorem exec_cfgw_of_some {s : State} {u : Nat} {value : Word} {w : ControlWrite} (clear : s.fault = false)
    (h : controlWrite s u value = some w) : exec (.cfgw u value) s = .next (applyControl Config.cfg w s) := by
  rw [exec_cfgw, h]
  exact congrArg _ (command_ok clear _)

theorem exec_cfgw_of_none {s : State} {u : Nat} {value : Word} (clear : s.fault = false)
    (h : controlWrite s u value = none) :
    exec (.cfgw u value) s = .next (s.withFault 3#8 (headerInfo (Instr.header (.cfgw u value)))) := by
  rw [exec_cfgw, h]
  exact congrArg _ ((command_error clear _).trans (raise_eq_withFault clear ⟨.badConfig, _⟩))

/-- The writes that R44 and R378 refuse. -/
theorem controlWrite_eq_none {s : State} {u : Nat} {value : Word}
    (h : (4 ≤ u ∧ u ≤ 6) ∨ 8 ≤ u ∨ (u = 0 ∧ (Num.isFinite ⟨value⟩ = false ∨ Num.zero.lt ⟨value⟩ = false)) ∨
      ((u = 1 ∨ u = 2) ∧ (Num.isFinite ⟨value⟩ = false ∨ Num.zero.le ⟨value⟩ = false)) ∨
      (u = 7 ∧ (s.playing = true ∨ s.song.barCount ≤ value.toNat))) : controlWrite s u value = none := by
  obtain ⟨lo, hi⟩ | above | ⟨rfl, bad⟩ | ⟨rfl | rfl, bad⟩ | ⟨rfl, bad⟩ := h
  · interval_cases u <;> rfl
  · obtain ⟨k, rfl⟩ := Nat.exists_eq_add_of_le' above
    rfl
  all_goals
    refine if_neg fun legal => ?_
    obtain bad | bad := bad <;> simp_all
  omega

end Sys2Proof.Machine

namespace Sys2Proof.Proofs

open Sys2Proof.Machine

/-- Settles O16, register by register. -/
theorem controlWrite : Obligations.ControlWrite := by
  intro s value clear
  refine ⟨fun finite positive => ?sampleRate, fun finite positive => ?volume, fun finite positive => ?liveDeadline,
    ?rngSeed, fun paused inside => ?bar⟩
  case sampleRate =>
    have w : Machine.controlWrite s 0 value = some (.sampleRate ⟨value⟩) := by simp [Machine.controlWrite, finite, positive]
    exact ⟨_, exec_cfgw_of_some clear w, rfl, rfl, rfl, fun _ => List.eq_of_mem_replicate,
      fun _ => List.eq_of_mem_replicate, rfl, fun _ => rfl⟩
  case volume =>
    exact exec_cfgw_of_some clear (w := .volume ⟨value⟩) (by simp [Machine.controlWrite, finite, positive])
  case liveDeadline =>
    exact exec_cfgw_of_some clear (w := .liveDeadline ⟨value⟩) (by simp [Machine.controlWrite, finite, positive])
  case rngSeed => exact exec_cfgw_of_some clear (w := .rngSeed value) rfl
  case bar =>
    have w : Machine.controlWrite s 7 value = some (.bar value.toNat) := by simp [Machine.controlWrite, paused, inside]
    exact ⟨_, exec_cfgw_of_some clear w, rfl, rfl, rfl, rfl, rfl, rfl, rfl,
      fun a ha => by rw [List.eq_of_mem_replicate ha]; rfl, fun _ => List.eq_of_mem_replicate,
      fun _ => List.eq_of_mem_replicate⟩

/-- Settles O17: each of the listed writes is none that `CFGW` makes. -/
theorem controlWriteRefused : Obligations.ControlWriteRefused :=
  fun _ _ _ clear bad => exec_cfgw_of_none clear (controlWrite_eq_none bad)

end Sys2Proof.Proofs

namespace Sys2Proof.Machine

/-! Direct tone commands (R211, R224, R225). -/

/-- The lowest-numbered free slot (R28). -/
theorem freeSlotFrom_eq_some {i v : Nat} {l : List Tone} {a : Tone} (hv : l[v]? = some a) (free : a.state = .free)
    (low : ∀ (j : Nat) (b : Tone), j < v → l[j]? = some b → b.state ≠ .free) : freeSlotFrom i l = some (i + v) := by
  induction l generalizing i v with
  | nil => simp at hv
  | cons t rest ih =>
    cases v with
    | zero =>
      obtain rfl : t = a := by simpa using hv
      simp [freeSlotFrom, free]
    | succ v =>
      have taken : t.state ≠ .free := low 0 t (by omega) rfl
      have later := ih (i := i + 1) (by simpa using hv) (fun j b hj hb => low (j + 1) b (by omega) (by simpa using hb))
      rw [freeSlotFrom, if_neg taken, later]
      congr 1
      omega

theorem freeSlotFrom_eq_none {i : Nat} {l : List Tone} (taken : ∀ a ∈ l, a.state ≠ .free) : freeSlotFrom i l = none := by
  induction l generalizing i with
  | nil => rfl
  | cons t rest ih =>
    rw [freeSlotFrom, if_neg (taken t List.mem_cons_self)]
    exact ih (fun a ha => taken a (List.mem_cons_of_mem t ha))

/-- A change of an entry that a list has. -/
theorem modify_eq_set_of_some {α : Type} {l : List α} {i : Nat} {v : α} (h : l[i]? = some v) (f : α → α) :
    l.modify i f = l.set i (f v) := by
  rw [List.modify_eq_set_getElem?, h]
  rfl

/-- A tone made in a slot that is free, at place `k` of its channel's queue. -/
theorem newTone_of_free {x : Ctx} {e : Engine} {islot k asker v : Nat} (h : freeSlotFrom 0 e.tones = some v) :
    newTone x e islot k asker = .ok (v, wakeSlot { e with
      tones := e.tones.set v { Tone.zero x.cfg with
        state := .active, channel := slotChannel x.song islot, instrument := islot }
      activeTones := e.activeTones.modify (slotChannel x.song islot) (fun q => q.take k ++ v :: q.drop k) } islot) := by
  unfold newTone
  rw [h]

theorem newTone_of_none {x : Ctx} {e : Engine} {islot k asker : Nat} (h : freeSlotFrom 0 e.tones = none) :
    newTone x e islot k asker = .error (overflowOf asker) := by
  unfold newTone
  rw [h]
  rfl

theorem slotAt_eq_ok {x : Ctx} {e : Engine} {u : Nat} {i : Slot} {ins : Instrument} (hi : e.slots[u]? = some i)
    (hins : slotInstrument x.song u = some ins) : slotAt x e u = .ok (i, ins) := by
  simp [slotAt, hi, hins]

theorem slotAt_eq_error {x : Ctx} {e : Engine} {u : Nat} (h : e.slots[u]? = none) : slotAt x e u = .error x.badIndex := by
  simp [slotAt, h]

theorem liveTone_eq_ok {x : Ctx} {e : Engine} {u : Nat} {a : Tone} (h : e.tones[u]? = some a) (used : a.state ≠ .free) :
    liveTone x e u = .ok a := by
  simp [liveTone, h, used]

theorem liveTone_eq_error {x : Ctx} {e : Engine} {u : Nat} {a : Tone} (h : e.tones[u]? = some a)
    (free : a.state = .free) : liveTone x e u = .error x.badIndex := by
  simp [liveTone, h, free]

/-- A direct-mode fault of a command on the engine. -/
theorem onEngine_error_eq {s : State} (clear : s.fault = false) (f : Raise) :
    onEngine s (.error f) = s.withFault f.kind.code f.info := by
  rw [onEngine_error clear, raise_eq_withFault clear]

end Sys2Proof.Machine

namespace Sys2Proof.Proofs

open Sys2Proof.Machine

/-- Settles O38, by whether the slot exists and whether a tone slot is free. -/
theorem toneNew : Obligations.ToneNew := by
  refine ⟨fun s u clear missing => ?missing, fun s u i ins q clear hi hins hq =>
    ⟨fun v a hv free low => ?made, fun taken => ?overflow⟩⟩
  case missing =>
    show Host.Outcome.next (toneNewWith (s.ctx Config.cfg (.toneNew u)) s u) = _
    rw [toneNewWith, slotAt_eq_error missing, command_error clear, raise_eq_withFault clear]
    rfl
  case made =>
    show Host.Outcome.next (toneNewWith (s.ctx Config.cfg (.toneNew u)) s u) = _
    have slot := freeSlotFrom_eq_some (i := 0) hv free low
    rw [Nat.zero_add] at slot
    rw [toneNewWith, slotAt_eq_ok hi hins, newTone_of_free slot]
    dsimp only
    have queued : s.eng.activeTones.modify (slotChannel s.song u)
        (fun q' => q'.take (s.eng.activeTones.getD (slotChannel s.song u) []).length ++
          v :: q'.drop (s.eng.activeTones.getD (slotChannel s.song u) []).length) =
        s.eng.activeTones.set (slotChannel s.song u) (q ++ [v]) := by
      rw [modify_eq_set_of_some hq, List.getD_eq_getElem?_getD, hq]
      simp
    rw [command_ok clear, wakeSlot, modify_eq_set_of_some hi]
    exact congrArg (fun l => Host.Outcome.next { s with
      responses := s.responses ++ [BitVec.ofNat 64 v]
      eng := { s.eng with
        tones := s.eng.tones.set v { Tone.zero Config.cfg with
          state := .active, channel := slotChannel s.song u, instrument := u }
        activeTones := l
        slots := s.eng.slots.set u i.wake } }) queued
  case overflow =>
    show Host.Outcome.next (toneNewWith (s.ctx Config.cfg (.toneNew u)) s u) = _
    rw [toneNewWith, slotAt_eq_ok hi hins, newTone_of_none (freeSlotFrom_eq_none taken)]
    dsimp only
    rw [command_error clear, raise_eq_withFault clear]
    rfl

/-- Settles O39. -/
theorem toneReleaseAndFree : Obligations.ToneReleaseAndFree := by
  intro s u a clear ha without
  refine ⟨fun active q hq => ?release, fun other => ?notActive, fun used => ?free, fun free => ?alreadyFree⟩
  case release =>
    show Host.Outcome.next (toneReleaseWith (s.ctx Config.cfg (.toneRelease u)) s u) = _
    rw [toneReleaseWith, ha]
    dsimp only
    rw [if_pos active, onEngine_ok clear, releaseTone, modify_eq_set_of_some hq]
    rfl
  case notActive =>
    show Host.Outcome.next (toneReleaseWith (s.ctx Config.cfg (.toneRelease u)) s u) = _
    rw [toneReleaseWith, ha]
    dsimp only
    rw [if_neg other, onEngine_error_eq clear]
    rfl
  case free =>
    show Host.Outcome.next (toneFreeWith (s.ctx Config.cfg (.toneFree u)) s u) = _
    rw [toneFreeWith, liveTone_eq_ok ha used]
    show Host.Outcome.next (onEngine s (.ok (freeTone s.eng u))) = _
    rw [onEngine_ok clear, freeTone, modify_eq_set_of_some ha]
    rfl
  case alreadyFree =>
    show Host.Outcome.next (toneFreeWith (s.ctx Config.cfg (.toneFree u)) s u) = _
    rw [toneFreeWith, liveTone_eq_error ha free]
    exact congrArg _ (onEngine_error_eq clear _)

end Sys2Proof.Proofs
end

section
set_option Elab.async false
/-! SUPPORT. A `RUN` of one run length and the commands that it is made of (`46_master_orchestrator.md` R330 to R336): each
phase of the run against the commands of `Safety.lean`, for as long as these take no fault. -/

namespace Sys2Proof.Machine

/-! The detail word of a command is read by its own faults alone: an operation of the engine answers the same under
another one. Both sides unfold to the same term, a recursion on its own included, so each proof is `rfl`. -/

/-- The context of another command of the same block. -/
def Ctx.withInfo (x : Ctx) (info : BitVec 32) : Ctx := { x with info := info }

set_option smartUnfolding false in
theorem syncTones_withInfo (x : Ctx) (info : BitVec 32) (c : Nat) (e : Engine) :
    syncTones (x.withInfo info) c e = syncTones x c e := by rfl

set_option smartUnfolding false in
theorem computeTone_withInfo (x : Ctx) (info : BitVec 32) (k : Clock) (u n : Nat) (ins : Instrument) (t : Tone) :
    computeTone (x.withInfo info) k u n ins t = computeTone x k u n ins t := by rfl

set_option smartUnfolding false in
theorem synthSlot_withInfo (x : Ctx) (info : BitVec 32) (u n : Nat) (ins : Instrument) (t : Tone) (e : Engine) :
    synthSlot (x.withInfo info) u n ins t e = synthSlot x u n ins t e := by rfl

theorem chainSample_withInfo (x : Ctx) (info : BitVec 32) (ins : Instrument) (i : Slot) (v : Num) :
    chainSample (x.withInfo info) ins i v = chainSample x ins i v := by
  have crush : bitcrush (x.withInfo info) = bitcrush x := rfl
  have panned : pan (x.withInfo info) = pan x := rfl
  have chorused : chorus (x.withInfo info) = chorus x := rfl
  have reverbed : reverb (x.withInfo info) = reverb x := rfl
  rw [chainSample, crush, panned, chorused, reverbed]
  rfl

theorem chainLoop_withInfo (x : Ctx) (info : BitVec 32) (ins : Instrument) (pos n j : Nat) (i : Slot) (e : Engine) :
    chainLoop (x.withInfo info) ins pos n j i e = chainLoop x ins pos n j i e := by
  induction n generalizing j i e with
  | zero => rfl
  | succ n ih => simp only [chainLoop, chainSample_withInfo, ih]

set_option smartUnfolding false in
theorem loadEffectFilter_withInfo (x : Ctx) (info : BitVec 32) (ins : Instrument) (n : Nat) (i : Slot) :
    loadEffectFilter (x.withInfo info) ins n i = loadEffectFilter x ins n i := by rfl

theorem runEffects_withInfo (x : Ctx) (info : BitVec 32) (u pos n : Nat) (ins : Instrument) (i : Slot) (e : Engine) :
    runEffects (x.withInfo info) u pos n ins i e = runEffects x u pos n ins i e := by
  rw [runEffects, chainLoop_withInfo, loadEffectFilter_withInfo, runEffects]

set_option smartUnfolding false in
theorem advanceClock_withInfo (x : Ctx) (info : BitVec 32) (n : Nat) (e : Engine) :
    advanceClock (x.withInfo info) n e = advanceClock x n e := by rfl

/-! An update keeps the tone's instrument slot. -/

theorem markLastTick_instrument (c : Cfg) (ins : Instrument) (t : Tone) :
    (markLastTick c ins t).instrument = t.instrument := by
  unfold markLastTick
  split
  · split <;> rfl
  · rfl

theorem updatePulse_instrument {x : Ctx} {v : Voice} {t t' : Tone} (h : updatePulse x v t = .ok t') :
    t'.instrument = t.instrument := by
  unfold updatePulse at h
  split at h
  · obtain ⟨_, -, rfl⟩ := ok_of_map_ok h; rfl
  · split at h <;> cases h <;> rfl

theorem updateOperators_instrument {x : Ctx} {v : Voice} {k : Nat} {ops : List Operator} {t t' : Tone}
    (h : updateOperators x v k ops t = .ok t') : t'.instrument = t.instrument := by
  induction ops generalizing k t with
  | nil => cases h; rfl
  | cons o rest ih =>
    unfold updateOperators at h
    split at h
    next => nomatch h
    next => exact (ih h).trans rfl

theorem updateLevels_instrument {x : Ctx} {v : Voice} {t t' : Tone} (h : updateLevels x v t = .ok t') :
    t'.instrument = t.instrument := by
  unfold updateLevels at h
  split at h
  · split at h
    next => nomatch h
    next ho =>
      obtain ⟨_, -, rfl⟩ := ok_of_map_ok h
      exact (updateOperators_instrument ho :)
  · cases h; rfl

theorem updateFilters_instrument {x : Ctx} {v : Voice} {t t' : Tone} (h : updateFilters x v t = .ok t') :
    t'.instrument = t.instrument := by
  unfold updateFilters at h
  split at h
  · cases h; rfl
  · obtain ⟨_, -, rfl⟩ := ok_of_map_ok h; rfl

theorem updateInterval_instrument (x : Ctx) (v : Voice) (t : Tone) :
    (updateInterval x v t).instrument = t.instrument := by
  unfold updateInterval
  dsimp only
  split <;> rfl

theorem updatePhases_instrument (x : Ctx) (v : Voice) (t : Tone) : (updatePhases x v t).instrument = t.instrument := by
  unfold updatePhases
  dsimp only
  split
  · exact updateInterval_instrument ..
  · split
    · rfl
    · split <;> rfl

theorem computeTone_instrument {x : Ctx} {k : Clock} {u n : Nat} {ins : Instrument} {t t' : Tone}
    (h : computeTone x k u n ins t = .ok t') : ins.kind < 8 ∧ t'.instrument = t.instrument := by
  unfold computeTone at h
  split at h
  · nomatch h
  · refine ⟨by omega, ?_⟩
    dsimp only at h
    split at h
    next => nomatch h
    next t2 h2 =>
      split at h
      next => nomatch h
      next t3 h3 =>
        split at h
        next => nomatch h
        next t4 h4 =>
          have early : t4.instrument = t.instrument := by
            rw [updateFilters_instrument h4, updateLevels_instrument h3, updatePulse_instrument h2]
            split <;> exact markLastTick_instrument ..
          cases h
          split <;> exact (updatePhases_instrument ..).trans early

/-! Commands against operations of the engine. -/

/-- `u` is `s` with the engine `e`, and with any result registers. -/
def State.At (s u : State) (e : Engine) : Prop := ∃ r, u = { s with eng := e, r := r }

/-- Commands `act` do what the operation `op` does, from `s` with any engine, where they take no fault; and a fault taken
before them stays. -/
structure State.Mirrors (s : State) (op : Engine → Except Raise Engine) (act : State → State) : Prop where
  sticky : ∀ {u : State}, (act u).fault = false → u.fault = false
  runs : ∀ {u : State} {e : Engine}, s.At u e → (act u).fault = false → ∃ e', op e = .ok e' ∧ s.At (act u) e'

theorem State.Mirrors.id (s : State) : s.Mirrors .ok (fun u => u) := ⟨fun h => h, fun h _ => ⟨_, rfl, h⟩⟩

/-- One phase behind another. -/
theorem State.Mirrors.bind {s : State} {op op' : Engine → Except Raise Engine} {act act' : State → State}
    (h : s.Mirrors op act) (h' : s.Mirrors op' act') : s.Mirrors (fun e => (op e).bind op') (fun u => act' (act u)) := by
  refine ⟨fun hu => h.sticky (h'.sticky hu), fun {u e} hu clear => ?_⟩
  obtain ⟨e1, h1, at1⟩ := h.runs hu (h'.sticky clear)
  obtain ⟨e2, h2, at2⟩ := h'.runs at1 clear
  refine ⟨e2, ?_, at2⟩
  rw [h1]
  exact h2

theorem State.Mirrors.congr {s : State} {op op' : Engine → Except Raise Engine} {act act' : State → State}
    (h : s.Mirrors op act) (hop : ∀ e, op' e = op e) (hact : ∀ u, act' u = act u) : s.Mirrors op' act' := by
  rw [funext hop, funext hact]
  exact h

/-- Phases for the numbers from `c` on, one behind the other. -/
theorem State.Mirrors.loop {s : State} {op : Nat → Engine → Except Raise Engine} {act : State → Nat → State}
    {loop : Nat → Nat → Engine → Except Raise Engine} (h : ∀ c, s.Mirrors (op c) (fun u => act u c))
    (zero : ∀ c e, loop 0 c e = .ok e) (succ : ∀ n c e, loop (n + 1) c e = (op c e).bind (loop n (c + 1))) (n c : Nat) :
    s.Mirrors (loop n c) (fun u => (List.range' c n).foldl act u) := by
  induction n generalizing c with
  | zero => exact (State.Mirrors.id s).congr (zero c) (fun _ => rfl)
  | succ n ih => exact ((h c).bind (ih (c + 1))).congr (succ n c) (fun _ => rfl)

/-- No command but the four that write control registers or the song lowers the latch (R456). -/
theorem State.after_sticky {i : Instr} {u : State} (other : ¬ Rewrites i) (h : (u.after i).fault = false) :
    u.fault = false := by
  unfold State.after at h
  split at h
  next t ht =>
    obtain ⟨v, hv, rfl | ⟨f, rfl⟩⟩ := exec_endsIn other ht
    · exact hv.latch.1.symm.trans h
    · simp at h
  next => exact h
  next => exact h

/-- A command on the engine that takes no fault leaves its operation's engine. -/
theorem onEngine_unfaulted {s : State} {r : Except Raise Engine} (h : (onEngine s r).fault = false) :
    ∃ e, r = .ok e ∧ onEngine s r = { s with eng := e } := by
  obtain ⟨hf, he⟩ | ⟨-, ⟨e, hr, he⟩ | ⟨f, -, he⟩⟩ := onEngine_cases s r
  · rw [he, hf] at h; nomatch h
  · exact ⟨e, hr, he⟩
  · rw [he, raise_fault] at h; nomatch h

/-- `SYNC.TONES` is the synchronisation of a channel. -/
theorem mirrors_syncTones (s : State) (i : Instr) (c : Nat) :
    s.Mirrors (syncTones (s.ctx Config.cfg i) c) (fun u => u.after (.syncTones c)) := by
  refine ⟨State.after_sticky (by simp [Rewrites]), ?_⟩
  rintro u e ⟨r, rfl⟩ clear
  obtain ⟨e', he, hu⟩ := onEngine_unfaulted (s := { s with eng := e, r := r }) clear
  refine ⟨e', ?_, r, hu⟩
  split at he
  · exact (syncTones_withInfo (s.ctx Config.cfg i) _ c e).symm.trans he
  · nomatch he

theorem syncFrom_succ (x : Ctx) (n c : Nat) (e : Engine) :
    syncFrom x (n + 1) c e = (syncTones x c e).bind (syncFrom x n (c + 1)) := by
  rw [syncFrom]
  cases syncTones x c e <;> rfl

theorem State.afterAll_map (f : Nat → Instr) (l : List Nat) (s : State) :
    s.afterAll (l.map f) = l.foldl (fun u c => u.after (f c)) s := List.foldl_map

theorem mirrors_syncAll (s : State) (i : Instr) :
    s.Mirrors (syncAll (s.ctx Config.cfg i))
      (fun u => u.afterAll ((List.range s.song.channelCount).map Instr.syncTones)) :=
  (State.Mirrors.loop (mirrors_syncTones s i) (fun _ _ => rfl) (syncFrom_succ _) s.song.channelCount 0).congr
    (fun _ => rfl) (fun u => by rw [State.afterAll_map, List.range_eq_range'])

/-- A tone slot in use (R453). -/
theorem tones_of_liveTone {x : Ctx} {e : Engine} {u : Nat} {t : Tone} (h : liveTone x e u = .ok t) :
    e.tones[u]? = some t := by
  unfold liveTone at h
  split at h
  next t' ht =>
    split at h
    · nomatch h
    · cases h; exact ht
  next => nomatch h

/-- `TONE.COMPUTE` that takes no fault is the update of a tone in use. -/
theorem toneComputeWith_unfaulted {x : Ctx} {s : State} {u n : Nat} (clear : (toneComputeWith x s u n).fault = false) :
    ∃ t ins t', s.eng.tones[u]? = some t ∧ slotInstrument x.song t.instrument = some ins ∧
      computeTone x s.eng.clock u n ins t = .ok t' ∧
      toneComputeWith x s u n = { s with eng := s.eng.setTone u t' } := by
  unfold toneComputeWith at clear ⊢
  cases hf : s.fault with
  | true => simp [hf] at clear
  | false =>
    cases hl : liveTone x s.eng u with
    | error f => simp [hf, hl] at clear
    | ok t =>
      cases hn : runLengthLegal x.cfg s.eng n with
      | false => simp [hf, hl, hn] at clear
      | true =>
        cases hc : computeSlot x u n s.eng t with
        | error f => simp [hf, hl, hn, hc] at clear
        | ok e =>
          have slot := hc
          unfold computeSlot at slot
          split at slot
          next => nomatch slot
          next ins hins =>
            obtain ⟨t', ht', rfl⟩ := ok_of_map_ok slot
            exact ⟨t, ins, t', tones_of_liveTone hl, hins, ht', by simp [hc]⟩

/-- The synth loop of a known kind as a command (R265). -/
theorem after_synCommand (s : State) {kind : Nat} (known : kind < 8) (u n : Nat) :
    s.after (synCommand kind u n) =
      onEngine s (synthDirect (s.ctx Config.cfg (synCommand kind u n)) kind u n s.eng) := by
  interval_cases kind <;> rfl

theorem synCommand_not_rewrites (kind u n : Nat) : ¬ Rewrites (synCommand kind u n) := by
  unfold synCommand
  split_ifs <;> simp [Rewrites]

/-- A synth loop that completes in direct mode (R240). -/
theorem synthDirect_ok {x : Ctx} {kind u n : Nat} {e e' : Engine} (h : synthDirect x kind u n e = .ok e') :
    ∃ t ins, e.tones[u]? = some t ∧ slotInstrument x.song t.instrument = some ins ∧ e' = synthSlot x u n ins t e := by
  unfold synthDirect at h
  split at h
  next => nomatch h
  next t ht =>
    split at h
    next => nomatch h
    next ins hins =>
      split at h
      next => nomatch h
      next =>
        split at h
        next => cases h; exact ⟨t, ins, tones_of_liveTone ht, hins, rfl⟩
        next => nomatch h

/-- `TONE.COMPUTE` and the synth loop of one tone are its voicing in a run. -/
theorem mirrors_voiceTone (s : State) (i : Instr) (n u : Nat) :
    s.Mirrors (voiceTones (s.ctx Config.cfg i) n [u]) (fun w => State.voiceTone n w u) := by
  constructor
  case sticky =>
    intro w clear
    unfold State.voiceTone at clear
    split at clear
    · exact clear
    · split at clear
      · exact State.after_sticky (by simp [Rewrites]) clear
      · exact State.after_sticky (by simp [Rewrites]) (State.after_sticky (synCommand_not_rewrites _ _ _) clear)
  case runs =>
    rintro w e ⟨r, rfl⟩ clear
    unfold State.voiceTone at clear ⊢
    dsimp only at clear ⊢
    cases ht : e.tones[u]? with
    | none => exact ⟨e, by simp [voiceTones, ht], r, by simp⟩
    | some t =>
      simp only [ht] at clear ⊢
      cases hi : slotInstrument s.song t.instrument with
      | none =>
        simp only [hi] at clear
        obtain ⟨t1, ins, -, ht1, hins, -⟩ := toneComputeWith_unfaulted clear
        cases (show some t1 = some t from ht1.symm.trans ht)
        exact nomatch hi.symm.trans hins
      | some ins =>
        simp only [hi] at clear ⊢
        obtain ⟨t1, ins1, t', ht1, hins1, hcompute, computed⟩ :=
          toneComputeWith_unfaulted (State.after_sticky (synCommand_not_rewrites _ _ _) clear)
        cases (show some t1 = some t from ht1.symm.trans ht)
        cases (show some ins1 = some ins from hins1.symm.trans hi)
        obtain ⟨known, slot⟩ := computeTone_instrument hcompute
        have looped : ({ s with eng := e, r := r } : State).afterAll [.toneCompute u n, synCommand ins.kind u n] =
            onEngine { s with eng := e.setTone u t', r := r } (synthDirect
              (State.ctx { s with eng := e.setTone u t', r := r } Config.cfg (synCommand ins.kind u n)) ins.kind u n
              (e.setTone u t')) := by
          rw [← after_synCommand _ known]
          exact congrArg (State.after · (synCommand ins.kind u n)) computed
        rw [looped] at clear ⊢
        obtain ⟨e', he', hw⟩ := onEngine_unfaulted clear
        obtain ⟨t2, ins2, ht2, hins2, rfl⟩ := synthDirect_ok he'
        have length : u < e.tones.length := (List.getElem?_eq_some_iff.mp ht).1
        rw [Engine.setTone_tones, List.getElem?_set_self length] at ht2
        cases ht2
        rw [slot] at hins2
        cases (show some ins2 = some ins from hins2.symm.trans hi)
        refine ⟨_, ?_, r, hw⟩
        have run : computeTone (s.ctx Config.cfg i) e.clock u n ins t = .ok t' :=
          (computeTone_withInfo (s.ctx Config.cfg i) _ e.clock u n ins t).symm.trans hcompute
        have song : (s.ctx Config.cfg i).song = s.song := rfl
        simp only [voiceTones, ht, song, hi, run]
        exact congrArg _ (synthSlot_withInfo (s.ctx Config.cfg i) _ u n ins t' _).symm

theorem voiceTones_cons (x : Ctx) (n u : Nat) (us : List Nat) (e : Engine) :
    voiceTones x n (u :: us) e = (voiceTones x n [u] e).bind (voiceTones x n us) := by
  simp only [voiceTones]
  split
  · rfl
  · split
    · rfl
    · split <;> rfl

/-- The tones of a slot, in a run's order. -/
theorem mirrors_voiceTones (s : State) (i : Instr) (n : Nat) (us : List Nat) :
    s.Mirrors (voiceTones (s.ctx Config.cfg i) n us) (fun w => us.foldl (State.voiceTone n) w) := by
  induction us with
  | nil => exact State.Mirrors.id s
  | cons u us ih => exact ((mirrors_voiceTone s i n u).bind ih).congr (voiceTones_cons _ n u us) (fun _ => rfl)

/-- The effects of a slot where it is awake, as a command (R331). -/
def State.effectsIfAwake (n islot : Nat) (w : State) : State :=
  match w.eng.slots[islot]? with
  | some i => if i.awake then w.after (.fxRun islot 0 n) else w
  | none => w

theorem State.voiceSlot_eq (n : Nat) (w : State) (islot : Nat) : w.voiceSlot n islot =
    ((tonesOf w.eng (slotChannel w.song islot) islot).foldl (State.voiceTone n) w).effectsIfAwake n islot := rfl

/-- The effects of a slot where it is awake, in a run. -/
def effectsIfAwake (x : Ctx) (n islot : Nat) (e : Engine) : Engine :=
  match e.slots[islot]?, slotInstrument x.song islot with
  | some i, some ins => if i.awake then runEffects x islot 0 n ins i e else e
  | _, _ => e

theorem voiceSlot_eq (x : Ctx) (n channel islot : Nat) (e : Engine) : voiceSlot x 0 n channel islot e =
    (voiceTones x n (tonesOf e channel islot) e).bind (fun e1 => .ok (effectsIfAwake x n islot e1)) := by
  unfold voiceSlot
  cases voiceTones x n (tonesOf e channel islot) e with
  | error f => rfl
  | ok e1 =>
    show _ = Except.ok (effectsIfAwake x n islot e1)
    unfold effectsIfAwake
    dsimp only
    split <;> simp_all

/-- `FX.RUN` that completes in direct mode (R300). -/
theorem fxRunWith_unfaulted {x : Ctx} {w : State} {islot pos n : Nat} (clear : (fxRunWith x w islot pos n).fault = false) :
    ∃ i ins, w.eng.slots[islot]? = some i ∧ slotInstrument x.song islot = some ins ∧
      fxRunWith x w islot pos n = { w with eng := runEffects x islot pos n ins i w.eng } := by
  obtain ⟨e', he', hw⟩ := onEngine_unfaulted clear
  split at he'
  next => nomatch he'
  next p hp =>
    split at he'
    next =>
      unfold slotAt at hp
      split at hp
      next i ins hi hins => cases hp; cases he'; exact ⟨i, ins, hi, hins, hw⟩
      next => nomatch hp
    next => nomatch he'

theorem mirrors_effectsIfAwake (s : State) (i : Instr) (n islot : Nat) :
    s.Mirrors (fun e => .ok (effectsIfAwake (s.ctx Config.cfg i) n islot e)) (State.effectsIfAwake n islot) := by
  constructor
  case sticky =>
    intro w clear
    unfold State.effectsIfAwake at clear
    split at clear
    · split at clear
      · exact State.after_sticky (by simp [Rewrites]) clear
      · exact clear
    · exact clear
  case runs =>
    rintro w e ⟨r, rfl⟩ clear
    refine ⟨_, rfl, r, ?_⟩
    unfold State.effectsIfAwake at clear ⊢
    unfold effectsIfAwake
    have song : (s.ctx Config.cfg i).song = s.song := rfl
    rw [song]
    dsimp only at clear ⊢
    cases hi : e.slots[islot]? with
    | none => rfl
    | some j =>
      simp only [hi] at clear ⊢
      cases awake : j.awake with
      | false => cases slotInstrument s.song islot <;> simp [awake]
      | true =>
        simp only [awake, if_true] at clear
        rw [if_pos rfl]
        obtain ⟨j', ins, hj, hins, hw⟩ := fxRunWith_unfaulted clear
        cases (show some j' = some j from hj.symm.trans hi)
        have hins : slotInstrument s.song islot = some ins := hins
        simp only [hins, awake, if_true]
        have effects := runEffects_withInfo (s.ctx Config.cfg i) (commandInfo (.fxRun islot 0 n)) islot 0 n ins j e
        exact hw.trans (congrArg (fun e => ({ s with eng := e, r := r } : State)) effects)

/-- An instrument slot of a run that starts at sample 0 (R331, R333). -/
theorem mirrors_voiceSlot (s : State) (i : Instr) (n islot : Nat) :
    s.Mirrors (voiceSlot (s.ctx Config.cfg i) 0 n (slotChannel s.song islot) islot)
      (fun w => State.voiceSlot n w islot) := by
  have tones := mirrors_voiceTones s i n
  have effects := mirrors_effectsIfAwake s i n islot
  refine ⟨fun clear => (tones _).sticky (effects.sticky clear), ?_⟩
  rintro w e ⟨r, rfl⟩ clear
  obtain ⟨e', he', hw⟩ := ((tones (tonesOf e (slotChannel s.song islot) islot)).bind effects).runs ⟨r, rfl⟩ clear
  exact ⟨e', (voiceSlot_eq _ n _ islot e).trans he', hw⟩

theorem voiceSlots_succ (x : Ctx) (pos n count i : Nat) (e : Engine) : voiceSlots x pos n (count + 1) i e =
    (voiceSlot x pos n (slotChannel x.song i) i e).bind (voiceSlots x pos n count (i + 1)) := by
  rw [voiceSlots]
  cases voiceSlot x pos n (slotChannel x.song i) i e <;> rfl

theorem mirrors_voiceSlots (s : State) (i : Instr) (n : Nat) :
    s.Mirrors (voiceSlots (s.ctx Config.cfg i) 0 n s.song.slotCount 0)
      (fun w => (List.range s.song.slotCount).foldl (State.voiceSlot n) w) :=
  (State.Mirrors.loop (mirrors_voiceSlot s i n) (fun _ _ => rfl) (voiceSlots_succ _ 0 n) s.song.slotCount 0).congr
    (fun _ => rfl) (fun w => by rw [List.range_eq_range'])

/-- The two results of `LIMIT` (R321). -/
theorem value_answer_pair (s : State) (a b : Num) :
    (answer s [a, b]).value 0 = a ∧ (answer s [a, b]).value 1 = b := by
  have first := setResults_at (r := s.r) (i := 0) (k := 0) (l := [a, b]) (by simp) (by decide)
  have second := setResults_at (r := s.r) (i := 0) (k := 1) (l := [a, b]) (by simp) (by decide)
  exact ⟨congrArg (Option.getD · Num.zero) first, congrArg (Option.getD · Num.zero) second⟩

/-- One sample of the master stage (R334). -/
theorem mirrors_limitSample (s : State) (i : Instr) (j : Nat) :
    s.Mirrors (fun e => .ok (limiterLoop (s.ctx Config.cfg i) 1 j e)) (fun w => State.limitSample w j) := by
  have sticky {w : State} (clear : (w.limitSample j).fault = false) : w.fault = false :=
    State.after_sticky (i := .limit (w.eng.readMixL j) (w.eng.readMixR j)) (by simp [Rewrites]) clear
  refine ⟨sticky, ?_⟩
  rintro w e ⟨r, rfl⟩ clear
  have limited (l v : Num) : ({ s with eng := e, r := r } : State).after (.limit l v) = answer
      { s with eng := { e with limit := nextLimit s.sampleRate e.limit l v }, r := r }
      [limiterOutput s.volume (nextLimit s.sampleRate e.limit l v) l,
        limiterOutput s.volume (nextLimit s.sampleRate e.limit l v) v] := command_ok (sticky clear) _
  refine ⟨_, rfl, ?_⟩
  unfold State.limitSample
  rw [limited]
  obtain ⟨left, right⟩ := value_answer_pair
    { s with eng := { e with limit := nextLimit s.sampleRate e.limit (e.readMixL j) (e.readMixR j) }, r := r }
    (limiterOutput s.volume (nextLimit s.sampleRate e.limit (e.readMixL j) (e.readMixR j)) (e.readMixL j))
    (limiterOutput s.volume (nextLimit s.sampleRate e.limit (e.readMixL j) (e.readMixR j)) (e.readMixR j))
  dsimp only
  rw [left, right]
  exact ⟨_, rfl⟩

theorem limiterLoop_succ (x : Ctx) (n j : Nat) (e : Engine) :
    limiterLoop x (n + 1) j e = limiterLoop x n (j + 1) (limiterLoop x 1 j e) := rfl

theorem mirrors_limiterLoop (s : State) (i : Instr) (n : Nat) :
    s.Mirrors (fun e => .ok (limiterLoop (s.ctx Config.cfg i) n 0 e))
      (fun w => (List.range n).foldl State.limitSample w) :=
  (State.Mirrors.loop (loop := fun n j e => .ok (limiterLoop (s.ctx Config.cfg i) n j e)) (mirrors_limitSample s i)
    (fun _ _ => rfl) (fun _ _ _ => rfl) n 0).congr (fun _ => rfl) (fun w => by rw [List.range_eq_range'])

/-- `CLK.ADV` that completes is the clock's advance (R336). -/
theorem mirrors_clkAdv (s : State) (i : Instr) (n : Nat) :
    s.Mirrors (advanceClock (s.ctx Config.cfg i) n) (fun w => w.after (.clkAdv n)) := by
  refine ⟨State.after_sticky (by simp [Rewrites]), ?_⟩
  rintro w e ⟨r, rfl⟩ clear
  obtain ⟨e', he, hw⟩ := onEngine_unfaulted (s := { s with eng := e, r := r }) clear
  refine ⟨e', ?_, r, hw⟩
  split at he
  · exact (advanceClock_withInfo (s.ctx Config.cfg i) _ n e).symm.trans he
  · nomatch he

/-- The commands of one iteration, phase by phase. -/
theorem mirrors_oneRun (s : State) (i : Instr) (n : Nat) :
    s.Mirrors (fun e => (syncAll (s.ctx Config.cfg i) e).bind fun e1 =>
        (voiceSlots (s.ctx Config.cfg i) 0 n s.song.slotCount 0 e1).bind fun e2 =>
          advanceClock (s.ctx Config.cfg i) n (limiterLoop (s.ctx Config.cfg i) n 0 e2))
      (fun w => ((List.range n).foldl State.limitSample ((List.range s.song.slotCount).foldl (State.voiceSlot n)
        (w.afterAll ((List.range s.song.channelCount).map Instr.syncTones)))).after (.clkAdv n)) :=
  (mirrors_syncAll s i).bind ((mirrors_voiceSlots s i n).bind ((mirrors_limiterLoop s i n).bind (mirrors_clkAdv s i n)))

end Sys2Proof.Machine
end

section
set_option Elab.async false
/-! PROOFS. How a `RUN` ends, and the commands that a `RUN` of one run length is made of (`46_master_orchestrator.md`
R330 to R336). -/

namespace Sys2Proof

/-- A space that reads unlisted elements as free values lists every element of the list that it was made of. -/
theorem Memory.find_ofListFrom_none {α : Type} [DecidableEq α] {i k : Nat} (l : List α) (h : i ≤ k) :
    Memory.find (Memory.ofListFrom none i l) k = l[k - i]? := by
  induction l generalizing i with
  | nil => rfl
  | cons v t ih =>
    rw [Memory.ofListFrom, if_neg (by simp), Memory.find]
    obtain rfl | lt := Nat.eq_or_lt_of_le h
    · simp
    · rw [if_neg (by omega), if_neg (by omega), ih lt, show k - i = k - (i + 1) + 1 by omega, List.getElem?_cons_succ]

theorem Memory.find_ofListFrom_replicate {α : Type} [DecidableEq α] {n j : Nat} (h : j < n) (v : α) :
    Memory.find (Memory.ofListFrom none 0 (List.replicate n v)) j = some v := by
  rw [Memory.find_ofListFrom_none _ (Nat.zero_le j)]
  simp [h]

end Sys2Proof

namespace Sys2Proof.Machine

/-! `RUN`, ending by ending (R330, R332). -/

/-- The context of a `RUN`. -/
def State.runCtx (s : State) (n : Nat) : Ctx := s.ctx Config.cfg (.run n)

theorem runWith_zero {x : Ctx} {s : State} (clear : s.fault = false) : runWith x s 0 = .next s := by
  rw [runWith, if_neg (by simp [clear]), if_pos rfl]

theorem runWith_tooLong {x : Ctx} {s : State} {n : Nat} (clear : s.fault = false) (long : x.cfg.outMax < n) :
    runWith x s n = .next (s.withFault 4#8 x.info) := by
  rw [runWith, if_neg (by simp [clear]), if_neg (by omega), if_pos long]
  exact congrArg _ (raise_eq_withFault clear x.badOperand)

theorem runWith_playing {x : Ctx} {s : State} {n : Nat} (clear : s.fault = false) (positive : 0 < n)
    (fits : n ≤ x.cfg.outMax) (playing : s.playing = true) : runWith x s n = .next (runPlaying x s n) := by
  rw [runWith, if_neg (by simp [clear]), if_neg (by omega), if_neg (Nat.not_lt.mpr fits), if_pos playing]

theorem runWith_paused {x : Ctx} {s : State} {n : Nat} (clear : s.fault = false) (positive : 0 < n)
    (fits : n ≤ x.cfg.outMax) (paused : s.playing = false) :
    (x.cfg.pausedRunPolicy = .refuse ∧ runWith x s n = .refused .runWhilePaused) ∨
      (x.cfg.pausedRunPolicy = .silence ∧ runWith x s n = .next { s with eng := silence x n s.eng }) := by
  rw [runWith, if_neg (by simp [clear]), if_neg (by omega), if_neg (Nat.not_lt.mpr fits), if_neg (by simp [paused])]
  cases x.cfg.pausedRunPolicy with
  | refuse => exact .inl ⟨rfl, rfl⟩
  | silence => exact .inr ⟨rfl, rfl⟩

theorem exec_run (n : Nat) (s : State) : exec (.run n) s = runWith (s.runCtx n) s n := rfl

theorem runPlaying_ok {x : Ctx} {s : State} {n : Nat} {e : Engine} (h : runEngine x n s.eng = .ok e) :
    runPlaying x s n = { s with eng := e } := by
  rw [runPlaying, h]

theorem runPlaying_error {x : Ctx} {s : State} {n : Nat} {f : Raise} (clear : s.fault = false)
    (h : runEngine x n s.eng = .error f) :
    runPlaying x s n = { s with eng := wreckEngine x s.eng }.withFault f.kind.code f.info := by
  rw [runPlaying, h]
  exact raise_eq_withFault (s := { s with eng := wreckEngine x s.eng }) clear f

/-- The fault of a run as a code and a detail word (R453, R455). -/
theorem RunFault.code_info {c : Cfg} {song : Song} {count : Nat} {f : Raise} (h : RunFault c song count f) :
    (f.kind.code = 5#8 ∧ ∃ i ins, slotInstrument song i = some ins ∧ 8 ≤ ins.kind ∧
        f.info = BitVec.ofNat 32 (i % 2 ^ 16 + ins.kind % 2 ^ 8 * 2 ^ 16)) ∨
      (f.kind.code = 6#8 ∧ ∃ u k, u < count ∧ 9 ≤ (c.envelopes.get k).kind ∧
        f.info = BitVec.ofNat 32 (u % 2 ^ 16 + (c.envelopes.get k).kind % 2 ^ 8 * 2 ^ 16)) ∨
      (f.kind.code = 7#8 ∧ ∃ d, d < song.channelCount ∧ f.info = BitVec.ofNat 32 (d % 2 ^ 16)) := by
  obtain ⟨d, hd, rfl⟩ | ⟨i, ins, hins, kind, rfl⟩ | ⟨u, hu, k, kind, rfl⟩ := h
  · exact .inr (.inr ⟨rfl, d, hd, rfl⟩)
  · exact .inl ⟨rfl, i, ins, hins, kind, rfl⟩
  · exact .inr (.inl ⟨rfl, u, k, hu, kind, rfl⟩)

/-- A run writes the engine and the fault latch alone (R12, R105, R332). -/
theorem exec_run_frame {s t : State} {n : Nat} (h : exec (.run n) s = .next t) :
    t = { s with
      eng := t.eng, fault := t.fault, faultCode := t.faultCode, faultInfo := t.faultInfo, seq := t.seq
      busy := t.busy } := by
  rw [exec_run] at h
  unfold runWith at h
  split at h
  · rw [← Host.Outcome.next.inj h]
  · split at h
    · rw [← Host.Outcome.next.inj h]
    · split at h
      · rw [← Host.Outcome.next.inj h]
        unfold raise
        split <;> rfl
      · split at h
        · rw [← Host.Outcome.next.inj h]
          unfold runPlaying raise
          split
          · rfl
          · split <;> rfl
        · split at h
          · nomatch h
          · rw [← Host.Outcome.next.inj h]

/-- The clock gives a run the length that it asks for, where that is at most one tick (R333). -/
theorem nextRunLength_eq {n runMax : Nat} {k : Clock} (positive : 0 < n) (tick : n ≤ ceilCount k.tickSampleCountdown)
    (fits : n ≤ runMax) : nextRunLength n runMax k = n := by
  unfold nextRunLength
  omega

theorem runLoop_of_one {x : Ctx} {n : Nat} {e e' : Engine} (positive : 0 < n)
    (once : runOnce { x with pos := 0 } 0 n e = .ok (n, e')) : runLoop x n 0 n e = .ok e' := by
  obtain ⟨k, rfl⟩ := Nat.exists_eq_succ_of_ne_zero positive.ne'
  rw [runLoop, if_neg k.succ_ne_zero, once]
  simp only [Nat.sub_self]
  cases k <;> rfl

/-- The phases of an iteration, at the length that the clock gives (R330). -/
theorem runOnce_of_phases {x : Ctx} {n : Nat} {e e3 : Engine} (positive : 0 < n)
    (tick : n ≤ ceilCount e.clock.tickSampleCountdown) (fits : n ≤ e.runMax x.cfg)
    (phases : ((syncAll x e).bind fun e1 => (voiceSlots x 0 n x.song.slotCount 0 e1).bind fun e2 =>
      advanceClock x n (limiterLoop x n 0 e2)) = .ok e3) : runOnce x 0 n e = .ok (n, e3) := by
  unfold runOnce
  cases h1 : syncAll x e with
  | error f => rw [h1] at phases; nomatch phases
  | ok e1 =>
    rw [h1] at phases
    have clock : e1.clock = e.clock := ((syncAll_leaves x e).ok h1).clock
    have length : nextRunLength n (e1.runMax x.cfg) e1.clock = n := by
      refine nextRunLength_eq positive (clock ▸ tick) ?_
      rwa [Engine.runMax, clock]
    dsimp only
    rw [length]
    change (voiceSlots x 0 n x.song.slotCount 0 e1).bind _ = _ at phases
    cases h2 : voiceSlots x 0 n x.song.slotCount 0 e1 with
    | error f => rw [h2] at phases; nomatch phases
    | ok e2 =>
      rw [h2] at phases
      have advanced : advanceClock x n (limiterLoop x n 0 e2) = .ok e3 := phases
      dsimp only
      rw [advanced]
      rfl

end Sys2Proof.Machine

namespace Sys2Proof.Proofs
open Sys2Proof.Machine

/-- A `RUN` that plays completes or takes a fault of R453, with `SCRATCH` all 0 (R40, assumption 37). -/
theorem run_playing_ends {s : State} {n : Nat} (clear : s.fault = false) (positive : 0 < n)
    (fits : n ≤ Config.cfg.outMax) (playing : s.playing = true) :
    (∃ e, exec (.run n) s = .next { s with eng := e }) ∨
      ∃ e f, exec (.run n) s = .next ({ s with eng := e }.withFault f.kind.code f.info) ∧
        (∀ k, Memory.getNum e.scratch k = Sys2Proof.Num.zero) ∧ RunFault Config.cfg s.song s.eng.tones.length f := by
  rw [exec_run, runWith_playing clear positive fits playing]
  cases h : runEngine (s.runCtx n) n s.eng with
  | ok e => exact .inl ⟨e, congrArg _ (runPlaying_ok h)⟩
  | error f =>
    refine .inr ⟨_, f, congrArg _ (runPlaying_error clear h), fun k => ?_, (runEngine_leaves _ n s.eng).error h⟩
    show Memory.getNum [] k = _
    rfl

/-- The commands of one iteration, where they take no fault, are the run (R330 to R336). -/
theorem run_of_oneRun {s : State} {n : Nat} (clear : s.fault = false) (positive : 0 < n)
    (fits : n ≤ Config.cfg.outMax) (playing : s.playing = true)
    (tick : n ≤ ceilCount s.eng.clock.tickSampleCountdown) (room : n ≤ s.eng.runMax Config.cfg)
    (done : (State.oneRun n { s with eng := openBuffers (s.runCtx n) n s.eng }).fault = false) :
    exec (.run n) s = .next { s with eng := {
      (State.oneRun n { s with eng := openBuffers (s.runCtx n) n s.eng }).eng with work := [], workEpoch := s.epoch } } := by
  obtain ⟨e3, phases, r, final⟩ := (mirrors_oneRun s (.run n) n).runs ⟨s.r, rfl⟩ done
  have once : runOnce (s.runCtx n) 0 n (openBuffers (s.runCtx n) n s.eng) = .ok (n, e3) :=
    runOnce_of_phases positive tick room phases
  have run : runEngine (s.runCtx n) n s.eng = .ok (forgetWork (s.runCtx n) e3) := by
    rw [runEngine, runLoop_of_one positive once]
    rfl
  have left : (State.oneRun n { s with eng := openBuffers (s.runCtx n) n s.eng }).eng = e3 := congrArg State.eng final
  rw [exec_run, runWith_playing clear positive fits playing, runPlaying_ok run, left]
  rfl

/-- Settles O26: by the endings of `RUN`, and phase by phase for its commands. -/
theorem runOutcomes : Obligations.RunOutcomes := by
  intro s n clear
  refine ⟨runWith_zero clear, fun long => runWith_tooLong (x := s.runCtx n) clear long, fun positive fits playing => ?_,
    fun positive fits paused => ?_, fun positive fits playing tick room => ⟨fun j hj => ⟨?_, ?_⟩,
    run_of_oneRun clear positive fits playing tick room⟩, fun t => exec_run_frame⟩
  · obtain completes | ⟨e, f, faults, scratch, fault⟩ := run_playing_ends clear positive fits playing
    · exact .inl completes
    · exact .inr ⟨e, _, _, faults, scratch, fault.code_info⟩
  · obtain refused | ⟨policy, silent⟩ := runWith_paused (x := s.runCtx n) clear positive fits paused
    · exact .inl refused
    · refine .inr ⟨policy, _, silent, rfl, fun j hj => ⟨?_, ?_⟩⟩
      · exact congrArg (Option.getD · _) (Memory.find_ofListFrom_replicate hj 0#32)
      · exact congrArg (Option.getD · _) (Memory.find_ofListFrom_replicate hj 0#32)
  · exact congrArg (Option.getD · _) (Memory.find_ofListFrom_replicate hj Sys2Proof.Num.zero)
  · exact congrArg (Option.getD · _) (Memory.find_ofListFrom_replicate hj Sys2Proof.Num.zero)

end Sys2Proof.Proofs
end

section
set_option Elab.async false
/-! SUPPORT. `SYNC.TONES` of one channel (`46_master_orchestrator.md` R345 to R348): the tones that it ends, the tone that
it makes, keeps or carries over at one place of a chord, and its endings as a command. -/

namespace Sys2Proof.Machine

/-! Tones that end (R345). -/

/-- The state that a tone ends in: released or freed "according to the instrument's transition" (R345). -/
def endState (x : Ctx) (a : Tone) : ToneState :=
  match slotInstrument x.song a.instrument with
  | none => .free
  | some ins => if (x.cfg.transitions.get ins.transition).releases then .released else .free

theorem endState_of_none {x : Ctx} {a : Tone} (h : slotInstrument x.song a.instrument = none) :
    endState x a = .free := by
  rw [endState, h]

theorem endState_of_some {x : Ctx} {a : Tone} {ins : Instrument} (h : slotInstrument x.song a.instrument = some ins) :
    endState x a = if (x.cfg.transitions.get ins.transition).releases then .released else .free := by
  rw [endState, h]

theorem endState_congr (x : Ctx) {a b : Tone} (h : b.instrument = a.instrument) : endState x b = endState x a := by
  rw [endState, h, endState]

/-- The tones of `q` have ended: they are in no queue of active tones, and each has its end's state. -/
structure Engine.Ended (x : Ctx) (q : List Nat) (e e' : Engine) : Prop where
  frame : e' = { e with tones := e'.tones, activeTones := e'.activeTones, releasedTones := e'.releasedTones }
  active : e'.activeTones = e.activeTones.map (List.filter (· ∉ q))
  tones : ∀ {u : Nat} {a : Tone}, e.tones[u]? = some a → ∃ b, e'.tones[u]? = some b ∧ b.instrument = a.instrument ∧
    (u ∈ q → b.state = endState x a) ∧ (u ∉ q → b = a)

theorem unqueue_eq_map (queues : List (List Nat)) (u : Nat) :
    unqueue queues u = queues.map (List.filter (· ∉ [u])) := by
  unfold unqueue
  refine List.map_congr_left fun q _ => List.filter_congr fun w _ => ?_
  rw [Bool.eq_iff_iff]
  simp

/-- A tone that ends is rewritten in its slot and leaves the queues. -/
theorem Engine.Ended.of_set {x : Ctx} {e e' : Engine} {u : Nat} {a b : Tone} (h : e.tones[u]? = some a)
    (tones : e'.tones = e.tones.set u b) (active : e'.activeTones = unqueue e.activeTones u)
    (frame : e' = { e with tones := e'.tones, activeTones := e'.activeTones, releasedTones := e'.releasedTones })
    (instrument : b.instrument = a.instrument) (state : b.state = endState x a) : e.Ended x [u] e' := by
  refine ⟨frame, active.trans (unqueue_eq_map _ u), fun {w c} hw => ?_⟩
  rw [tones]
  by_cases same : w = u
  · subst same
    obtain rfl : c = a := Option.some.inj (hw.symm.trans h)
    have inside : w < e.tones.length := (List.getElem?_eq_some_iff.mp h).1
    exact ⟨b, List.getElem?_set_self inside, instrument, fun _ => state, fun out => absurd (List.mem_singleton.mpr rfl) out⟩
  · refine ⟨c, by rw [List.getElem?_set_ne (Ne.symm same), hw], rfl, fun mem => ?_, fun _ => rfl⟩
    exact absurd (List.mem_singleton.mp mem) same

theorem freeTone_ended {x : Ctx} {e : Engine} {u : Nat} {a : Tone} (h : e.tones[u]? = some a)
    (state : endState x a = .free) : e.Ended x [u] (freeTone e u) :=
  .of_set (b := { a with state := .free }) h (modify_eq_set_of_some h _) rfl rfl rfl state.symm

theorem endTone_ended (x : Ctx) {e : Engine} {u : Nat} {a : Tone} (h : e.tones[u]? = some a) :
    e.Ended x [u] (endTone x e u) := by
  unfold endTone
  rw [h]
  dsimp only
  cases hins : slotInstrument x.song a.instrument with
  | none => exact freeTone_ended h (endState_of_none hins)
  | some ins =>
    have state := endState_of_some hins
    dsimp only
    split at state
    next releases =>
      rw [if_pos releases]
      exact .of_set (b := { a with state := .released, ticksSinceReleased := 0 }) h rfl rfl rfl rfl state.symm
    next stays =>
      rw [if_neg stays]
      exact freeTone_ended h state

theorem Engine.Ended.cons {x : Ctx} {u : Nat} {q : List Nat} {e e1 e2 : Engine} (h : e.Ended x [u] e1)
    (h' : e1.Ended x q e2) : e.Ended x (u :: q) e2 := by
  refine ⟨h'.frame.trans (by rw [h.frame]), ?_, fun {w a} hw => ?_⟩
  · rw [h'.active, h.active, List.map_map]
    refine List.map_congr_left fun l _ => ?_
    rw [Function.comp, List.filter_filter]
    refine List.filter_congr fun w _ => ?_
    simp [Bool.and_comm]
  · obtain ⟨b, hb, instrument, ended, kept⟩ := h.tones hw
    obtain ⟨b', hb', instrument', ended', kept'⟩ := h'.tones hb
    refine ⟨b', hb', instrument'.trans instrument, fun mem => ?_, fun out => ?_⟩
    · by_cases later : w ∈ q
      · exact (ended' later).trans (endState_congr x instrument)
      · have first : w ∈ [u] := by simpa [later] using mem
        rw [kept' later]
        exact ended first
    · rw [List.mem_cons, not_or] at out
      rw [kept' out.2]
      exact kept (by simpa using out.1)

theorem Engine.Ended.length {x : Ctx} {q : List Nat} {e e' : Engine} (h : e.Ended x q e') {u : Nat}
    (inside : u < e.tones.length) : u < e'.tones.length := by
  obtain ⟨b, hb, -⟩ := h.tones (List.getElem?_eq_getElem inside)
  exact (List.getElem?_eq_some_iff.mp hb).1

theorem endTones_ended (x : Ctx) {q : List Nat} {e : Engine} (inside : ∀ u ∈ q, u < e.tones.length) :
    e.Ended x q (endTones x q e) := by
  induction q generalizing e with
  | nil =>
    refine ⟨rfl, ?_, fun {u a} h => ⟨a, h, rfl, fun mem => absurd mem List.not_mem_nil, fun _ => rfl⟩⟩
    exact (List.map_id'' (fun l => List.filter_eq_self.mpr (by simp)) e.activeTones).symm
  | cons u q ih =>
    have first := endTone_ended x (List.getElem?_eq_getElem (inside u List.mem_cons_self))
    exact first.cons (ih fun w hw => first.length (inside w (List.mem_cons_of_mem u hw)))

/-- A channel's queue is empty where all its tones have ended. -/
theorem Engine.Ended.active_same {x : Ctx} {q : List Nat} {e e' : Engine} (h : e.Ended x q e') {c : Nat}
    (hq : e.activeTones[c]? = some q) : e'.activeTones[c]? = some [] := by
  rw [h.active, List.getElem?_map, hq, Option.map_some, List.filter_eq_nil_iff.mpr]
  simp

/-- The queue of a channel that holds none of the ended tones stays. -/
theorem Engine.Ended.active_other {x : Ctx} {q : List Nat} {e e' : Engine} (h : e.Ended x q e') {d : Nat}
    (disjoint : ∀ q', e.activeTones[d]? = some q' → ∀ u ∈ q, u ∉ q') : e'.activeTones[d]? = e.activeTones[d]? := by
  rw [h.active, List.getElem?_map]
  cases hd : e.activeTones[d]? with
  | none => rfl
  | some q' =>
    rw [Option.map_some, List.filter_eq_self.mpr]
    intro w hw
    have out : w ∉ q := fun mem => disjoint q' hd w mem hw
    simpa using out

/-- The tone cap behind the ends of tones. -/
theorem Engine.Ended.capTones_frame {x y : Ctx} {q : List Nat} {e e' : Engine} (h : e.Ended x q e') (c : Nat) :
    capTones y c e' = { e with
      tones := (capTones y c e').tones, activeTones := e'.activeTones, releasedTones := e'.releasedTones } :=
  congrArg (fun f : Engine => { f with tones := (capTones y c e').tones }) h.frame

/-- The tone cap marks tones and does nothing else (R347). -/
theorem capTones_tone (x : Ctx) (c : Nat) {e : Engine} {u : Nat} {a : Tone} (h : e.tones[u]? = some a) :
    (capTones x c e).tones[u]? = some { a with
      fadeOutFast := a.fadeOutFast || ((releasedNewestFirst x.song e c).drop
        (x.cfg.maximumTonesPerChannel - (e.activeTones.getD c []).length)).contains u } := by
  simp only [capTones, List.getElem?_mapIdx, h, Option.map_some]
  split
  next capped => rw [capped, Bool.or_true]
  next free => rw [Bool.eq_false_iff.mpr free, Bool.or_false]

/-! The note that a channel plays now (R345, R348). -/

/-- What channel `c` plays now, and how many tones it wants for it. -/
def voicingNow (x : Ctx) (c : Nat) (e : Engine) : Option (Voicing × Nat) :=
  (currentPattern x.song e.clock.bar c).bind (voicingOf x c (partAbs x.cfg e.clock) e.clock.barsPassed)

theorem syncTones_of_silent {x : Ctx} {c : Nat} {e : Engine} (h : voicingNow x c e = none) :
    syncTones x c e = .ok (capTones x c (endTones x (e.activeTones.getD c []) e)) := by
  unfold voicingNow at h
  simp only [syncTones, h]

theorem syncTones_of_ok {x : Ctx} {c want : Nat} {v : Voicing} {e e1 : Engine} (h : voicingNow x c e = some (v, want))
    (many : syncMany x v want 0 e = .ok e1) :
    syncTones x c e = .ok (capTones x c (endTones x ((e1.activeTones.getD c []).drop want) e1)) := by
  unfold voicingNow at h
  simp only [syncTones, h, many]

theorem syncTones_of_error {x : Ctx} {c want : Nat} {v : Voicing} {e : Engine} {f : Raise}
    (h : voicingNow x c e = some (v, want)) (many : syncMany x v want 0 e = .error f) : syncTones x c e = .error f := by
  unfold voicingNow at h
  simp only [syncTones, h, many]

theorem syncTonesWith_of_ok {x : Ctx} {s : State} {c : Nat} {e : Engine} (clear : s.fault = false)
    (channel : c < x.song.channelCount) (h : syncTones x c s.eng = .ok e) :
    syncTonesWith x s c = { s with eng := e } := by
  rw [syncTonesWith, if_pos channel, h, onEngine_ok clear]

theorem syncTonesWith_of_overflow {x : Ctx} {s : State} {c : Nat} (clear : s.fault = false)
    (channel : c < x.song.channelCount) (h : syncTones x c s.eng = .error (overflowOf c)) :
    syncTonesWith x s c = s.withFault 7#8 (BitVec.ofNat 32 (c % 2 ^ 16)) := by
  rw [syncTonesWith, if_pos channel, h, onEngine_error_eq clear]
  rfl

/-- A channel that does not exist (R345). -/
theorem syncTonesWith_of_missing {x : Ctx} {s : State} {c : Nat} (clear : s.fault = false)
    (missing : ¬ c < x.song.channelCount) : syncTonesWith x s c = s.withFault 2#8 x.info := by
  rw [syncTonesWith, if_neg missing, onEngine_error_eq clear]
  rfl

/-- No note sounds where none covers the part. -/
theorem noteAt_eq_none {part i : Nat} {notes : List Note} (h : ∀ n ∈ notes, part < n.start ∨ n.stop ≤ part) :
    noteAt part i notes = none := by
  induction notes generalizing i with
  | nil => rfl
  | cons n rest ih =>
    have silent : ¬(n.start ≤ part ∧ part < n.stop) := by
      have := h n List.mem_cons_self
      omega
    rw [noteAt, if_neg silent]
    exact ih fun m hm => h m (List.mem_cons_of_mem n hm)

/-- The first note that covers the part sounds. -/
theorem noteAt_eq_some {part i j : Nat} {notes : List Note} {n : Note} (hn : notes[j]? = some n)
    (started : n.start ≤ part) (lasts : part < n.stop)
    (first : ∀ (l : Nat) (m : Note), l < j → notes[l]? = some m → part < m.start ∨ m.stop ≤ part) :
    noteAt part i notes = some (i + j, n) := by
  induction notes generalizing i j with
  | nil => simp at hn
  | cons m rest ih =>
    cases j with
    | zero =>
      obtain rfl : m = n := by simpa using hn
      rw [noteAt, if_pos ⟨started, lasts⟩]
      rfl
    | succ j =>
      have silent : ¬(m.start ≤ part ∧ part < m.stop) := by
        have := first 0 m (by omega) rfl
        omega
      have later := ih (i := i + 1) (by simpa using hn)
        fun l m' hl hm' => first (l + 1) m' (by omega) (by simpa using hm')
      rw [noteAt, if_neg silent, later]
      congr 2
      omega

theorem currentPattern_of_muted {song : Song} {bar c : Nat} {ch : Channel} (hch : song.channels[c]? = some ch)
    (h : ch.muted = true ∨ ch.bars.getD bar 0 = 0) : currentPattern song bar c = none := by
  simp only [currentPattern, hch]
  exact if_pos h

theorem currentPattern_of_bar {song : Song} {bar c b : Nat} {ch : Channel} (hch : song.channels[c]? = some ch)
    (heard : ch.muted = false) (hb : ch.bars.getD bar 0 = b + 1) :
    currentPattern song bar c = (ch.patterns[b]?).map (fun p => (b, p)) := by
  have played : ¬(ch.muted = true ∨ b + 1 = 0) := by simp [heard]
  simp only [currentPattern, hch, hb]
  rw [if_neg played]
  rfl

/-- A channel that is muted, or whose bar is empty, or whose pattern has no note at this part. -/
theorem voicingNow_eq_none {x : Ctx} {c : Nat} {e : Engine} {ch : Channel} (hch : x.song.channels[c]? = some ch)
    (silent : ch.muted = true ∨ ch.bars.getD e.clock.bar 0 = 0 ∨ ∃ b, ch.bars.getD e.clock.bar 0 = b + 1 ∧
      ∀ p, ch.patterns[b]? = some p → ∀ note ∈ p.notes, partAbs x.cfg e.clock < note.start ∨
        note.stop ≤ partAbs x.cfg e.clock) : voicingNow x c e = none := by
  unfold voicingNow
  obtain muted | empty | ⟨b, hb, rests⟩ := silent
  · rw [currentPattern_of_muted hch (.inl muted), Option.bind_none]
  · rw [currentPattern_of_muted hch (.inr empty), Option.bind_none]
  · cases muted : ch.muted with
    | true => rw [currentPattern_of_muted hch (.inl muted), Option.bind_none]
    | false =>
      rw [currentPattern_of_bar hch muted hb]
      cases hp : ch.patterns[b]? with
      | none => rfl
      | some p =>
        rw [Option.map_some, Option.bind_some, voicingOf, noteAt_eq_none (rests p hp)]

end Sys2Proof.Machine
end

section
set_option Elab.async false
/-! PROOFS. `SYNC.TONES` of a silent channel and of one that plays a note (`46_master_orchestrator.md` R345 to R348). -/

namespace Sys2Proof.Machine

/-! A tone made for one place of a chord (R345). -/

/-- A tone that has just been made and filled. -/
def freshTone (c : Cfg) (v : Voicing) (k : Nat) : Tone := fillTone v k { Tone.zero c with state := .active }

/-- The engine with a new tone in slot `u`, at place `k` of the queue `q` of its channel. -/
def madeTone (c : Cfg) (v : Voicing) (k u : Nat) (q : List Nat) (e : Engine) : Engine :=
  { e with
    tones := e.tones.set u (freshTone c v k)
    activeTones := e.activeTones.set v.channel (q.take k ++ u :: q.drop k)
    slots := e.slots.modify v.islot Slot.wake }

theorem createTone_of_free {x : Ctx} {v : Voicing} {k u : Nat} {e : Engine} {a : Tone} {q : List Nat}
    (channel : slotChannel x.song v.islot = v.channel) (hq : e.activeTones[v.channel]? = some q)
    (hu : e.tones[u]? = some a) (free : a.state = .free)
    (low : ∀ (j : Nat) (b : Tone), j < u → e.tones[j]? = some b → b.state ≠ .free) :
    createTone x v k e = .ok (madeTone x.cfg v k u q e) := by
  have slot := freeSlotFrom_eq_some (i := 0) hu free low
  rw [Nat.zero_add] at slot
  have inside : u < e.tones.length := (List.getElem?_eq_some_iff.mp hu).1
  rw [createTone, newTone_of_free slot, channel, modify_eq_set_of_some hq]
  simp only [Except.map, wakeSlot]
  rw [modify_eq_set_of_some (List.getElem?_set_self inside), List.set_set]
  rfl

theorem createTone_of_none {x : Ctx} {v : Voicing} {k : Nat} {e : Engine} (taken : ∀ a ∈ e.tones, a.state ≠ .free) :
    createTone x v k e = .error (overflowOf v.channel) := by
  rw [createTone, newTone_of_none (freeSlotFrom_eq_none taken)]
  rfl

theorem syncMany_one_of_ok {x : Ctx} {v : Voicing} {e e1 : Engine} (h : syncOne x v 0 e = .ok e1) :
    syncMany x v 1 0 e = .ok e1 := by
  rw [syncMany, h]
  rfl

theorem syncMany_one_of_error {x : Ctx} {v : Voicing} {e : Engine} {f : Raise} (h : syncOne x v 0 e = .error f) :
    syncMany x v 1 0 e = .error f := by
  rw [syncMany, h]

/-! A chord in an idle block (R345). -/

theorem wake_wake (i : Slot) : i.wake.wake = i.wake := rfl

theorem modify_wake_twice (l : List Slot) (u : Nat) : (l.modify u Slot.wake).modify u Slot.wake = l.modify u Slot.wake := by
  refine List.ext_getElem? fun k => ?_
  simp only [List.getElem?_modify]
  cases l[k]? with
  | none => rfl
  | some i => by_cases same : u = k <;> simp [same, wake_wake]

/-- `k` tones of a chord have been made in the lowest slots of `e0`, for the first places of the queue. -/
structure Engine.Chorded (c : Cfg) (v : Voicing) (e0 : Engine) (k : Nat) (e : Engine) : Prop where
  frame : e = { e0 with tones := e.tones, activeTones := e.activeTones, slots := e.slots }
  queue : e.activeTones = e0.activeTones.set v.channel (List.range k)
  slots : e.slots.modify v.islot Slot.wake = e0.slots.modify v.islot Slot.wake
  woken : 0 < k → e.slots = e0.slots.modify v.islot Slot.wake
  made : ∀ j, j < k → e.tones[j]? = some (freshTone c v j)
  rest : ∀ j, k ≤ j → e.tones[j]? = e0.tones[j]?

theorem Engine.Chorded.zero (c : Cfg) {v : Voicing} {e0 : Engine} (idle : e0.activeTones[v.channel]? = some []) :
    Engine.Chorded c v e0 0 e0 := by
  refine ⟨rfl, ?_, rfl, fun h => absurd h (Nat.lt_irrefl 0), fun j hj => absurd hj (Nat.not_lt_zero j), fun _ _ => rfl⟩
  obtain ⟨inside, get⟩ := List.getElem?_eq_some_iff.mp idle
  rw [List.range_zero, ← get, List.set_getElem_self]

/-- The queue of the channel after `k` tones. -/
theorem Engine.Chorded.queue_get {c : Cfg} {v : Voicing} {e0 e : Engine} {k : Nat} (h : Engine.Chorded c v e0 k e)
    (inside : v.channel < e0.activeTones.length) : e.activeTones[v.channel]? = some (List.range k) := by
  rw [h.queue, List.getElem?_set_self inside]

/-- No tone of the chord stands at place `k` yet. -/
theorem Engine.Chorded.syncOne_eq {c : Cfg} {x : Ctx} {v : Voicing} {e0 e : Engine} {k : Nat} (h : Engine.Chorded c v e0 k e)
    (inside : v.channel < e0.activeTones.length) : syncOne x v k e = createTone x v k e := by
  refine syncOne_of_no_tone x v ?_
  rw [List.getD_eq_getElem?_getD, h.queue_get inside]
  simp

/-- The next tone of a chord is made in the next slot. -/
theorem Engine.Chorded.step {x : Ctx} {v : Voicing} {e0 e : Engine} {k : Nat} {a : Tone}
    (h : Engine.Chorded x.cfg v e0 k e) (inside : v.channel < e0.activeTones.length)
    (channel : slotChannel x.song v.islot = v.channel) (ha : e0.tones[k]? = some a) (free : a.state = .free) :
    ∃ e', syncOne x v k e = .ok e' ∧ Engine.Chorded x.cfg v e0 (k + 1) e' := by
  have hk : e.tones[k]? = some a := (h.rest k (Nat.le_refl k)).trans ha
  have room : k < e.tones.length := (List.getElem?_eq_some_iff.mp hk).1
  refine ⟨_, (h.syncOne_eq inside).trans (createTone_of_free channel (h.queue_get inside) hk free fun j b hj hb => ?low), ?_⟩
  case low =>
    obtain rfl := Option.some.inj (hb.symm.trans (h.made j hj))
    nofun
  refine ⟨?_, ?_, ?_, fun _ => h.slots, fun j hj => ?_, fun j hj => ?_⟩
  · rw [h.frame]
    rfl
  · show e.activeTones.set v.channel _ = _
    rw [h.queue, List.set_set]
    congr 1
    rw [List.take_of_length_le (by simp), List.drop_of_length_le (by simp), List.range_succ]
  · exact (modify_wake_twice ..).trans h.slots
  · show (e.tones.set k _)[j]? = _
    obtain before | rfl := Nat.lt_succ_iff_lt_or_eq.mp hj
    · rw [List.getElem?_set_ne (by omega)]
      exact h.made j before
    · exact List.getElem?_set_self room
  · show (e.tones.set k _)[j]? = _
    rw [List.getElem?_set_ne (by omega)]
    exact h.rest j (by omega)

/-- Every wanted tone is made where there are slots for them. -/
theorem Engine.Chorded.syncMany_ok {x : Ctx} {v : Voicing} {e0 : Engine} (inside : v.channel < e0.activeTones.length)
    (channel : slotChannel x.song v.islot = v.channel) (free : ∀ a ∈ e0.tones, a.state = .free) (n : Nat) {k : Nat}
    {e : Engine} (h : Engine.Chorded x.cfg v e0 k e) (room : k + n ≤ e0.tones.length) :
    ∃ e', syncMany x v n k e = .ok e' ∧ Engine.Chorded x.cfg v e0 (k + n) e' := by
  induction n generalizing k e with
  | zero => exact ⟨e, rfl, h⟩
  | succ n ih =>
    have slot : k < e0.tones.length := by omega
    obtain ⟨e1, one, next⟩ := h.step inside channel (List.getElem?_eq_getElem slot) (free _ (List.getElem_mem slot))
    obtain ⟨e', many, done⟩ := ih next (by omega)
    refine ⟨e', ?_, by rwa [Nat.add_right_comm] at done⟩
    rw [syncMany, one]
    exact many

/-- With fewer slots than wanted tones the synchronisation overflows. -/
theorem Engine.Chorded.syncMany_overflow {x : Ctx} {v : Voicing} {e0 : Engine}
    (inside : v.channel < e0.activeTones.length) (channel : slotChannel x.song v.islot = v.channel)
    (free : ∀ a ∈ e0.tones, a.state = .free) (n : Nat) {k : Nat} {e : Engine} (h : Engine.Chorded x.cfg v e0 k e)
    (made : k ≤ e0.tones.length) (short : e0.tones.length < k + n) :
    syncMany x v n k e = .error (overflowOf v.channel) := by
  induction n generalizing k e with
  | zero => omega
  | succ n ih =>
    obtain slot | rfl := Nat.lt_or_eq_of_le made
    · obtain ⟨e1, one, next⟩ := h.step inside channel (List.getElem?_eq_getElem slot) (free _ (List.getElem_mem slot))
      rw [syncMany, one]
      exact ih next slot (by omega)
    · have full : createTone x v e0.tones.length e = .error (overflowOf v.channel) := by
        refine createTone_of_none fun a ha => ?_
        obtain ⟨j, hj⟩ := List.mem_iff_getElem?.mp ha
        by_cases early : j < e0.tones.length
        · obtain rfl := Option.some.inj (hj.symm.trans (h.made j early))
          nofun
        · rw [h.rest j (by omega), List.getElem?_eq_none (by omega)] at hj
          nomatch hj
      rw [syncMany, (h.syncOne_eq inside).trans full]

/-! The note that a channel plays (R345, R348). -/

/-- Channel `c` plays note `i` of pattern `b` of the song now, in an instrument of the song. -/
structure Plays (x : Ctx) (song : Song) (e : Engine) (c b i : Nat) (ch : Channel) (p : Pattern) (note : Note)
    (ins : Instrument) : Prop where
  same : x.song = song
  channel : song.channels[c]? = some ch
  heard : ch.muted = false
  bar : ch.bars.getD e.clock.bar 0 = b + 1
  pattern : ch.patterns[b]? = some p
  instrument : p.instrument < song.instrumentsPerChannel
  record : slotInstrument song (c * song.instrumentsPerChannel + p.instrument) = some ins
  sounds : p.notes[i]? = some note
  started : note.start ≤ partAbs x.cfg e.clock
  lasts : partAbs x.cfg e.clock < note.stop
  first : ∀ (j : Nat) (m : Note), j < i → p.notes[j]? = some m →
    partAbs x.cfg e.clock < m.start ∨ m.stop ≤ partAbs x.cfg e.clock

/-- A neighbour of the note, where it joins. -/
def neighbourOf (p : Pattern) (b bars j : Nat) (joins : Note → Bool) : Option NoteRef :=
  (p.notes[j]?).bind (fun m => if joins m then some ⟨b, j, bars⟩ else none)

/-- What the tones of the note are made of (R345). -/
def playedVoicing (cfg : Cfg) (song : Song) (bars c b i : Nat) (p : Pattern) (note : Note) (ins : Instrument) : Voicing where
  channel := c
  islot := c * song.instrumentsPerChannel + p.instrument
  ref := ⟨b, i, bars⟩
  note := note
  prev := if i = 0 then none else neighbourOf p b bars (i - 1) (fun m => m.stop == note.start)
  next := neighbourOf p b bars (i + 1) (fun m => m.start == note.stop)
  together := (cfg.chords.get ins.chord).singleTone || (cfg.chords.get ins.chord).arpeggiates
  seamless := (cfg.transitions.get ins.transition).isSeamless
  previousStop := fun r => (p.notes[r.note]?).map Note.stop

theorem voicingOf_of_note {x : Ctx} {c part bars b i : Nat} {p : Pattern} {note : Note} {ins : Instrument}
    (sounds : noteAt part 0 p.notes = some (i, note))
    (record : slotInstrument x.song (c * x.song.instrumentsPerChannel + p.instrument) = some ins) :
    voicingOf x c part bars (b, p) = some (playedVoicing x.cfg x.song bars c b i p note ins,
      wantedTones (x.cfg.chords.get ins.chord) note.pitches.length (part - note.start)) := by
  simp only [voicingOf, sounds, record]
  unfold playedVoicing neighbourOf
  cases p.notes[i - 1]? <;> cases p.notes[i + 1]? <;> rfl

section
variable {x : Ctx} {song : Song} {e : Engine} {c b i : Nat} {ch : Channel} {p : Pattern} {note : Note} {ins : Instrument}

theorem Plays.voicingNow_eq (h : Plays x song e c b i ch p note ins) :
    voicingNow x c e = some (playedVoicing x.cfg song e.clock.barsPassed c b i p note ins,
      wantedTones (x.cfg.chords.get ins.chord) note.pitches.length (partAbs x.cfg e.clock - note.start)) := by
  have sounds := noteAt_eq_some (i := 0) h.sounds h.started h.lasts h.first
  rw [Nat.zero_add] at sounds
  have same := h.same
  subst same
  rw [voicingNow, currentPattern_of_bar h.channel h.heard h.bar, h.pattern, Option.map_some, Option.bind_some,
    voicingOf_of_note sounds h.record]

theorem Plays.slotChannel_eq (h : Plays x song e c b i ch p note ins) :
    slotChannel x.song (c * song.instrumentsPerChannel + p.instrument) = c := by
  have count : 0 < song.instrumentsPerChannel := Nat.zero_lt_of_lt h.instrument
  rw [h.same, slotChannel, Nat.add_comm, Nat.add_mul_div_right _ _ count, Nat.div_eq_of_lt h.instrument, Nat.zero_add]

theorem Plays.channel_lt (h : Plays x song e c b i ch p note ins) : c < x.song.channelCount := by
  rw [h.same]
  exact (List.getElem?_eq_some_iff.mp h.channel).1

end

/-! The endings of `SYNC.TONES` for a note of one pitch and for a chord (R345, R346). -/

/-- A note of one pitch wants one tone. -/
theorem wantedTones_one (ch : Chord) (into : Nat) : wantedTones ch 1 into = 1 := by
  unfold wantedTones
  split
  · rfl
  · split
    · exact Nat.min_eq_left (Nat.le_add_right 1 _)
    · rfl

/-- A chord wants a tone at least. -/
theorem wantedTones_pos (ch : Chord) {size : Nat} (h : 0 < size) (into : Nat) : 0 < wantedTones ch size into := by
  unfold wantedTones
  split
  · exact Nat.one_pos
  · split
    · exact Nat.lt_min.mpr ⟨h, Nat.lt_add_right _ Nat.one_pos⟩
    · exact h

/-- The tone of a note of one pitch has that pitch, whatever the chord. -/
theorem fillTone_of_single {v : Voicing} {pitch : Nat} (h : v.note.pitches = [pitch]) (t : Tone) :
    fillTone v 0 t = { fillTone v 0 t with pitches := [pitch] } := by
  have pitches : (if v.together then v.note.pitches else [v.note.pitches.getD 0 0]) = [pitch] := by
    rw [h]
    exact ite_self _
  rw [fillTone, pitches]

/-- A tone is carried over where the transition is seamless and the notes touch in one bar (R346). -/
theorem keepSeamless_iff (cfg : Cfg) (song : Song) (bars c b i : Nat) (p : Pattern) (note : Note) (ins : Instrument)
    (a : Tone) : keepSeamless (playedVoicing cfg song bars c b i p note ins) a = true ↔
      (cfg.transitions.get ins.transition).isSeamless = true ∧
        a.instrument = c * song.instrumentsPerChannel + p.instrument ∧
        ∃ r m, a.note = some r ∧ r.pattern = b ∧ r.bar = bars ∧ p.notes[r.note]? = some m ∧ m.stop = note.start := by
  unfold keepSeamless playedVoicing
  cases a.note with
  | none => simp
  | some r => simp [and_assoc]

section
variable {x : Ctx} {s : State} {c want : Nat} {v : Voicing}

/-- The tone of a place, and the end of the surplus. -/
theorem syncTonesWith_of_kept {e1 : Engine} {q : List Nat} (clear : s.fault = false) (channel : c < x.song.channelCount)
    (now : voicingNow x c s.eng = some (v, want)) (many : syncMany x v want 0 s.eng = .ok e1)
    (hq : e1.activeTones[c]? = some q) :
    syncTonesWith x s c = { s with eng := capTones x c (endTones x (q.drop want) e1) } := by
  have ends := syncTones_of_ok now many
  rw [List.getD_eq_getElem?_getD, hq, Option.getD_some] at ends
  exact syncTonesWith_of_ok clear channel ends

/-- No surplus is left. -/
theorem syncTonesWith_of_filled {e1 : Engine} {q : List Nat} (clear : s.fault = false) (channel : c < x.song.channelCount)
    (now : voicingNow x c s.eng = some (v, want)) (many : syncMany x v want 0 s.eng = .ok e1)
    (hq : e1.activeTones[c]? = some q) (few : q.length ≤ want) :
    syncTonesWith x s c = { s with eng := capTones x c e1 } := by
  rw [syncTonesWith_of_kept clear channel now many hq, List.drop_of_length_le few]
  rfl

/-- The overflow of a synchronisation, with the channel as its detail. -/
theorem syncTonesWith_of_many_error (clear : s.fault = false) (channel : c < x.song.channelCount)
    (now : voicingNow x c s.eng = some (v, want)) (many : syncMany x v want 0 s.eng = .error (overflowOf c)) :
    syncTonesWith x s c = s.withFault 7#8 (BitVec.ofNat 32 (c % 2 ^ 16)) :=
  syncTonesWith_of_overflow clear channel (syncTones_of_error now many)

end

/-- The first place of an empty queue is filled with a new tone. -/
theorem syncOne_of_idle {x : Ctx} {v : Voicing} {e : Engine} (idle : e.activeTones[v.channel]? = some []) :
    syncOne x v 0 e = createTone x v 0 e := by
  refine syncOne_of_no_tone x v ?_
  rw [List.getD_eq_getElem?_getD, idle]
  rfl

section
variable {x : Ctx} {v : Voicing} {e : Engine} {u : Nat} {rest : List Nat} {a : Tone}

/-- The first tone of a queue is kept, carried over, or ended and made anew. -/
theorem syncOne_of_head (queue : e.activeTones[v.channel]? = some (u :: rest)) (ha : e.tones[u]? = some a) :
    syncOne x v 0 e =
      if a.note = some v.ref then .ok e
      else if keepSeamless v a then .ok (e.setTone u (carryOver v 0 a))
      else createTone x v 0 (endTone x e u) := by
  refine syncOne_of_tone x v ?_ ha
  rw [List.getD_eq_getElem?_getD, queue]
  rfl

theorem syncOne_of_same (queue : e.activeTones[v.channel]? = some (u :: rest)) (ha : e.tones[u]? = some a)
    (same : a.note = some v.ref) : syncOne x v 0 e = .ok e := by
  rw [syncOne_of_head queue ha, if_pos same]

theorem syncOne_of_seamless (queue : e.activeTones[v.channel]? = some (u :: rest)) (ha : e.tones[u]? = some a)
    (other : a.note ≠ some v.ref) (keeps : keepSeamless v a = true) :
    syncOne x v 0 e = .ok (e.setTone u (carryOver v 0 a)) := by
  rw [syncOne_of_head queue ha, if_neg other, if_pos keeps]

theorem syncOne_of_apart (queue : e.activeTones[v.channel]? = some (u :: rest)) (ha : e.tones[u]? = some a)
    (other : a.note ≠ some v.ref) (apart : ¬ keepSeamless v a = true) :
    syncOne x v 0 e = createTone x v 0 (endTone x e u) := by
  rw [syncOne_of_head queue ha, if_neg other, if_neg apart]

end

/-! A note of one pitch (R345, R346): `v` is what its tones are made of. -/

section
variable {x : Ctx} {s : State} {c b i pitch : Nat} {ch : Channel} {p : Pattern} {note : Note} {ins : Instrument}
  {v : Voicing}

theorem Plays.voicingNow_single (h : Plays x s.song s.eng c b i ch p note ins) (single : note.pitches = [pitch])
    (hv : v = playedVoicing x.cfg s.song s.eng.clock.barsPassed c b i p note ins) :
    voicingNow x c s.eng = some (v, 1) := by
  rw [h.voicingNow_eq, single, List.length_singleton, wantedTones_one, hv]

/-- The tone is made from an engine whose queue of the channel is empty. -/
theorem Plays.makes_ok {e : Engine} {u : Nat} {a : Tone} (h : Plays x s.song s.eng c b i ch p note ins)
    (clear : s.fault = false) (single : note.pitches = [pitch])
    (hv : v = playedVoicing x.cfg s.song s.eng.clock.barsPassed c b i p note ins)
    (idle : e.activeTones[c]? = some []) (create : syncOne x v 0 s.eng = createTone x v 0 e)
    (hu : e.tones[u]? = some a) (free : a.state = .free)
    (low : ∀ (j : Nat) (d : Tone), j < u → e.tones[j]? = some d → d.state ≠ .free) :
    syncTonesWith x s c = { s with eng := capTones x c (madeTone x.cfg v 0 u [] e) } := by
  have now := h.voicingNow_single single hv
  subst hv
  have made := create.trans (createTone_of_free h.slotChannel_eq idle hu free low)
  have inside : c < e.activeTones.length := (List.getElem?_eq_some_iff.mp idle).1
  exact syncTonesWith_of_filled clear h.channel_lt now (syncMany_one_of_ok made) (List.getElem?_set_self inside)
    (Nat.le_refl 1)

/-- `ToneOverflow` where no slot is free (R455). -/
theorem Plays.makes_overflow {e : Engine} (h : Plays x s.song s.eng c b i ch p note ins) (clear : s.fault = false)
    (single : note.pitches = [pitch]) (hv : v = playedVoicing x.cfg s.song s.eng.clock.barsPassed c b i p note ins)
    (create : syncOne x v 0 s.eng = createTone x v 0 e) (taken : ∀ a ∈ e.tones, a.state ≠ .free) :
    syncTonesWith x s c = s.withFault 7#8 (BitVec.ofNat 32 (c % 2 ^ 16)) := by
  have now := h.voicingNow_single single hv
  subst hv
  exact syncTonesWith_of_many_error clear h.channel_lt now (syncMany_one_of_error (create.trans (createTone_of_none taken)))

end

end Sys2Proof.Machine

namespace Sys2Proof.Proofs
open Sys2Proof.Machine

/-- `SYNC.TONES` of a channel that plays nothing now (R345). -/
theorem syncTones_silent {s : State} {c : Nat} {ch : Channel} {q : List Nat} (clear : s.fault = false)
    (hch : s.song.channels[c]? = some ch)
    (silent : ch.muted = true ∨ ch.bars.getD s.eng.clock.bar 0 = 0 ∨ ∃ b, ch.bars.getD s.eng.clock.bar 0 = b + 1 ∧
      ∀ p, ch.patterns[b]? = some p → ∀ note ∈ p.notes, partAbs Config.cfg s.eng.clock < note.start ∨
        note.stop ≤ partAbs Config.cfg s.eng.clock)
    (hq : s.eng.activeTones[c]? = some q) :
    exec (.syncTones c) s = .next { s with
      eng := capTones (s.ctx Config.cfg (.syncTones c)) c (endTones (s.ctx Config.cfg (.syncTones c)) q s.eng) } := by
  have inside : c < s.song.channelCount := (List.getElem?_eq_some_iff.mp hch).1
  have ends := syncTones_of_silent (voicingNow_eq_none (x := s.ctx Config.cfg (.syncTones c)) hch silent)
  rw [List.getD_eq_getElem?_getD, hq, Option.getD_some] at ends
  exact congrArg Host.Outcome.next (syncTonesWith_of_ok clear inside ends)

/-- Settles O55: the silent channel by what its tones end in, the note of one pitch by the first tone of the queue, the
chord by the invariant `Engine.Chorded` of the tones made so far. -/
theorem syncSilentChannel : Obligations.SyncSilentChannel := by
  refine ⟨fun s c clear => ⟨fun ch q hch silent hq inside disjoint => ?silent, fun missing => ?missing⟩, fun s c => rfl,
    fun x s c b i ch p note ins q song clear hch heard hb hp hinst hrec hnote started lasts first hq => ?played⟩
  case silent =>
    have ended := endTones_ended (s.ctx Config.cfg (.syncTones c)) inside
    refine ⟨_, syncTones_silent clear hch silent hq,
      congrArg (fun e => ({ s with eng := e } : State)) (ended.capTones_frame c), ended.active_same hq,
      fun d other => ended.active_other fun q' => disjoint d q' other, fun u a ha => ?_⟩
    obtain ⟨b, hb, -, gone, kept⟩ := ended.tones ha
    refine ⟨_, capTones_tone _ c hb, fun mem => ⟨fun unknown => ?_, fun ins hins => ?_⟩, fun out => ?_⟩
    · exact (gone mem).trans (endState_of_none unknown)
    · exact (gone mem).trans (endState_of_some hins)
    · rw [kept out]
  case missing =>
    have out : ¬ c < s.song.channelCount := Nat.not_lt.mpr missing
    exact congrArg Host.Outcome.next (syncTonesWith_of_missing (x := s.ctx Config.cfg (.syncTones c)) clear out)
  case played =>
    have plays : Plays x s.song s.eng c b i ch p note ins :=
      ⟨song, hch, heard, hb, hp, hinst, hrec, hnote, started, lasts, first⟩
    have inside : c < s.eng.activeTones.length := (List.getElem?_eq_some_iff.mp hq).1
    intro cfg islot chord ref neighbour fill fresh ends overflow makes
    let v : Voicing := playedVoicing x.cfg s.song s.eng.clock.barsPassed c b i p note ins
    refine ⟨fun pitch single => ?single, fun idle sounding free => ?chord, fun e => ⟨rfl, fun u a ha => ?cap⟩⟩
    case cap => exact song ▸ capTones_tone x c ha
    case single =>
      have now : voicingNow x c s.eng = some (v, 1) := plays.voicingNow_single single rfl
      have filled (t : Tone) : fillTone v 0 t = fill [pitch] t := fillTone_of_single single t
      have making {e : Engine} (queue : e.activeTones[c]? = some [])
          (create : syncOne x v 0 s.eng = createTone x v 0 e) : makes e pitch := by
        refine ⟨fun u a hu free low => ?_, plays.makes_overflow clear single rfl create⟩
        have made := plays.makes_ok clear single rfl queue create hu free low
        rwa [madeTone, freshTone, filled] at made
      refine ⟨fun idle => ?_, fun u rest a queue ha => ?_⟩
      · rw [idle] at hq
        exact making hq (syncOne_of_idle hq)
      · rw [queue] at hq
        refine ⟨fun same => ?_, fun alone other => ⟨fun touches => ?_, fun apart => ?_⟩⟩
        · have one := syncMany_one_of_ok (syncOne_of_same (x := x) (v := v) hq ha same)
          exact syncTonesWith_of_kept clear plays.channel_lt now one hq
        · have carried : carryOver v 0 a = { fill [pitch] a with prevNote := a.note, carried := true } := by
            rw [carryOver, filled]
          have one := syncMany_one_of_ok (syncOne_of_seamless (x := x) (v := v) hq ha other
            ((keepSeamless_iff ..).mpr touches))
          rw [carried] at one
          exact syncTonesWith_of_filled clear plays.channel_lt now one hq (by simp [alone])
        · subst alone
          exact making ((endTone_ended x ha).active_same hq)
            (syncOne_of_apart hq ha other (mt (keepSeamless_iff ..).mp apart))
    case chord =>
      rw [idle] at hq
      intro together want
      have now : voicingNow x c s.eng = some (v, want) := plays.voicingNow_eq
      have start := Engine.Chorded.zero x.cfg (v := v) hq
      refine ⟨fun room => ?_, fun short => ?_⟩
      · obtain ⟨e, many, done⟩ := start.syncMany_ok inside plays.slotChannel_eq free want (by omega)
        rw [Nat.zero_add] at done
        have positive : 0 < want := wantedTones_pos _ (List.length_pos_iff.mpr sounding) _
        refine ⟨e, syncTonesWith_of_filled clear plays.channel_lt now many (done.queue_get inside) (by simp), ?_,
          done.made, done.rest⟩
        have frame := done.frame
        rwa [done.queue, done.woken positive] at frame
      · exact syncTonesWith_of_many_error clear plays.channel_lt now
          (start.syncMany_overflow inside plays.slotChannel_eq free want (Nat.zero_le _) (by omega))

end Sys2Proof.Proofs
end

section
set_option Elab.async false
/-! SUPPORT. Every operation of the engine keeps the canonical form of the memories (`20_memory.md` R70, R71): the shared
buffers, the strings of the tones and the rings of the instrument slots. -/

namespace Sys2Proof.Machine

/-! Lists whose elements are changed. -/

theorem forall_mem_set {α : Type} {P : α → Prop} {l : List α} (h : ∀ a ∈ l, P a) (i : Nat) {b : α} (hb : P b) :
    ∀ a ∈ l.set i b, P a := fun a ha => by
  obtain hm | rfl := List.mem_or_eq_of_mem_set ha
  · exact h a hm
  · exact hb

theorem forall_mem_modify {α : Type} {P : α → Prop} {l : List α} (h : ∀ a ∈ l, P a) (i : Nat) {f : α → α}
    (hf : ∀ a, P a → P (f a)) : ∀ a ∈ l.modify i f, P a := fun a ha => by
  obtain ⟨j, hj⟩ := List.mem_iff_getElem?.mp ha
  rw [List.getElem?_modify] at hj
  obtain ⟨b, hb, rfl⟩ := Option.map_eq_some_iff.mp hj
  have kept := h b (List.mem_of_getElem? hb)
  split
  · exact hf b kept
  · exact kept

theorem forall_mem_mapIdx {α : Type} {P : α → Prop} {l : List α} (h : ∀ a ∈ l, P a) {f : Nat → α → α}
    (hf : ∀ i a, P a → P (f i a)) : ∀ a ∈ l.mapIdx f, P a := fun a ha => by
  obtain ⟨i, hi, rfl⟩ := List.mem_mapIdx.mp ha
  exact hf i _ (h _ (List.getElem_mem hi))

/-! The parts of the canonical form. -/

/-- The canonical form of a tone's memories. -/
def Tone.Canonical (t : Tone) : Prop := ∀ w ∈ t.strings, w.Canonical

/-- The memories that belong to no tone and no slot. -/
def Engine.buffers (e : Engine) : Memory Num × Memory Num × Memory Num × Memory Num × Memory Single × Memory Single :=
  (e.work, e.scratch, e.mixL, e.mixR, e.outL, e.outR)

/-- An operation that keeps the canonical form. -/
structure Engine.KeepsMemory (e e' : Engine) : Prop where
  canonical : e.Canonical → e'.Canonical

theorem Engine.KeepsMemory.refl (e : Engine) : e.KeepsMemory e := ⟨id⟩

theorem Engine.KeepsMemory.trans {e e' e'' : Engine} (h : e.KeepsMemory e') (h' : e'.KeepsMemory e'') :
    e.KeepsMemory e'' := ⟨fun c => h'.canonical (h.canonical c)⟩

/-- An operation that writes no buffer, seen by its tones and slots. -/
theorem Engine.KeepsMemory.of_parts {e e' : Engine} (buffers : e'.buffers = e.buffers)
    (tones : (∀ t ∈ e.tones, t.Canonical) → ∀ t ∈ e'.tones, t.Canonical)
    (slots : (∀ i ∈ e.slots, i.Canonical) → ∀ i ∈ e'.slots, i.Canonical) : e.KeepsMemory e' := by
  simp only [Engine.buffers, Prod.mk.injEq] at buffers
  obtain ⟨work, scratch, mixL, mixR, outL, outR⟩ := buffers
  exact ⟨fun h => ⟨work ▸ h.work, scratch ▸ h.scratch, mixL ▸ h.mixL, mixR ▸ h.mixR, outL ▸ h.outL, outR ▸ h.outR,
    tones h.strings, slots h.slots⟩⟩

/-- An operation that writes no memory at all. -/
theorem Engine.KeepsMemory.of_same {e e' : Engine} (buffers : e'.buffers = e.buffers) (tones : e'.tones = e.tones)
    (slots : e'.slots = e.slots) : e.KeepsMemory e' := .of_parts buffers (tones ▸ id) (slots ▸ id)

theorem Engine.KeepsMemory.foldl {α : Type} {f : Engine → α → Engine}
    (h : ∀ (e : Engine) (a : α), e.KeepsMemory (f e a))
    (l : List α) (e : Engine) : e.KeepsMemory (l.foldl f e) := by
  induction l generalizing e with
  | nil => exact .refl e
  | cons a t ih => exact (h e a).trans (ih _)

theorem Engine.Canonical.tone {e : Engine} (h : e.Canonical) {u : Nat} {t : Tone} (ht : e.tones[u]? = some t) :
    t.Canonical := h.strings t (List.mem_of_getElem? ht)

theorem Engine.Canonical.slot {e : Engine} (h : e.Canonical) {u : Nat} {i : Slot} (hi : e.slots[u]? = some i) :
    i.Canonical := h.slots i (List.mem_of_getElem? hi)

/-! `WORK`, the tone pool and the wave caches (R13, R28, R60). -/

theorem Engine.writeWork_keepsMemory (e : Engine) (i : Nat) (v : Num) : e.KeepsMemory (e.writeWork i v) :=
  ⟨fun h => { h with work := Memory.wf_write h.work i v }⟩

theorem Engine.fillWork_keepsMemory (e : Engine) (l : List Num) : e.KeepsMemory (e.fillWork l) :=
  ⟨fun h => { h with work := wf_fillWork h.work l }⟩

theorem forgetWork_keepsMemory (x : Ctx) (e : Engine) : e.KeepsMemory (forgetWork x e) :=
  ⟨fun h => { h with work := Memory.wf_nil none }⟩

theorem Engine.setTone_keepsMemory (e : Engine) (u : Nat) {t : Tone} (ht : t.Canonical) : e.KeepsMemory (e.setTone u t) :=
  .of_parts rfl (fun h => forall_mem_set h u ht) id

theorem Engine.setSlot_keepsMemory (e : Engine) (u : Nat) {i : Slot} (hi : i.Canonical) : e.KeepsMemory (e.setSlot u i) :=
  .of_parts rfl id (fun h => forall_mem_set h u hi)

theorem Slot.Canonical.wake {i : Slot} (h : i.Canonical) : i.wake.Canonical := ⟨h.pan, h.chorusL, h.chorusR, h.reverb⟩

theorem wakeSlot_keepsMemory (e : Engine) (u : Nat) : e.KeepsMemory (wakeSlot e u) :=
  .of_parts rfl id (fun h => forall_mem_modify h u fun _ => Slot.Canonical.wake)

theorem freeTone_keepsMemory (e : Engine) (u : Nat) : e.KeepsMemory (freeTone e u) :=
  .of_parts rfl (fun h => forall_mem_modify h u fun _ ht => ht) id

theorem releaseTone_keepsMemory (e : Engine) (u : Nat) {t : Tone} (ht : t.Canonical) : e.KeepsMemory (releaseTone e u t) :=
  .of_parts rfl (fun h => forall_mem_set h u ht) id

theorem Tone.zero_canonical (c : Cfg) : (Tone.zero c).Canonical := Tone.zero_strings_canonical c

theorem newTone_keepsMemory {x : Ctx} {e e' : Engine} {islot k asker u : Nat}
    (h : newTone x e islot k asker = .ok (u, e')) : e.KeepsMemory e' := by
  unfold newTone at h
  split at h
  · nomatch h
  · cases h
    refine .trans ?_ (wakeSlot_keepsMemory _ islot)
    exact .of_parts rfl (fun h => forall_mem_set h _ (Tone.zero_canonical x.cfg)) id

theorem clearTones_keepsMemory (c : Cfg) (song : Song) (e : Engine) : e.KeepsMemory (clearTones c song e) :=
  .of_parts rfl (fun _ _ ht => List.eq_of_mem_replicate ht ▸ Tone.zero_canonical c) id

theorem clearSlots_keepsMemory (c : Cfg) (song : Song) (e : Engine) : e.KeepsMemory (clearSlots c song e) :=
  (clearTones_keepsMemory c song e).trans
    (.of_parts rfl id fun _ _ hi => List.eq_of_mem_replicate hi ▸ Slot.zero_canonical c)

theorem freeTones_keepsMemory (p : Tone → Bool) (e : Engine) : e.KeepsMemory (freeTones p e) := by
  refine .foldl (fun e u => ?_) _ e
  split
  · split
    · exact .refl e
    · split
      · exact freeTone_keepsMemory e u
      · exact .refl e
  · exact .refl e

theorem transformBins_keepsMemory (x : Ctx) (bins : List Num) (e : Engine) : e.KeepsMemory (transformBins x bins e) :=
  (e.fillWork_keepsMemory bins).trans (Engine.fillWork_keepsMemory _ _)

/-- An engine with other wave caches. -/
theorem setWaves_keepsMemory (e : Engine) (l : List WaveEntry) : e.KeepsMemory { e with waves := l } := .of_same rfl rfl rfl

theorem buildWave_keepsMemory (x : Ctx) (k : WaveKey) (e : Engine) : e.KeepsMemory (buildWave x k e) := by
  cases k with
  | sine | chip | noise | impulse => exact (forgetWork_keepsMemory x e).trans (setWaves_keepsMemory _ _)
  | spectrum | harmonics | drum =>
    simp only [buildWave]
    split
    · exact (transformBins_keepsMemory x _ e).trans (setWaves_keepsMemory _ _)
    · exact .refl e

theorem ensureWave_keepsMemory (x : Ctx) (k : WaveKey) (e : Engine) : e.KeepsMemory (ensureWave x k e) := by
  unfold ensureWave
  split
  · exact .refl e
  · exact buildWave_keepsMemory x k e

theorem ensureOptional_keepsMemory (x : Ctx) (k : Option WaveKey) (e : Engine) : e.KeepsMemory (ensureOptional x k e) := by
  cases k with
  | none => exact .refl e
  | some k => exact ensureWave_keepsMemory x k e

theorem Engine.setBiquad_keepsMemory (e : Engine) (u v w : Nat) (f : Biquad) : e.KeepsMemory (e.setBiquad u v w f) := by
  have string {g : StringState → StringState} (hg : ∀ st, st.Canonical → (g st).Canonical) (t : Tone) (ht : t.Canonical) :
      (t.modifyString w g).Canonical := forall_mem_modify ht w hg
  unfold Engine.setBiquad
  split
  case h_1 => exact .of_parts rfl (fun h => forall_mem_modify h v fun _ ht => ht) id
  case h_2 => exact .of_parts rfl id fun h => forall_mem_modify h v fun _ hi => ⟨hi.pan, hi.chorusL, hi.chorusR, hi.reverb⟩
  case h_3 | h_4 => exact .of_parts rfl (fun h => forall_mem_modify h v (string fun _ hst => hst)) id
  case h_5 => exact .refl e

/-! The parameter update of a tone (R212). -/

theorem updatePulse_strings {x : Ctx} {v : Voice} {t t' : Tone} (h : updatePulse x v t = .ok t') :
    t'.strings = t.strings := by
  unfold updatePulse at h
  split at h
  · obtain ⟨_, -, rfl⟩ := ok_of_map_ok h; rfl
  · split at h <;> cases h <;> rfl

theorem updateOperators_strings {x : Ctx} {v : Voice} {k : Nat} {ops : List Operator} {t t' : Tone}
    (h : updateOperators x v k ops t = .ok t') : t'.strings = t.strings := by
  induction ops generalizing k t with
  | nil => cases h; rfl
  | cons o rest ih =>
    unfold updateOperators at h
    split at h
    next => nomatch h
    next => exact (ih h).trans rfl

theorem updateLevels_strings {x : Ctx} {v : Voice} {t t' : Tone} (h : updateLevels x v t = .ok t') :
    t'.strings = t.strings := by
  unfold updateLevels at h
  split at h
  · split at h
    next => nomatch h
    next ho =>
      obtain ⟨_, -, rfl⟩ := ok_of_map_ok h
      exact (updateOperators_strings ho :)
  · cases h; rfl

theorem updateFilters_strings {x : Ctx} {v : Voice} {t t' : Tone} (h : updateFilters x v t = .ok t') :
    t'.strings = t.strings := by
  unfold updateFilters at h
  split at h
  · cases h; rfl
  · obtain ⟨_, -, rfl⟩ := ok_of_map_ok h; rfl

theorem updatePhases_strings (x : Ctx) (v : Voice) (t : Tone) : (updatePhases x v t).strings = t.strings := by
  unfold updatePhases updateInterval
  dsimp only
  split
  · split <;> rfl
  · split
    · rfl
    · split <;> rfl

theorem markLastTick_strings (c : Cfg) (ins : Instrument) (t : Tone) : (markLastTick c ins t).strings = t.strings := by
  unfold markLastTick
  split
  · split <;> rfl
  · rfl

/-- The update of the strings writes no ring. -/
theorem updateStrings_canonical {x : Ctx} {v : Voice} {t : Tone} {pitches : List Nat} {strings : List StringState}
    (h : ∀ w ∈ strings, w.Canonical) : ∀ w ∈ updateStrings x v t pitches strings, w.Canonical := by
  induction pitches generalizing strings with
  | nil => simpa [updateStrings] using h
  | cons p ps ih =>
    cases strings with
    | nil => exact h
    | cons s ss =>
      obtain ⟨first, others⟩ := List.forall_mem_cons.mp h
      exact List.forall_mem_cons.mpr ⟨first, ih others⟩

theorem computeTone_canonical {x : Ctx} {k : Clock} {u n : Nat} {ins : Instrument} {t t' : Tone} (ht : t.Canonical)
    (h : computeTone x k u n ins t = .ok t') : t'.Canonical := by
  unfold computeTone at h
  split at h
  · nomatch h
  · dsimp only at h
    split at h
    next => nomatch h
    next t2 h2 =>
      split at h
      next => nomatch h
      next t3 h3 =>
        split at h
        next => nomatch h
        next t4 h4 =>
          have same : (updatePhases x (voiceOf x k u n ins t) t4).strings = t.strings := by
            rw [updatePhases_strings, updateFilters_strings h4, updateLevels_strings h3, updatePulse_strings h2]
            split <;> exact markLastTick_strings ..
          have kept : ∀ w ∈ (updatePhases x (voiceOf x k u n ins t) t4).strings, w.Canonical := same ▸ ht
          cases h
          split
          · exact updateStrings_canonical kept
          · exact kept

theorem computeSlot_keepsMemory {x : Ctx} {u n : Nat} {e e' : Engine} {t : Tone} (ht : e.tones[u]? = some t)
    (h : computeSlot x u n e t = .ok e') : e.KeepsMemory e' := by
  unfold computeSlot at h
  split at h
  · nomatch h
  · obtain ⟨t', h', rfl⟩ := ok_of_map_ok h
    exact ⟨fun hc => (e.setTone_keepsMemory u (computeTone_canonical (hc.tone ht) h')).canonical hc⟩

theorem freeRing_numWf (size : Nat) (f : Nat → Num) : Memory.numWf (freeRing size f) = true := Memory.wf_ofListFrom ..

theorem wreckTone_canonical (x : Ctx) (u : Nat) {t : Tone} (ht : t.Canonical) : (wreckTone x u t).Canonical :=
  forall_mem_mapIdx ht fun _ _ _ => freeRing_numWf ..

/-! The synth loops (R240 to R263). -/

theorem addScratch_numWf {m : Memory Num} (h : Memory.numWf m = true) (i : Nat) (v : Num) :
    Memory.numWf (addScratch m i v) = true := Memory.numWf_setNum h i _

theorem tailStep_numWf (count : Nat) (delta : Num) (i : Nat) (sample : Num) {a : Tail}
    (h : Memory.numWf a.scratch = true) : Memory.numWf (tailStep count delta i sample a).scratch = true :=
  addScratch_numWf h i _

section
variable (x : Ctx) (u : Nat) (t : Tone)

theorem chipLoop_numWf (wave : List Num) (length : Nat) (mixMult : Num) (n i : Nat) (st : ChipState) {a : Tail}
    (h : Memory.numWf a.scratch = true) : Memory.numWf (chipLoop x u t wave length mixMult n i st a).2.scratch = true := by
  induction n generalizing i st a with
  | zero => exact h
  | succ n ih => exact ih _ _ (tailStep_numWf _ _ _ _ h)

theorem pwmLoop_numWf (n i : Nat) (st : PwmState) {a : Tail} (h : Memory.numWf a.scratch = true) :
    Memory.numWf (pwmLoop x u t n i st a).2.scratch = true := by
  induction n generalizing i st a with
  | zero => exact h
  | succ n ih => exact ih _ _ (tailStep_numWf _ _ _ _ h)

theorem noiseLoop_numWf (read : Num → Num) (length : Nat) (k : Num) (n i : Nat) (st : NoiseState) {a : Tail}
    (h : Memory.numWf a.scratch = true) : Memory.numWf (noiseLoop x u t read length k n i st a).2.scratch = true := by
  induction n generalizing i st a with
  | zero => exact h
  | succ n ih => exact ih _ _ (tailStep_numWf _ _ _ _ h)

theorem fmLoop_numWf (alg : Algorithm) (sources : List Nat) (wave : List Num) (length n i : Nat) {st : FmState}
    (h : Memory.numWf st.scratch = true) : Memory.numWf (fmLoop x u t alg sources wave length n i st).scratch = true := by
  induction n generalizing i st with
  | zero => exact h
  | succ n ih => exact ih _ (addScratch_numWf h _ _)

end

theorem zeroBehind_numWf (size : Nat) (pos : Int) (n : Nat) {m : Memory Num} (h : Memory.numWf m = true) :
    Memory.numWf (zeroBehind size pos n m) = true := by
  induction n generalizing m with
  | zero => exact h
  | succ n ih => exact ih (Memory.numWf_ringSet h _ _ _)

theorem addImpulse_numWf (size : Nat) (base : Int) (shape : Nat → Num) (n : Nat) {m : Memory Num}
    (h : Memory.numWf m = true) : Memory.numWf (addImpulse size base shape n m) = true := by
  induction n with
  | zero => exact h
  | succ n ih => exact Memory.numWf_ringSet ih _ _ _

theorem pluckString_canonical (x : Ctx) (t : Tone) (pitch : Nat) (impulse : List Num) {s : StringState} (rng : Rng)
    (h : s.Canonical) : (pluckString x t pitch impulse s rng).1.Canonical :=
  addImpulse_numWf _ _ _ _ (zeroBehind_numWf _ _ _ h)

theorem pluckAll_canonical (x : Ctx) (t : Tone) (impulse : List Num) (pitches : List Nat) {strings : List StringState}
    (rng : Rng) (h : ∀ w ∈ strings, w.Canonical) : ∀ w ∈ (pluckAll x t impulse pitches strings rng).1, w.Canonical := by
  induction pitches generalizing strings rng with
  | nil => simpa [pluckAll] using h
  | cons p ps ih =>
    cases strings with
    | nil => exact h
    | cons s ss =>
      obtain ⟨first, others⟩ := List.forall_mem_cons.mp h
      refine List.forall_mem_cons.mpr ⟨?_, ih _ others⟩
      show (ite _ _ _ : StringState × Rng).1.Canonical
      split
      · exact pluckString_canonical x t p impulse rng first
      · exact first

theorem stringStep_canonical (size : Nat) {s : StringState} (h : s.Canonical) : (stringStep size s).2.Canonical :=
  Memory.numWf_ringSet h _ _ _

theorem stringsStep_canonical (size n : Nat) (acc : Num) {strings : List StringState} (h : ∀ w ∈ strings, w.Canonical) :
    ∀ w ∈ (stringsStep size n acc strings).2, w.Canonical := by
  induction n generalizing acc strings with
  | zero => exact h
  | succ n ih =>
    cases strings with
    | nil => exact h
    | cons s ss =>
      obtain ⟨first, others⟩ := List.forall_mem_cons.mp h
      exact List.forall_mem_cons.mpr ⟨stringStep_canonical size first, ih _ others⟩

theorem guitarLoop_canonical (t : Tone) (size n i : Nat) {strings : List StringState} {a : Tail}
    (h : ∀ w ∈ strings, w.Canonical) (ha : Memory.numWf a.scratch = true) :
    (∀ w ∈ (guitarLoop t size n i strings a).1, w.Canonical) ∧
      Memory.numWf (guitarLoop t size n i strings a).2.scratch = true := by
  induction n generalizing i strings a with
  | zero => exact ⟨h, ha⟩
  | succ n ih => exact ih _ (stringsStep_canonical _ _ _ h) (tailStep_numWf _ _ _ _ ha)

theorem synthSpectrum_canonical (x : Ctx) (u n : Nat) (wave : List Num) (length : Nat) {t : Tone} (rng : Rng)
    {scratch : Memory Num} (ht : t.Canonical) (hs : Memory.numWf scratch = true) :
    (synthSpectrum x u n wave length t rng scratch).1.Canonical ∧
      Memory.numWf (synthSpectrum x u n wave length t rng scratch).2.1 = true := by
  unfold synthSpectrum
  dsimp only
  refine ⟨?_, noiseLoop_numWf _ _ _ _ _ _ _ _ _ hs⟩
  split <;> exact ht

/-- A synth loop writes `SCRATCH` and, for a guitar, the rings of the strings. -/
theorem synthTone_canonical (x : Ctx) (u n : Nat) (ins : Instrument) (wave : List Num) {t : Tone} (rng : Rng)
    {scratch : Memory Num} (ht : t.Canonical) (hs : Memory.numWf scratch = true) :
    (synthTone x u n ins wave t rng scratch).1.Canonical ∧
      Memory.numWf (synthTone x u n ins wave t rng scratch).2.1 = true := by
  unfold synthTone
  dsimp only
  split
  · exact ⟨ht, chipLoop_numWf _ _ _ _ _ _ _ _ _ hs⟩
  split
  · exact ⟨ht, fmLoop_numWf _ _ _ _ _ _ _ _ _ hs⟩
  split
  · exact ⟨ht, noiseLoop_numWf _ _ _ _ _ _ _ _ _ hs⟩
  split
  · exact synthSpectrum_canonical x u n wave _ rng ht hs
  split
  · exact ⟨ht, chipLoop_numWf _ _ _ _ _ _ _ _ _ hs⟩
  split
  · exact ⟨ht, pwmLoop_numWf _ _ _ _ _ _ hs⟩
  · exact guitarLoop_canonical _ _ _ _ (pluckAll_canonical _ _ _ _ _ ht) hs

theorem synthSlot_keepsMemory (x : Ctx) (u n : Nat) (ins : Instrument) {t : Tone} (e : Engine) (ht : t.Canonical) :
    e.KeepsMemory (synthSlot x u n ins t e) := by
  refine (ensureOptional_keepsMemory x (waveOf ins t) e).trans ⟨fun h => ?_⟩
  exact { h with
    scratch := (synthTone_canonical x u n ins _ _ ht h.scratch).2
    strings := forall_mem_set h.strings u (synthTone_canonical x u n ins _ _ ht h.scratch).1
    slots := forall_mem_modify h.slots _ fun _ hi => ⟨hi.pan, hi.chorusL, hi.chorusR, hi.reverb⟩ }

theorem synthDirect_keepsMemory {x : Ctx} {kind u n : Nat} {e e' : Engine} (h : synthDirect x kind u n e = .ok e') :
    e.KeepsMemory e' := by
  obtain ⟨t, ins, ht, -, rfl⟩ := synthDirect_ok h
  exact ⟨fun hc => (synthSlot_keepsMemory x u n ins e (hc.tone ht)).canonical hc⟩

theorem pluckDirect_keepsMemory {x : Ctx} {u v : Nat} {e e' : Engine} (h : pluckDirect x u v e = .ok e') :
    e.KeepsMemory e' := by
  unfold pluckDirect at h
  split at h
  · nomatch h
  next t ht =>
    split at h
    next ins pitch s _ _ hs =>
      split at h
      · nomatch h
      · cases h
        refine ⟨fun hc => ?_⟩
        have tone := hc.tone (tones_of_liveTone ht)
        have plucked := pluckString_canonical x t pitch (waveData .impulse (ensureWave x .impulse e)) (ensureWave x .impulse e).rng
          (tone _ (List.mem_of_getElem? hs))
        refine ((ensureWave_keepsMemory x .impulse e).trans ?_).canonical hc
        exact .of_parts rfl (fun h =>
          forall_mem_set (b := { t with strings := _ }) h u (forall_mem_set tone v plucked)) id
    · nomatch h

end Sys2Proof.Machine
end

section
set_option Elab.async false
/-! SUPPORT. Effects, sanitization, synchronisation, the clock and `RUN` keep the canonical form of the memories
(`20_memory.md` R70, `45_effects.md`, `46_master_orchestrator.md`). -/

namespace Sys2Proof.Machine

/-! Effects (R280 to R313). -/

/-- Two slots with the same rings. -/
theorem Slot.Canonical.congr {i j : Slot} (h : i.Canonical) (pan : j.panRing = i.panRing)
    (chorusL : j.chorusRingL = i.chorusRingL) (chorusR : j.chorusRingR = i.chorusRingR)
    (reverb : j.reverbRing = i.reverbRing) : j.Canonical :=
  ⟨pan ▸ h.pan, chorusL ▸ h.chorusL, chorusR ▸ h.chorusR, reverb ▸ h.reverb⟩

theorem bitcrush_canonical (x : Ctx) (ins : Instrument) {i : Slot} (s : Num) (h : i.Canonical) :
    (bitcrush x ins i s).2.Canonical := by
  unfold bitcrush
  dsimp only
  split <;> exact h.congr rfl rfl rfl rfl

theorem effectFilter_canonical {i : Slot} (s : Num) (h : i.Canonical) : (effectFilter i s).2.Canonical :=
  h.congr rfl rfl rfl rfl

theorem pan_canonical (x : Ctx) (ins : Instrument) {i : Slot} (s : Num) (h : i.Canonical) :
    (pan x ins i s).2.2.Canonical :=
  ⟨Memory.numWf_ringSet h.pan _ _ _, h.chorusL, h.chorusR, h.reverb⟩

theorem chorus_canonical (x : Ctx) {i : Slot} (l r : Num) (h : i.Canonical) : (chorus x i l r).2.2.Canonical :=
  ⟨h.pan, Memory.numWf_ringSet h.chorusL _ _ _, Memory.numWf_ringSet h.chorusR _ _ _, h.reverb⟩

theorem reverb_canonical (x : Ctx) (ins : Instrument) {i : Slot} (l r : Num) (h : i.Canonical) :
    (reverb x ins i l r).2.2.Canonical :=
  ⟨h.pan, h.chorusL, h.chorusR, Memory.numWf_ringSet (Memory.numWf_ringSet (Memory.numWf_ringSet
    (Memory.numWf_ringSet h.reverb _ _ _) _ _ _) _ _ _) _ _ _⟩

theorem chainSample_canonical (x : Ctx) (ins : Instrument) {i : Slot} (s : Num) (h : i.Canonical) :
    (chainSample x ins i s).2.2.Canonical := by
  unfold chainSample
  extract_lets s1 a b p q
  have crushed : a.2.Canonical := by
    show (ite _ _ _ : Num × Slot).2.Canonical
    split
    · exact bitcrush_canonical x ins s1 h
    · exact h
  have filtered : b.2.Canonical := by
    show (ite _ _ _ : Num × Slot).2.Canonical
    split
    · exact effectFilter_canonical a.1 crushed
    · exact crushed
  have panned : p.2.2.Canonical := by
    show (ite _ _ _ : Num × Num × Slot).2.2.Canonical
    split
    · exact pan_canonical x ins b.1 filtered
    · exact filtered
  have chorused : q.2.2.Canonical := by
    show (ite _ _ _ : Num × Num × Slot).2.2.Canonical
    split
    · exact chorus_canonical x p.1 p.2.1 panned
    · exact panned
  split
  · exact reverb_canonical x ins q.1 q.2.1 chorused
  · exact chorused

theorem Engine.addMix_keepsMemory (e : Engine) (j : Nat) (l r : Num) : e.KeepsMemory (e.addMix j l r) :=
  ⟨fun h => { h with mixL := Memory.wf_write h.mixL j _, mixR := Memory.wf_write h.mixR j _ }⟩

/-- An element of `SCRATCH` written. -/
theorem setScratch_keepsMemory (e : Engine) (j : Nat) (v : Num) :
    e.KeepsMemory { e with scratch := Memory.setNum e.scratch j v } :=
  ⟨fun h => { h with scratch := Memory.numWf_setNum h.scratch j v }⟩

theorem chainLoop_canonical (x : Ctx) (ins : Instrument) (pos n j : Nat) {i : Slot} {e : Engine} (hi : i.Canonical)
    (he : e.Canonical) : (chainLoop x ins pos n j i e).1.Canonical ∧ (chainLoop x ins pos n j i e).2.Canonical := by
  induction n generalizing j i e with
  | zero => exact ⟨hi, he⟩
  | succ n ih =>
    exact ih (j + 1) (chainSample_canonical x ins _ hi)
      (((setScratch_keepsMemory e j .zero).trans (Engine.addMix_keepsMemory _ _ _ _)).canonical he)

theorem runEffects_keepsMemory (x : Ctx) (u pos n : Nat) (ins : Instrument) {i : Slot} (e : Engine) (hi : i.Canonical) :
    e.KeepsMemory (runEffects x u pos n ins i e) := by
  refine ⟨fun h => ?_⟩
  obtain ⟨slot, engine⟩ := chainLoop_canonical x ins pos n 0 (i := loadEffectFilter x ins n i)
    (hi.congr rfl rfl rfl rfl) h
  exact (Engine.setSlot_keepsMemory _ u slot).canonical engine

theorem tailTick_canonical (x : Ctx) (samplesPerTick : Num) (ins : Instrument) {i : Slot} (h : i.Canonical) :
    (tailTick x samplesPerTick ins i).Canonical := by
  have waited : (attenuate x samplesPerTick ins i).Canonical := by
    unfold attenuate
    split
    · exact h.congr rfl rfl rfl rfl
    split
    · exact h
    · dsimp only
      split <;> exact h.congr rfl rfl rfl rfl
  unfold tailTick
  dsimp only
  split <;> exact waited.congr rfl rfl rfl rfl

theorem deactivate_canonical (i : Slot) : (deactivate i).Canonical := ⟨rfl, rfl, rfl, rfl⟩

theorem slotAt_slots {x : Ctx} {e : Engine} {u : Nat} {p : Slot × Instrument} (h : slotAt x e u = .ok p) :
    e.slots[u]? = some p.1 := by
  unfold slotAt at h
  split at h
  next hi _ => cases h; exact hi
  next => nomatch h

/-! Sanitization (R343). -/

theorem sanitizeRing_numWf {m : Memory Num} (h : Memory.numWf m = true) : Memory.numWf (sanitizeRing m) = true := by
  unfold sanitizeRing
  split
  · exact Memory.numWf_nil
  · exact Memory.wf_filter h _

theorem StringState.Canonical.sanitize {s : StringState} (h : s.Canonical) : s.sanitize.Canonical := by
  unfold StringState.sanitize
  split
  · exact sanitizeRing_numWf h
  · exact h

theorem sanitizeTone_canonical (song : Song) {t : Tone} (h : t.Canonical) : (sanitizeTone song t).Canonical := by
  unfold sanitizeTone
  split
  · exact h
  · show ∀ w ∈ (ite _ _ _ : List StringState), w.Canonical
    split
    · exact List.forall_mem_map.mpr fun w hw => (h w hw).sanitize
    · exact h

theorem sanitizeSlot_canonical {i : Slot} (h : i.Canonical) : (sanitizeSlot i).Canonical := by
  unfold sanitizeSlot
  split
  · exact ⟨sanitizeRing_numWf h.pan, sanitizeRing_numWf h.chorusL, sanitizeRing_numWf h.chorusR,
      sanitizeRing_numWf h.reverb⟩
  · exact h

theorem sanitize_keepsMemory (song : Song) (e : Engine) : e.KeepsMemory (sanitize song e) :=
  .of_parts rfl (fun h => List.forall_mem_map.mpr fun t ht => sanitizeTone_canonical song (h t ht))
    (fun h => List.forall_mem_map.mpr fun i hi => sanitizeSlot_canonical (h i hi))

/-! Tone synchronisation (R345 to R347). -/

/-- A tone changed outside its strings. -/
theorem Engine.setTone_of_get (e : Engine) {u : Nat} {t t' : Tone} (ht : e.tones[u]? = some t)
    (same : t'.strings = t.strings) : e.KeepsMemory (e.setTone u t') :=
  ⟨fun h => (e.setTone_keepsMemory u (t := t') (by unfold Tone.Canonical; exact same ▸ h.tone ht)).canonical h⟩

theorem endTone_keepsMemory (x : Ctx) (e : Engine) (u : Nat) : e.KeepsMemory (endTone x e u) := by
  unfold endTone
  split
  · exact .refl e
  next t ht =>
    split
    · exact freeTone_keepsMemory e u
    · split
      · exact ⟨fun h => (releaseTone_keepsMemory e u (h.tone ht)).canonical h⟩
      · exact freeTone_keepsMemory e u

theorem endTones_keepsMemory (x : Ctx) (us : List Nat) (e : Engine) : e.KeepsMemory (endTones x us e) :=
  .foldl (endTone_keepsMemory x) us e

theorem capTones_keepsMemory (x : Ctx) (c : Nat) (e : Engine) : e.KeepsMemory (capTones x c e) := by
  refine .of_parts rfl (fun h => forall_mem_mapIdx h fun u t ht => ?_) id
  split <;> exact ht

theorem createTone_keepsMemory {x : Ctx} {v : Voicing} {k : Nat} {e e' : Engine} (h : createTone x v k e = .ok e') :
    e.KeepsMemory e' := by
  obtain ⟨r, hr, rfl⟩ := ok_of_map_ok h
  exact (newTone_keepsMemory hr).trans (.of_parts rfl (fun h => forall_mem_modify h _ fun _ ht => ht) id)

/-- A tone carried over is one of the tones (R346). -/
theorem syncOne_keepsMemory {x : Ctx} {v : Voicing} {k : Nat} {e e' : Engine} (h : syncOne x v k e = .ok e') :
    e.KeepsMemory e' := by
  unfold syncOne at h
  split at h
  · exact createTone_keepsMemory h
  next u _ =>
    split at h
    · exact createTone_keepsMemory h
    next t ht =>
      split at h
      · cases h; exact .refl _
      · split at h
        · cases h; exact e.setTone_of_get ht rfl
        · exact (endTone_keepsMemory x e u).trans (createTone_keepsMemory h)

theorem syncMany_keepsMemory {x : Ctx} {v : Voicing} {n k : Nat} {e e' : Engine} (h : syncMany x v n k e = .ok e') :
    e.KeepsMemory e' := by
  induction n generalizing k e with
  | zero => cases h; exact .refl _
  | succ n ih =>
    unfold syncMany at h
    split at h
    next => nomatch h
    next h1 => exact (syncOne_keepsMemory h1).trans (ih h)

theorem syncTones_keepsMemory {x : Ctx} {c : Nat} {e e' : Engine} (h : syncTones x c e = .ok e') : e.KeepsMemory e' := by
  unfold syncTones at h
  dsimp only at h
  split at h
  · cases h
    exact (endTones_keepsMemory ..).trans (capTones_keepsMemory ..)
  · split at h
    next => nomatch h
    next h1 =>
      cases h
      exact (syncMany_keepsMemory h1).trans ((endTones_keepsMemory ..).trans (capTones_keepsMemory ..))

theorem syncFrom_keepsMemory {x : Ctx} {n c : Nat} {e e' : Engine} (h : syncFrom x n c e = .ok e') : e.KeepsMemory e' := by
  induction n generalizing c e with
  | zero => cases h; exact .refl _
  | succ n ih =>
    unfold syncFrom at h
    split at h
    next => nomatch h
    next h1 => exact (syncTones_keepsMemory h1).trans (ih h)

/-! The clock (R336 to R341). -/

theorem setClock_keepsMemory (e : Engine) (k : Clock) : e.KeepsMemory { e with clock := k } := .of_same rfl rfl rfl

theorem partEnd_keepsMemory {x : Ctx} {e e' : Engine} (h : partEnd x e = .ok e') : e.KeepsMemory e' :=
  (setClock_keepsMemory e _).trans (syncFrom_keepsMemory h)

theorem ageTone_keepsMemory (e : Engine) (u : Nat) : e.KeepsMemory (ageTone e u) := by
  unfold ageTone
  split
  · exact .refl e
  next t ht =>
    split
    · exact freeTone_keepsMemory e u
    · exact e.setTone_of_get ht rfl

theorem tickBoundary_keepsMemory (x : Ctx) (e : Engine) : e.KeepsMemory (tickBoundary x e) := by
  refine (Engine.KeepsMemory.foldl ageTone_keepsMemory e.releasedTones.flatten e).trans
    (.trans ?_ (sanitize_keepsMemory x.song _))
  refine .of_parts rfl id fun h => forall_mem_mapIdx h fun u i hi => ?_
  have fallen : (if i.deactivateAfterThisTick then deactivate i else i).Canonical := by
    split
    · exact deactivate_canonical i
    · exact hi
  dsimp only
  generalize (if i.deactivateAfterThisTick then deactivate i else i) = i1 at fallen ⊢
  split
  · split
    · exact tailTick_canonical x _ _ fallen
    · exact fallen
  · exact fallen

theorem tickEnd_keepsMemory {x : Ctx} {e e' : Engine} (h : tickEnd x e = .ok e') : e.KeepsMemory e' := by
  refine (tickBoundary_keepsMemory x e).trans ?_
  unfold tickEnd at h
  dsimp only at h
  split at h
  · obtain ⟨e2, h2, rfl⟩ := ok_of_map_ok h
    exact (setClock_keepsMemory _ _).trans ((partEnd_keepsMemory h2).trans (setClock_keepsMemory e2 _))
  · cases h
    exact setClock_keepsMemory _ _

theorem advanceClock_keepsMemory {x : Ctx} {n : Nat} {e e' : Engine} (h : advanceClock x n e = .ok e') :
    e.KeepsMemory e' := by
  unfold advanceClock at h
  dsimp only at h
  split at h
  · obtain ⟨e2, h2, rfl⟩ := ok_of_map_ok h
    exact (setClock_keepsMemory e _).trans ((tickEnd_keepsMemory h2).trans (setClock_keepsMemory e2 _))
  · cases h
    exact setClock_keepsMemory e _

/-! `RUN` (R330 to R334). -/

theorem voiceTones_keepsMemory {x : Ctx} {n : Nat} {us : List Nat} {e e' : Engine} (h : voiceTones x n us e = .ok e') :
    e.KeepsMemory e' := by
  induction us generalizing e with
  | nil => cases h; exact .refl _
  | cons u rest ih =>
    unfold voiceTones at h
    split at h
    · exact ih h
    next t ht =>
      split at h
      · exact ih h
      · split at h
        next => nomatch h
        next ins _ _ t' h' =>
          refine .trans ⟨fun hc => ?_⟩ (ih h)
          have tone := computeTone_canonical (hc.tone ht) h'
          exact ((e.setTone_keepsMemory u tone).trans (synthSlot_keepsMemory x u n ins _ tone)).canonical hc

theorem voiceSlot_keepsMemory {x : Ctx} {pos n channel islot : Nat} {e e' : Engine}
    (h : voiceSlot x pos n channel islot e = .ok e') : e.KeepsMemory e' := by
  unfold voiceSlot at h
  split at h
  next => nomatch h
  next e1 h1 =>
    refine (voiceTones_keepsMemory h1).trans ?_
    split at h
    next i ins hi _ =>
      cases h
      split
      · exact ⟨fun hc => (runEffects_keepsMemory x islot pos n ins e1 (hc.slot hi)).canonical hc⟩
      · exact .refl e1
    next => cases h; exact .refl _

theorem voiceSlots_keepsMemory {x : Ctx} {pos n count i : Nat} {e e' : Engine}
    (h : voiceSlots x pos n count i e = .ok e') : e.KeepsMemory e' := by
  induction count generalizing i e with
  | zero => cases h; exact .refl _
  | succ count ih =>
    unfold voiceSlots at h
    split at h
    next => nomatch h
    next h1 => exact (voiceSlot_keepsMemory h1).trans (ih h)

theorem limiterLoop_keepsMemory (x : Ctx) (n j : Nat) (e : Engine) : e.KeepsMemory (limiterLoop x n j e) := by
  induction n generalizing j e with
  | zero => exact .refl e
  | succ n ih =>
    refine .trans ?_ (ih _ _)
    exact ⟨fun h => { h with outL := Memory.wf_write h.outL j _, outR := Memory.wf_write h.outR j _ }⟩

theorem runOnce_keepsMemory {x : Ctx} {pos remaining n : Nat} {e e' : Engine}
    (h : runOnce x pos remaining e = .ok (n, e')) : e.KeepsMemory e' := by
  unfold runOnce at h
  split at h
  next => nomatch h
  next h1 =>
    dsimp only at h
    split at h
    next => nomatch h
    next h2 =>
      obtain ⟨e3, h3, hn⟩ := ok_of_map_ok h
      cases hn
      exact (syncFrom_keepsMemory h1).trans ((voiceSlots_keepsMemory h2).trans
        ((limiterLoop_keepsMemory ..).trans (advanceClock_keepsMemory h3)))

theorem runLoop_keepsMemory {x : Ctx} {fuel pos remaining : Nat} {e e' : Engine}
    (h : runLoop x fuel pos remaining e = .ok e') : e.KeepsMemory e' := by
  induction fuel generalizing pos remaining e with
  | zero => cases h; exact .refl _
  | succ fuel ih =>
    unfold runLoop at h
    split at h
    · cases h; exact .refl _
    · split at h
      next => nomatch h
      next h1 => exact (runOnce_keepsMemory h1).trans (ih h)

theorem openBuffers_keepsMemory (x : Ctx) (n : Nat) (e : Engine) : e.KeepsMemory (openBuffers x n e) :=
  ⟨fun h => { h with
    mixL := Memory.wf_ofListFrom ..
    mixR := Memory.wf_ofListFrom ..
    outL := Memory.wf_nil none
    outR := Memory.wf_nil none }⟩

theorem silence_keepsMemory (x : Ctx) (n : Nat) (e : Engine) : e.KeepsMemory (silence x n e) :=
  ⟨fun h => { (openBuffers_keepsMemory x n e).canonical h with
    work := Memory.wf_nil none
    outL := Memory.wf_ofListFrom ..
    outR := Memory.wf_ofListFrom .. }⟩

theorem runEngine_keepsMemory {x : Ctx} {n : Nat} {e e' : Engine} (h : runEngine x n e = .ok e') : e.KeepsMemory e' := by
  obtain ⟨e2, h2, rfl⟩ := ok_of_map_ok h
  exact (openBuffers_keepsMemory x n e).trans ((runLoop_keepsMemory h2).trans (forgetWork_keepsMemory x e2))

theorem wreckSlot_canonical (x : Ctx) (u : Nat) (i : Slot) : (wreckSlot x u i).Canonical := by
  constructor <;> simp only [wreckSlot, freeRing_numWf]

theorem wreckVoice_canonical (x : Ctx) (u : Nat) {t : Tone} (ht : t.Canonical) : (wreckVoice x u t).Canonical :=
  wreckTone_canonical x u ht

/-- A run that faults leaves free values, in canonical memories (assumption 37). -/
theorem wreckEngine_keepsMemory (x : Ctx) (e : Engine) : e.KeepsMemory (wreckEngine x e) where
  canonical h := {
    work := Memory.wf_nil none
    scratch := Memory.numWf_nil
    mixL := Memory.wf_nil none
    mixR := Memory.wf_nil none
    outL := Memory.wf_nil none
    outR := Memory.wf_nil none
    strings := forall_mem_mapIdx (P := Tone.Canonical) h.strings fun u _ => wreckVoice_canonical x u
    slots := forall_mem_mapIdx h.slots fun u i _ => wreckSlot_canonical x u i }

end Sys2Proof.Machine
end

section
set_option Elab.async false
/-! PROOFS. Every step keeps every memory canonical (`20_memory.md` R70, R71). -/

namespace Sys2Proof.Machine

/-! The song store (R380, R381). -/

theorem resetSlot_keepsMemory (c : Cfg) (islot : Nat) (e : Engine) : e.KeepsMemory (resetSlot c islot e) :=
  (freeTones_keepsMemory _ e).trans (Engine.setSlot_keepsMemory _ islot (Slot.zero_canonical c))

theorem replaceSlot_keepsMemory (c : Cfg) (islot : Nat) (e : Engine) : e.KeepsMemory (replaceSlot c islot e) :=
  (resetSlot_keepsMemory c islot e).trans (setWaves_keepsMemory _ _)

theorem replaceSlots_keepsMemory (c : Cfg) (song : Song) (ch : Nat) (e : Engine) :
    e.KeepsMemory (replaceSlots c song ch e) :=
  .foldl (fun e _ => replaceSlot_keepsMemory c _ e) _ e

theorem settleInstrument_keepsMemory (c : Cfg) (islot : Nat) (ed : InstrumentEdit) (e : Engine) :
    e.KeepsMemory (settleInstrument c islot ed e) := by
  unfold settleInstrument
  split
  case h_1 => exact resetSlot_keepsMemory c islot e
  all_goals exact .of_same rfl rfl rfl

theorem settleChannel_keepsMemory (c : Cfg) (song : Song) (ch : Nat) (ed : ChannelEdit) (e : Engine) :
    e.KeepsMemory (settleChannel c song ch ed e) := by
  cases ed with
  | bars | bar | patterns | pattern | patternField => exact freeTones_keepsMemory _ e
  | instruments => exact replaceSlots_keepsMemory ..
  | instrument => exact replaceSlot_keepsMemory ..
  | instrumentField => exact settleInstrument_keepsMemory ..
  | octave | muted => exact .refl e

theorem settleChannels_keepsMemory (c : Cfg) (song : Song) (e : Engine) : e.KeepsMemory (settleChannels c song e) :=
  .foldl (fun e ch => (freeTones_keepsMemory _ e).trans (replaceSlots_keepsMemory c song ch _)) _ e

/-- The restart of the engine behind a load or a count edit. -/
theorem restart_keepsMemory (c : Cfg) (song : Song) (k : Clock) (e : Engine) : e.KeepsMemory
    { clearSlots c song e with waves := invalidateWaves (clearSlots c song e).waves (fun _ => true), clock := k } :=
  (clearSlots_keepsMemory c song e).trans (.of_same rfl rfl rfl)

theorem installEdit_keepsMemory (c : Cfg) (v : Song) (ed : SongEdit) (s : State) :
    s.eng.KeepsMemory (installEdit c v ed s).eng := by
  cases ed with
  | beatsPerBar | barCount | patternsPerChannel | instrumentsPerChannel | pitchChannelCount | noiseChannelCount =>
    exact restart_keepsMemory ..
  | channels => exact settleChannels_keepsMemory ..
  | channel => exact settleChannel_keepsMemory ..
  | scale | key | tempo | rhythm | loopStart | loopLength => exact .refl s.eng

theorem applyControl_keepsMemory (c : Cfg) (w : ControlWrite) (s : State) :
    s.eng.KeepsMemory (applyControl c w s).eng := by
  cases w with
  | sampleRate => exact (clearSlots_keepsMemory c s.song s.eng).trans ⟨fun h => { h with scratch := Memory.numWf_nil }⟩
  | bar => exact (clearTones_keepsMemory c s.song s.eng).trans (setClock_keepsMemory _ _)
  | volume | liveDeadline => exact .refl s.eng
  | rngSeed => exact .of_same rfl rfl rfl

/-! How a command ends. -/

theorem raise_keepsMemory (f : Raise) (s : State) : s.eng.KeepsMemory (raise f s).eng := by
  rw [raise_eng]
  exact .refl s.eng

theorem command_keepsMemory {s : State} {r : Except Raise State} (h : ∀ {t}, r = .ok t → s.eng.KeepsMemory t.eng) :
    s.eng.KeepsMemory (command s r).eng := by
  obtain ⟨-, he⟩ | ⟨-, ⟨t, ht, he⟩ | ⟨f, -, he⟩⟩ := command_cases s r <;> rw [he]
  · exact .refl _
  · exact h ht
  · exact raise_keepsMemory f s

theorem onEngine_keepsMemory {s : State} {r : Except Raise Engine} (h : ∀ {e}, r = .ok e → s.eng.KeepsMemory e) :
    s.eng.KeepsMemory (onEngine s r).eng := by
  obtain ⟨-, he⟩ | ⟨-, ⟨e, hr, he⟩ | ⟨f, -, he⟩⟩ := onEngine_cases s r <;> rw [he]
  · exact .refl _
  · exact h hr
  · exact raise_keepsMemory f s

/-- A command on the engine that keeps the memories wherever it has a value. -/
theorem onEngine_map_keepsMemory {α : Type} {s : State} {r : Except Raise α} {g : α → Engine}
    (h : ∀ a, s.eng.KeepsMemory (g a)) : s.eng.KeepsMemory (onEngine s (r.map g)).eng :=
  onEngine_keepsMemory fun hr => by obtain ⟨a, -, rfl⟩ := ok_of_map_ok hr; exact h a

theorem readCommand_keepsMemory (s : State) (r : Except Raise Word) : s.eng.KeepsMemory (readCommand s r).eng := by
  obtain ⟨w, -, he⟩ | ⟨f, -, ⟨-, he⟩ | ⟨-, he⟩⟩ := readCommand_cases s r <;> rw [he]
  · exact .refl _
  · exact .refl _
  · exact raise_keepsMemory f s

/-- A command that answers in the result registers and changes no engine. -/
theorem command_answer_keepsMemory (s : State) (l : List Num) :
    s.eng.KeepsMemory (command s (.ok (answer s l))).eng :=
  command_keepsMemory fun h => by cases h; exact .refl _

theorem command_map_answer_keepsMemory {α : Type} (s : State) (r : Except Raise α) (l : α → List Num) :
    s.eng.KeepsMemory (command s (r.map fun a => answer s (l a))).eng :=
  command_keepsMemory fun h => by obtain ⟨a, -, rfl⟩ := ok_of_map_ok h; exact .refl _

/-- A stage of the effects on a slot that exists. -/
theorem command_slot_keepsMemory {x : Ctx} {s : State} {u : Nat} {g : Slot × Instrument → Slot}
    {l : Slot × Instrument → List Num} (h : ∀ p, p.1.Canonical → (g p).Canonical) :
    s.eng.KeepsMemory
      (command s ((slotAt x s.eng u).map fun p => answer { s with eng := s.eng.setSlot u (g p) } (l p))).eng :=
  command_keepsMemory fun hr => by
    obtain ⟨p, hp, rfl⟩ := ok_of_map_ok hr
    exact ⟨fun hc => (s.eng.setSlot_keepsMemory u (h p (hc.slot (slotAt_slots hp)))).canonical hc⟩

theorem onCodec_keepsMemory (s : State) (f : Codec → Codec) : s.eng.KeepsMemory (onCodec s f).eng := by
  unfold onCodec
  split <;> exact .refl _

/-! The commands whose ends take more than one of these rules. -/

theorem play_keepsMemory (c : Cfg) (s : State) : s.eng.KeepsMemory (play c s).eng := by
  unfold play
  split
  · exact .refl _
  · exact setClock_keepsMemory _ _

theorem toneNewWith_keepsMemory (x : Ctx) (s : State) (u : Nat) : s.eng.KeepsMemory (toneNewWith x s u).eng :=
  command_keepsMemory fun h => by
    split at h
    · nomatch h
    · split at h
      · nomatch h
      next hn => cases h; exact newTone_keepsMemory hn

theorem toneComputeWith_keepsMemory (x : Ctx) (s : State) (u n : Nat) :
    s.eng.KeepsMemory (toneComputeWith x s u n).eng := by
  unfold toneComputeWith
  split
  · exact .refl _
  · split
    · exact raise_keepsMemory _ s
    next t ht =>
      have used := tones_of_liveTone ht
      split
      · split
        next e he => exact computeSlot_keepsMemory used he
        next f _ =>
          rw [raise_eng]
          exact ⟨fun hc => (s.eng.setTone_keepsMemory u (wreckTone_canonical x u (hc.tone used))).canonical hc⟩
      · exact raise_keepsMemory _ s

theorem toneReleaseWith_keepsMemory (x : Ctx) (s : State) (u : Nat) : s.eng.KeepsMemory (toneReleaseWith x s u).eng :=
  onEngine_keepsMemory fun h => by
    split at h
    next t ht =>
      split at h
      · cases h; exact ⟨fun hc => (releaseTone_keepsMemory s.eng u (hc.tone ht)).canonical hc⟩
      · nomatch h
    · nomatch h

theorem fxRunWith_keepsMemory (x : Ctx) (s : State) (u pos n : Nat) : s.eng.KeepsMemory (fxRunWith x s u pos n).eng :=
  onEngine_keepsMemory fun h => by
    split at h
    · nomatch h
    next p hp =>
      split at h
      · cases h
        exact ⟨fun hc => (runEffects_keepsMemory x u pos n p.2 s.eng (hc.slot (slotAt_slots hp))).canonical hc⟩
      · nomatch h

theorem fxTailWith_keepsMemory (x : Ctx) (s : State) (u : Nat) : s.eng.KeepsMemory (fxTailWith x s u).eng :=
  onEngine_keepsMemory fun h => by
    obtain ⟨p, hp, rfl⟩ := ok_of_map_ok h
    exact ⟨fun hc => (s.eng.setSlot_keepsMemory u (tailTick_canonical x _ p.2 (hc.slot (slotAt_slots hp)))).canonical hc⟩

theorem clkAdvWith_keepsMemory (x : Ctx) (s : State) (n : Nat) : s.eng.KeepsMemory (clkAdvWith x s n).eng :=
  onEngine_keepsMemory fun h => by
    split at h
    · exact advanceClock_keepsMemory h
    · nomatch h

theorem syncTonesWith_keepsMemory (x : Ctx) (s : State) (u : Nat) : s.eng.KeepsMemory (syncTonesWith x s u).eng :=
  onEngine_keepsMemory fun h => by
    split at h
    · exact syncTones_keepsMemory h
    · nomatch h

theorem runWith_keepsMemory {x : Ctx} {s t : State} {n : Nat} (h : runWith x s n = .next t) :
    s.eng.KeepsMemory t.eng := by
  unfold runWith at h
  split at h
  · cases h; exact .refl _
  · split at h
    · cases h; exact .refl _
    · split at h
      · cases h; exact raise_keepsMemory _ s
      · split at h
        · cases h
          unfold runPlaying
          split
          next e he => exact runEngine_keepsMemory he
          next f _ =>
            rw [raise_eng]
            exact wreckEngine_keepsMemory x s.eng
        · split at h
          · nomatch h
          · cases h
            exact silence_keepsMemory x n s.eng

/-! Every instruction, and a step. -/

theorem exec_keepsMemory {i : Instr} {s t : State} (h : exec i s = .next t) : s.eng.KeepsMemory t.eng := by
  cases i
  case run => exact runWith_keepsMemory h
  case reset => rw [exec_reset_eq h]; exact ⟨fun _ => Engine.fresh_canonical ..⟩
  case cfgw =>
    obtain rfl | ⟨f, rfl⟩ | ⟨w, -, rfl⟩ := exec_cfgw_cases h
    · exact .refl _
    · exact raise_keepsMemory f s
    · exact applyControl_keepsMemory _ w s
  case songLoad =>
    obtain rfl | ⟨f, rest, rfl⟩ | ⟨v, rest, -, rfl⟩ := exec_songLoad_cases h
    · exact .refl _
    · exact raise_keepsMemory f { s with payload := rest }
    · exact restart_keepsMemory ..
  case songSet =>
    obtain rfl | ⟨f, rest, rfl⟩ | ⟨ed, v, rest, -, -, rfl⟩ := exec_songSet_cases h
    · exact .refl _
    · exact raise_keepsMemory f { s with payload := rest }
    · exact installEdit_keepsMemory _ v ed { s with payload := rest }
  all_goals cases h
  case play => exact command_keepsMemory fun h => by cases h; exact play_keepsMemory _ s
  case pause | live => exact command_keepsMemory fun h => by cases h; exact .refl _
  case cfgr | rdr | rdw | rdm => exact readCommand_keepsMemory s _
  case setr => exact command_keepsMemory fun h => by obtain ⟨_, -, rfl⟩ := ok_of_map_ok h; exact .refl _
  case wrw => exact onEngine_map_keepsMemory fun _ => Engine.writeWork_keepsMemory ..
  case ifft => exact onEngine_map_keepsMemory fun _ => Engine.fillWork_keepsMemory ..
  case waveSine | waveChip | waveNoise | waveSpectrum | waveHarmonics | waveImpulse =>
    exact onEngine_map_keepsMemory fun _ => buildWave_keepsMemory ..
  case waveInval => exact onEngine_keepsMemory fun h => by cases h; exact setWaves_keepsMemory ..
  case sanitize => exact onEngine_keepsMemory fun h => by cases h; exact sanitize_keepsMemory ..
  case barNext => exact onEngine_keepsMemory fun h => by cases h; exact setClock_keepsMemory ..
  case bqLoadgrad => exact onEngine_map_keepsMemory fun _ => Engine.setBiquad_keepsMemory ..
  case bqStep =>
    exact command_keepsMemory fun h => by obtain ⟨_, -, rfl⟩ := ok_of_map_ok h; exact Engine.setBiquad_keepsMemory ..
  case coefLp1 | coefHp1 | coefLp2 | coefHp2 | coefPeak | coefHshelf1 | coefAp1 | coefFdap | envSteady | envCustom | envTwang
      | envSwell | envTremolo | envTremolo2 | envPunch | envFlare | envDecay | expr | relscale | vibRamp | pitchHz =>
    exact command_answer_keepsMemory s _
  case fptHz | fptGain | volcomp | lfo | arpIndex => exact command_map_answer_keepsMemory s _ _
  case toneNew => exact toneNewWith_keepsMemory ..
  case toneCompute => exact toneComputeWith_keepsMemory ..
  case toneRelease => exact toneReleaseWith_keepsMemory ..
  case toneFree => exact onEngine_map_keepsMemory fun _ => freeTone_keepsMemory ..
  case synChip | synFm | synNoise | synSpectrum | synDrumset | synHarmonics | synPwm | synGuitar =>
    exact onEngine_keepsMemory synthDirect_keepsMemory
  case gtrPluck => exact onEngine_keepsMemory pluckDirect_keepsMemory
  case fxDistort => exact command_slot_keepsMemory fun _ hi => hi
  case fxBitcrush => exact command_slot_keepsMemory fun p => bitcrush_canonical _ p.2 _
  case fxFilter => exact command_slot_keepsMemory fun _ => effectFilter_canonical _
  case fxPan => exact command_slot_keepsMemory fun p => pan_canonical _ p.2 _
  case fxChorus => exact command_slot_keepsMemory fun _ => chorus_canonical _ _ _
  case fxReverb => exact command_slot_keepsMemory fun p => reverb_canonical _ p.2 _ _
  case fxRun => exact fxRunWith_keepsMemory ..
  case fxTail => exact fxTailWith_keepsMemory ..
  case limit => exact command_keepsMemory fun h => by cases h; exact .of_same rfl rfl rfl
  case clkAdv => exact clkAdvWith_keepsMemory ..
  case tickEnd => exact onEngine_keepsMemory tickEnd_keepsMemory
  case partEnd => exact onEngine_keepsMemory partEnd_keepsMemory
  case syncTones => exact syncTonesWith_keepsMemory ..
  all_goals exact onCodec_keepsMemory s _

theorem accept_keepsMemory (rest : List Word) (s : State) : s.eng.KeepsMemory (accept rest s).eng := by
  rw [accept_frame]
  exact .refl _

theorem presentBusy_keepsMemory (c : Cfg) (s : State) : s.eng.KeepsMemory (presentBusy c s).eng := by
  unfold presentBusy
  split <;> exact .refl _

theorem step_keepsMemory {s t : State} (h : step s = .next t) : s.eng.KeepsMemory t.eng := by
  obtain rfl | ⟨k, rfl⟩ | ⟨-, rfl⟩ | ⟨f, rest, rfl⟩ | ⟨i, rest, u, hu, rfl⟩ | ⟨i, hi⟩ := step_cases h
  · exact ⟨fun _ => Engine.fresh_canonical ..⟩
  · exact .refl _
  · exact presentBusy_keepsMemory _ s
  · exact (accept_keepsMemory rest s).trans (raise_keepsMemory f _)
  · exact ((accept_keepsMemory rest s).trans (exec_keepsMemory hu) :)
  · exact exec_keepsMemory hi

end Sys2Proof.Machine

namespace Sys2Proof.Proofs

open Sys2Proof.Machine

/-- Settles O12: a step resets, leaves the memories, or runs an instruction, and every operation of the engine keeps the
canonical form. -/
theorem memoryCanonicalKept : Obligations.MemoryCanonicalKept := fun _ _ canonical h =>
  (step_keepsMemory h).canonical canonical

end Sys2Proof.Proofs
end

section
set_option Elab.async false
/-! PROOFS. A step of the idle block that runs a command, and a step that accepts nothing (`47_system.md` R370, R371, R377,
`20_memory.md` R73, `92_eei_decisions.md` D6). -/

namespace Sys2Proof.Machine

/-! What stands at the head of the port (R73, R370). -/

theorem step_of_engine {s : State} (hpin : s.resetPin = false) (hturn : s.turn = .engine) : step s = engineStep s := by
  simp [step, hpin, hturn]

theorem fetch_of_command {s : State} {i : Instr} {rest : List Word} (h : decodeCommand s.port = .ok (i, rest)) :
    fetch s = if awaitsPayload i s then .wait else .command i rest := by
  simp [fetch, h]

/-- No word, or fewer words than the header announces. -/
def partialDescriptor (words : List Word) : Prop :=
  words = [] ∨ ∃ h rest, words = h :: rest ∧ rest.length < headerCount h

theorem fetch_of_partial {s : State} (h : partialDescriptor s.port) : fetch s = .wait := by
  obtain hport | ⟨w, rest, hport, short⟩ := h
  · simp [fetch, decodeCommand, hport]
  · simp [fetch, decodeCommand, hport, short]

theorem awaitsPayload_of_empty {s : State} {i : Instr} (clear : s.fault = false) (empty : s.payload = [])
    (takes : i = .songLoad ∨ i = .songSet) : awaitsPayload i s = true := by
  obtain rfl | rfl := takes <;> simp [awaitsPayload, clear, empty]

theorem engineStep_of_wait {s : State} (idle : s.busy = false) (h : fetch s = .wait) : engineStep s = .next s := by
  simp [engineStep, idle, h]

theorem engineStep_of_command {s : State} {i : Instr} {rest : List Word} (idle : s.busy = false)
    (h : fetch s = .command i rest) : engineStep s = complete (exec i (accept rest s)) := by
  simp [engineStep, idle, h]

theorem engineStep_of_busy {s : State} (busy : s.busy = true) : engineStep s = .next (presentBusy Config.cfg s) := by
  simp [engineStep, busy]

/-- Whether the live-input deadline has passed at the time read (R377). -/
def State.deadlinePassed (s : State) (now : Num) : Bool :=
  match s.liveDeadline with
  | none => false
  | some d => d.le now

/-- Acceptance field by field: the words taken, `busy` up, and the deadline check of R377. -/
theorem accept_eq (rest : List Word) (s : State) :
    let now := readTime (s.epoch + 1) s.monoTime
    accept rest s = { s with
      port := rest
      busy := true
      epoch := s.epoch + 1
      monoTime := now
      liveDeadline := if s.deadlinePassed now then none else s.liveDeadline
      audioActive := if s.deadlinePassed now && !s.playing then false else s.audioActive } := by
  unfold accept checkDeadline State.deadlinePassed
  dsimp only
  cases hd : s.liveDeadline with
  | none => simp
  | some d =>
    by_cases passed : d.le (readTime (s.epoch + 1) s.monoTime) = true
    · by_cases playing : s.playing = true <;> simp [passed, playing]
    · simp [passed]

end Sys2Proof.Machine

namespace Sys2Proof.Proofs

open Sys2Proof.Machine

/-- Settles O4: the command is fetched, accepted with the deadline check, run, and its end lowers `busy`. -/
theorem stepRunsCommand : Obligations.StepRunsCommand := by
  intro s i rest hpin hturn idle hdecode ready
  have fetched : fetch s = .command i rest := by simp [fetch_of_command hdecode, ready]
  have stepped : step s = complete (exec i (accept rest s)) := by
    rw [step_of_engine hpin hturn, engineStep_of_command idle fetched]
  exact stepped.trans (congrArg (fun t => complete (exec i t)) (accept_eq rest s))

/-- Settles O7: by what stands at the head of the port, and for a busy block by the platform's policy. -/
theorem partialDescriptorWaits : Obligations.PartialDescriptorWaits := by
  intro s hpin hturn
  rw [step_of_engine hpin hturn]
  refine ⟨fun idle cut => engineStep_of_wait idle (fetch_of_partial cut), fun idle clear empty i rest takes hdecode => ?_,
    fun busy => ?_⟩
  · refine engineStep_of_wait idle ?_
    rw [fetch_of_command hdecode, if_pos (awaitsPayload_of_empty clear empty takes)]
  · rw [engineStep_of_busy busy]
    cases policy : Config.cfg.busyPolicy with
    | stall => exact .inl ⟨rfl, by simp [presentBusy, policy]⟩
    | reject => exact .inr ⟨rfl, by simp [presentBusy, policy]⟩

end Sys2Proof.Proofs
end

section
set_option Elab.async false
/-! PROOFS. The wave builders that need no transform (`40_fft_wave.md` R134 to R136, R139, `20_memory.md` R77). -/

namespace Sys2Proof.Machine

/-! Wave cache entries (R60, R89). -/

/-- A built entry is valid. -/
theorem findWave_setWave_same (l : List WaveEntry) (k : WaveKey) (d : List Num) : findWave (setWave l k d) k = some d := by
  induction l with
  | nil => simp [setWave, findWave]
  | cons w t ih =>
    unfold setWave
    split
    · simp [findWave]
    · rename_i ne
      simp [findWave, ne, ih]

/-- A builder changes no other entry. -/
theorem findWave_setWave_other (l : List WaveEntry) {k k' : WaveKey} (d : List Num) (ne : k' ≠ k) :
    findWave (setWave l k d) k' = findWave l k' := by
  induction l with
  | nil => simp [setWave, findWave, ne.symm]
  | cons w t ih =>
    unfold setWave
    split
    · rename_i same
      simp [findWave, same, ne.symm]
    · simp only [findWave, ih]

/-! Running sums and closed waves (R77, R135). -/

theorem integrateFrom_length (acc : Num) (l : List Num) : (integrateFrom acc l).length = l.length + 1 := by
  induction l generalizing acc with
  | nil => rfl
  | cons v t ih => simp [integrateFrom, ih]

theorem integrateFrom_head (acc : Num) (l : List Num) : (integrateFrom acc l)[0]? = some acc := by
  cases l <;> rfl

/-- Each element of a running sum adds the sample below it. -/
theorem integrateFrom_succ {acc x y : Num} {l : List Num} {i : Nat} (hx : (integrateFrom acc l)[i]? = some x)
    (hy : l[i]? = some y) : (integrateFrom acc l)[i + 1]? = some (x.add y) := by
  induction l generalizing acc i with
  | nil => simp at hy
  | cons v t ih =>
    cases i with
    | zero =>
      obtain rfl : v = y := by simpa using hy
      obtain rfl : acc = x := by simpa [integrateFrom] using hx
      simpa [integrateFrom] using integrateFrom_head (acc.add v) t
    | succ i => simpa [integrateFrom] using ih (by simpa [integrateFrom] using hx) (by simpa using hy)

theorem closeWave_length (l : List Num) : (closeWave l).length = l.length + 1 := by simp [closeWave]

theorem closeWave_below {l : List Num} {i : Nat} (h : i < l.length) : (closeWave l)[i]? = l[i]? :=
  List.getElem?_append_left h

/-- The last element of a closed wave repeats its first. -/
theorem closeWave_last {l : List Num} (h : 0 < l.length) : (closeWave l)[l.length]? = (closeWave l)[0]? := by
  rw [closeWave_below h, closeWave, List.getElem?_concat_length]
  cases l with
  | nil => simp at h
  | cons v t => rfl

theorem noiseSamples_pos (c : Cfg) (u : Nat) : 0 < (c.noiseSamples u).length := by
  unfold Cfg.noiseSamples
  split
  · exact Nat.one_pos
  · rename_i ne
    exact List.length_pos_iff.mpr ne

/-- The sine table without its closing element (R134). -/
def sineSamples (c : Cfg) : List Num :=
  (List.range c.sineWaveLength).map (fun i => c.sinOf ((twoPiTimes (Num.ofNat i)).div (Num.ofNat c.sineWaveLength)))

theorem sineTable_eq (c : Cfg) : sineTable c = closeWave (sineSamples c) := rfl

theorem sineSamples_length (c : Cfg) : (sineSamples c).length = c.sineWaveLength := by simp [sineSamples]

theorem sineSamples_get {c : Cfg} {i : Nat} (h : i < c.sineWaveLength) : (sineSamples c)[i]? =
    some (c.sinOf ((twoPiTimes (Num.ofNat i)).div (Num.ofNat c.sineWaveLength))) := by
  simp [sineSamples, h]

/-! The builders as commands. -/

theorem waveCommand_some {x : Ctx} {s : State} (clear : s.fault = false) (k : WaveKey) :
    waveCommand x s (some k) = { s with eng := buildWave x k s.eng } := onEngine_ok clear _

theorem waveCommand_none {x : Ctx} {s : State} (clear : s.fault = false) :
    waveCommand x s none = s.withFault 2#8 x.info := (onEngine_error clear _).trans (raise_eq_withFault clear _)

/-- The state behind a builder that leaves `WORK` open (R493). -/
def State.withTable (s : State) (k : WaveKey) (d : List Num) : State :=
  { s with eng := { s.eng with waves := setWave s.eng.waves k d, work := [], workEpoch := s.epoch } }

section
variable {s : State} (clear : s.fault = false)
include clear

theorem exec_waveSine : exec .waveSine s = .next (s.withTable .sine (sineTable Config.cfg)) :=
  congrArg Host.Outcome.next (waveCommand_some clear .sine)

theorem exec_waveImpulse : exec .waveImpulse s = .next (s.withTable .impulse Config.cfg.impulseSamples) :=
  congrArg Host.Outcome.next (waveCommand_some clear .impulse)

theorem exec_waveChip {u : Nat} (inside : u < Config.cfg.chipWaves.length) :
    exec (.waveChip u) s = .next (s.withTable (.chip u) (integrate (Config.cfg.chipSamples u))) := by
  show execWaveChip u s = _
  rw [execWaveChip, if_pos inside, waveCommand_some clear]
  rfl

theorem exec_waveNoise {u : Nat} (inside : u < Config.cfg.noiseWaveCount) :
    exec (.waveNoise u) s = .next (s.withTable (.noise u) (closeWave (Config.cfg.noiseSamples u))) := by
  show execWaveNoise u s = _
  rw [execWaveNoise, if_pos inside, waveCommand_some clear]
  rfl

theorem exec_waveChip_outside {u : Nat} (outside : Config.cfg.chipWaves.length ≤ u) :
    exec (.waveChip u) s = .next (s.withFault 2#8 (headerInfo (Instr.header (.waveChip u)))) := by
  show execWaveChip u s = _
  rw [execWaveChip, if_neg (by omega), waveCommand_none clear]
  rfl

theorem exec_waveNoise_outside {u : Nat} (outside : Config.cfg.noiseWaveCount ≤ u) :
    exec (.waveNoise u) s = .next (s.withFault 2#8 (headerInfo (Instr.header (.waveNoise u)))) := by
  show execWaveNoise u s = _
  rw [execWaveNoise, if_neg (by omega), waveCommand_none clear]
  rfl

end

end Sys2Proof.Machine

namespace Sys2Proof.Proofs

open Sys2Proof.Machine

/-- Settles O29: each builder by the table that it makes. -/
theorem tableWaves : Obligations.TableWaves := by
  intro s u clear
  have other (k : WaveKey) (d : List Sys2Proof.Num) :
      ∀ k', k' ≠ k → findWave (setWave s.eng.waves k d) k' = findWave s.eng.waves k' :=
    fun _ ne => findWave_setWave_other _ d ne
  refine ⟨⟨_, _, exec_waveSine clear, rfl, findWave_setWave_same .., ?sine, other _ _⟩,
    fun inside => ⟨_, _, exec_waveChip clear inside, rfl, findWave_setWave_same .., ?chip, other _ _⟩,
    fun inside => ⟨_, _, exec_waveNoise clear inside, rfl, findWave_setWave_same .., ?noise, other _ _⟩,
    ⟨_, _, exec_waveImpulse clear, rfl, findWave_setWave_same .., rfl, other _ _⟩,
    exec_waveChip_outside clear, exec_waveNoise_outside clear⟩
  case sine =>
    have length := sineSamples_length Config.cfg
    have last := closeWave_last ((Nat.two_pow_pos _).trans_eq length.symm)
    rw [length] at last
    refine ⟨(closeWave_length _).trans (congrArg (· + 1) length), last, fun i hi => ?_⟩
    exact (closeWave_below (hi.trans_eq length.symm)).trans (sineSamples_get hi)
  case chip =>
    exact ⟨integrateFrom_length .., integrateFrom_head .., fun i x y => integrateFrom_succ⟩
  case noise =>
    exact ⟨closeWave_length _, closeWave_last (noiseSamples_pos ..), fun i hi => closeWave_below hi⟩

end Sys2Proof.Proofs
end

section
set_option Elab.async false
/-! PROOFS. What `RDM` returns of each memory space, and where it takes `BadIndex` (`20_memory.md` R70, R71,
`47_system.md` R385). -/

namespace Sys2Proof.Machine

/-! How `RDM` ends. -/

/-- The element of a memory space as the response word of an `RDM`, none where there is none (R385). -/
def State.spaceWord (s : State) (u v w index : Nat) : Option Word :=
  readSpace (s.ctx Config.cfg (.rdm u v w index)) s.eng u v w index

/-- `RDM` returns `x`, a NaN as any NaN (R7). -/
def State.Returns (s : State) (i : Instr) (x : Num) : Prop :=
  ∃ y, exec i s = .next { s with responses := s.responses ++ [y] } ∧ (x.isNaN = false → y = x.bits)

/-- A command takes `BadIndex` in a block without a fault. -/
def State.Refuses (s : State) (i : Instr) : Prop :=
  s.fault = false → exec i s = .next (s.withFault 2#8 (headerInfo i.header))

section
variable {s : State} {u v w index : Nat}

theorem exec_rdm_of_some {y : Word} (h : s.spaceWord u v w index = some y) :
    exec (.rdm u v w index) s = .next { s with responses := s.responses ++ [y] } := by
  show Host.Outcome.next (readCommand s (orRaise (s.spaceWord u v w index) _)) = _
  rw [h]
  rfl

theorem returns_of_some {x : Num} (h : s.spaceWord u v w index = some x.response) : s.Returns (.rdm u v w index) x :=
  ⟨x.response, exec_rdm_of_some h, response_of_not_isNaN⟩

theorem refuses_of_none (h : s.spaceWord u v w index = none) : s.Refuses (.rdm u v w index) := fun clear => by
  show Host.Outcome.next (readCommand s (orRaise (s.spaceWord u v w index) _)) = _
  rw [h]
  exact congrArg Host.Outcome.next (readCommand_error clear _)

/-! Rings and wave cache entries. -/

theorem ringElement_inside {m : Memory Num} {size : Nat} (h : index < size) :
    ringElement (m, size) index = some (Memory.getNum m index) := if_pos h

theorem ringElement_outside {m : Memory Num} {size : Nat} (h : size ≤ index) : ringElement (m, size) index = none :=
  if_neg (Nat.not_lt.mpr h)

/-- Both sides of a ring's bound. -/
theorem ring_read {m : Memory Num} {size : Nat}
    (h : s.spaceWord u v w index = (ringElement (m, size) index).map Num.response) :
    (index < size → s.Returns (.rdm u v w index) (Memory.getNum m index)) ∧
      (size ≤ index → s.Refuses (.rdm u v w index)) := by
  refine ⟨fun lt => returns_of_some ?_, fun le => refuses_of_none ?_⟩
  · rw [h, ringElement_inside lt]; rfl
  · rw [h, ringElement_outside le]; rfl

theorem spaceWord_slotRing {i : Slot} (hi : s.eng.slots[v]? = some i) : s.spaceWord 4 v w index =
    (slotRing (s.ctx Config.cfg (.rdm 4 v w index)) i w).bind (fun m => (ringElement m index).map Num.response) := by
  simp [State.spaceWord, readSpace, hi]

theorem slotRing_eq_none {x : Ctx} {i : Slot} (h : 3 < w) : slotRing x i w = none := by
  obtain ⟨k, rfl⟩ := Nat.exists_eq_add_of_lt h
  rw [show 3 + k + 1 = k + 4 by omega]
  rfl

theorem spaceWord_of_no_slotRing (h : s.eng.slots[v]? = none ∨ 3 < w) : s.spaceWord 4 v w index = none := by
  cases hi : s.eng.slots[v]? with
  | none => simp [State.spaceWord, readSpace, hi]
  | some i =>
    have above : 3 < w := h.resolve_left (by simp [hi])
    rw [spaceWord_slotRing hi, slotRing_eq_none above]
    rfl

theorem spaceWord_string {a : Tone} {st : StringState} (ha : s.eng.tones[v]? = some a) (hst : a.strings[w]? = some st) :
    s.spaceWord 5 v w index =
      (ringElement (st.ring, Config.cfg.stringRingSize s.sampleRate) index).map Num.response := by
  simp only [State.spaceWord, readSpace, ha, hst, Option.bind_some]
  rfl

theorem spaceWord_of_no_tone (ha : s.eng.tones[v]? = none) : s.spaceWord 5 v w index = none := by
  simp [State.spaceWord, readSpace, ha]

theorem spaceWord_of_no_string {a : Tone} (ha : s.eng.tones[v]? = some a) (hst : a.strings[w]? = none) :
    s.spaceWord 5 v w index = none := by
  simp [State.spaceWord, readSpace, ha, hst]

/-- An entry of the wave caches: its elements where its flag is set. -/
theorem wave_read {k : WaveKey} {j : Nat}
    (h : waveElement (s.ctx Config.cfg (.rdm 6 v w index)) v w index = some (k, j)) :
    (∀ d x, findWave s.eng.waves k = some d → d[j]? = some x → s.Returns (.rdm 6 v w index) x) ∧
      (∀ d, findWave s.eng.waves k = some d → d.length ≤ j → s.Refuses (.rdm 6 v w index)) ∧
      (findWave s.eng.waves k = none → s.Refuses (.rdm 6 v w index)) := by
  have word : s.spaceWord 6 v w index =
      (findWave s.eng.waves k).bind (fun d => (d[j]?).map Num.response) := by
    simp [State.spaceWord, readSpace, h]
  refine ⟨fun d x hd hx => returns_of_some ?_, fun d hd le => refuses_of_none ?_, fun hn => refuses_of_none ?_⟩
  · simp [word, hd, hx]
  · simp [word, hd, le]
  · simp [word, hn]

theorem refuses_of_no_wave (h : waveElement (s.ctx Config.cfg (.rdm 6 v w index)) v w index = none) :
    s.Refuses (.rdm 6 v w index) :=
  refuses_of_none (by simp [State.spaceWord, readSpace, h])

/-- The drum of an element of a drumset's waves, one behind the other (R385). -/
theorem waveElement_drum {x : Ctx} (h : index < 12 * (x.cfg.spectrumWaveLength + 1)) : waveElement x 5 w index =
    some (.drum w (index / (x.cfg.spectrumWaveLength + 1)), index % (x.cfg.spectrumWaveLength + 1)) := by
  have drum : index / (x.cfg.spectrumWaveLength + 1) < drumCount := Nat.div_lt_of_lt_mul (by rwa [Nat.mul_comm])
  simp [waveElement, drum]

theorem waveElement_drum_outside {x : Ctx} (h : 12 * (x.cfg.spectrumWaveLength + 1) ≤ index) :
    waveElement x 5 w index = none := by
  have beyond : ¬ index / (x.cfg.spectrumWaveLength + 1) < drumCount :=
    Nat.not_lt.mpr ((Nat.le_div_iff_mul_le (Nat.succ_pos _)).mpr h)
  simp [waveElement, beyond]

theorem waveElement_unknown {x : Ctx} (h : 6 < v ∨ ((v = 0 ∨ v = 6) ∧ w ≠ 0)) : waveElement x v w index = none := by
  obtain above | ⟨rfl | rfl, hw⟩ := h
  · obtain ⟨k, rfl⟩ := Nat.exists_eq_add_of_lt above
    rw [show 6 + k + 1 = k + 7 by omega]
    rfl
  · simp [waveElement, hw]
  · simp [waveElement, hw]

/-! Spaces and selectors that do not exist. -/

theorem spaceWord_of_extra_selector (hu : u ≤ 3) (h : v ≠ 0 ∨ w ≠ 0) : s.spaceWord u v w index = none := by
  have absent (b : Prop) : ¬ (v = 0 ∧ w = 0 ∧ b) := fun ⟨hv, hw, _⟩ => h.elim (· hv) (· hw)
  interval_cases u <;> simp only [State.spaceWord, readSpace, if_neg (absent _)]

theorem spaceWord_of_unknown_mix (h : 1 < v ∨ w ≠ 0) : s.spaceWord 7 v w index = none := by
  by_cases hw : w = 0
  · have above : 1 < v := h.resolve_right (· hw)
    have left : v ≠ 0 := by omega
    have right : v ≠ 1 := by omega
    simp [State.spaceWord, readSpace, left, right]
  · simp [State.spaceWord, readSpace, hw]

theorem spaceWord_of_unknown_space (h : 7 < u) : s.spaceWord u v w index = none := by
  obtain ⟨k, rfl⟩ := Nat.exists_eq_add_of_lt h
  rw [State.spaceWord, show 7 + k + 1 = k + 8 by omega]
  rfl

end

/-- A binary32 pattern that is no NaN is returned zero-extended (R105). -/
theorem singleResponse_toNat {x : Single} (h : x.toNat / 2 ^ 23 % 2 ^ 8 ≠ 255 ∨ x.toNat % 2 ^ 23 = 0) :
    (singleResponse x).toNat = x.toNat := by
  have number : ¬ (x.toNat / 2 ^ 23 % 2 ^ 8 = 255 ∧ x.toNat % 2 ^ 23 ≠ 0) := fun ⟨e, f⟩ => h.elim (· e) f
  have small := x.isLt
  rw [singleResponse, if_neg number, BitVec.toNat_ofNat]
  omega

end Sys2Proof.Machine

namespace Sys2Proof.Proofs

open Sys2Proof.Machine

/-- Settles O23, space by space. -/
theorem readMemory : Obligations.ReadMemory := by
  intro s v w index
  refine ⟨fun lt => returns_of_some ?work, fun le => refuses_of_none ?noWork,
    fun lt => ⟨exec_rdm_of_some ?outL, exec_rdm_of_some ?outR⟩, fun _ => singleResponse_toNat,
    fun le => ⟨refuses_of_none ?noOutL, refuses_of_none ?noOutR⟩, ring_read ?scratch,
    fun lt => ⟨returns_of_some ?mixL, returns_of_some ?mixR⟩, fun le => ⟨refuses_of_none ?noMixL, refuses_of_none ?noMixR⟩,
    fun i hi => ⟨ring_read (spaceWord_slotRing hi), ring_read (spaceWord_slotRing hi), ring_read (spaceWord_slotRing hi),
      ring_read (spaceWord_slotRing hi)⟩,
    fun none => refuses_of_none (spaceWord_of_no_slotRing none),
    fun a st ha hst => ring_read (spaceWord_string ha hst), fun none => refuses_of_none (spaceWord_of_no_tone none),
    fun a ha none => refuses_of_none (spaceWord_of_no_string ha none), wave_read rfl, wave_read rfl, wave_read rfl,
    wave_read rfl, wave_read rfl, wave_read rfl, fun lt => wave_read (waveElement_drum lt),
    fun le => refuses_of_no_wave (waveElement_drum_outside le),
    fun unknown => refuses_of_no_wave (waveElement_unknown unknown),
    fun u hu extra => refuses_of_none (spaceWord_of_extra_selector hu extra),
    fun extra => refuses_of_none (spaceWord_of_unknown_mix extra),
    fun u hu => refuses_of_none (spaceWord_of_unknown_space hu)⟩
  case work | outL | outR => exact if_pos ⟨rfl, rfl, lt⟩
  case mixL | mixR => exact if_pos ⟨rfl, lt⟩
  case noWork | noOutL | noOutR => exact if_neg fun ⟨_, _, lt⟩ => Nat.not_lt.mpr le lt
  case noMixL | noMixR => exact if_neg fun ⟨_, lt⟩ => Nat.not_lt.mpr le lt
  case scratch => simp [State.spaceWord, readSpace, ringElement, State.ctx]

end Sys2Proof.Proofs
end

section
set_option Elab.async false
/-! PROOFS. The stereo stages of the effects on an instrument slot (`45_effects.md` R288, R292, R296, `20_memory.md` R74,
R76). -/

namespace Sys2Proof

/-! Ring indices (R74). -/

theorem ringIndex_natCast (size n : Nat) : ringIndex size (n : Int) = n % size := by
  rw [ringIndex, ← Int.natCast_mod, Int.toNat_natCast]

theorem ringIndex_succ (size n : Nat) : ringIndex size ((n : Int) + 1) = (n + 1) % size :=
  ringIndex_natCast size (n + 1)

theorem ringGet_natCast (m : Memory Num) (size n : Nat) : ringGet m size (n : Int) = Memory.getNum m (n % size) := by
  rw [ringGet, ringIndex_natCast]

/-- What every element of a ring reads as after a write. -/
theorem getNum_ringSet {m : Memory Num} (h : Memory.numWf m = true) (size n : Nat) (v : Num) (k : Nat) :
    Memory.getNum (ringSet m size (n : Int) v) k = if k = n % size then v else Memory.getNum m k := by
  rw [ringSet, ringIndex_natCast]
  split
  · rename_i e
    rw [e, Memory.getNum_setNum_same h]
  · rename_i ne
    exact Memory.getNum_setNum_other h v ne

end Sys2Proof

namespace Sys2Proof.Machine

/-! Stages as commands (R280). -/

section
variable {x : Ctx} {s : State} {u : Nat} {i : Slot} {ins : Instrument} {f : Instrument → Slot → Num × Num × Slot}

theorem slotAt_of_some {e : Engine} (hi : e.slots[u]? = some i) (hins : slotInstrument x.song u = some ins) :
    slotAt x e u = .ok (i, ins) := by
  simp [slotAt, hi, hins]

theorem slotAt_of_none {e : Engine} (hi : e.slots[u]? = none) : slotAt x e u = .error x.badIndex := by
  simp [slotAt, hi]

theorem stereoStage_of_slot (clear : s.fault = false) (hi : s.eng.slots[u]? = some i)
    (hins : slotInstrument x.song u = some ins) : stereoStage x s u f =
      answer { s with eng := s.eng.setSlot u (f ins i).2.2 } [(f ins i).1, (f ins i).2.1] := by
  rw [stereoStage, slotAt_of_some hi hins]
  exact command_ok clear _

theorem stereoStage_of_none (clear : s.fault = false) (hi : s.eng.slots[u]? = none) :
    stereoStage x s u f = s.withFault 2#8 x.info := by
  rw [stereoStage, slotAt_of_none hi]
  exact (command_error clear _).trans (raise_eq_withFault clear _)

end

/-- The registers that a stereo stage writes (R105). -/
theorem result_answer_pair (s : State) (a b : Num) : (answer s [a, b]).result 0 = some a ∧
    (answer s [a, b]).result 1 = some b ∧ ∀ k, 2 ≤ k → (answer s [a, b]).result k = s.result k :=
  ⟨setResults_at (i := 0) (k := 0) (by simp) (by decide), setResults_at (i := 0) (k := 1) (by simp) (by decide),
    fun _ hk => setResults_above hk⟩

/-- A stereo stage leaves its two outputs in `r[0]`, `r[1]`, and its slot. -/
theorem stereoStage_gives {s : State} {op : Instr} {u : Nat} {i j : Slot} {ins : Instrument} {y0 y1 : Num}
    {f : Instrument → Slot → Num × Num × Slot}
    (run : exec op s = .next (stereoStage (s.ctx Config.cfg op) s u f)) (clear : s.fault = false)
    (hi : s.eng.slots[u]? = some i) (hins : slotInstrument s.song u = some ins) (hf : f ins i = (y0, y1, j)) :
    ∃ t, exec op s = .next t ∧ t = { s with r := t.r, eng := { s.eng with slots := s.eng.slots.set u j } } ∧
      t.result 0 = some y0 ∧ t.result 1 = some y1 ∧ ∀ k, 2 ≤ k → t.result k = s.result k := by
  rw [stereoStage_of_slot clear hi hins, hf] at run
  exact ⟨_, run, rfl, result_answer_pair _ y0 y1⟩

/-! What each stage makes of a slot. -/

section
variable (x : Ctx) (ins : Instrument) (i : Slot)

/-- The pan ring after a sample: written before it is read (R288). -/
def pannedRing (s : Num) : Memory Num :=
  ringSet i.panRing (x.cfg.panRingSize x.sampleRate) i.panPos (s.mul i.delayInputMult)

theorem pan_slot (s : Num) : (pan x ins i s).2.2 =
    { i with panRing := pannedRing x i s, panPos := (i.panPos + 1) % x.cfg.panRingSize x.sampleRate } := by
  rw [← ringIndex_succ]
  rfl

/-- A chorus ring after a sample (R292). -/
def chorusedRing (ring : Memory Num) (s : Num) : Memory Num :=
  ringSet ring (x.cfg.chorusRingSize x.sampleRate) i.chorusPos (s.mul i.delayInputMult)

theorem chorus_slot (l r : Num) : (chorus x i l r).2.2 = { i with
    chorusRingL := chorusedRing x i i.chorusRingL l
    chorusRingR := chorusedRing x i i.chorusRingR r
    chorusPos := (i.chorusPos + 1) % x.cfg.chorusRingSize x.sampleRate
    chorusPhase := wrapPhase (i.chorusPhase.add (Num.twoPi.div (x.cfg.chorusPeriod.mul x.sampleRate))) .twoPi } := by
  rw [← ringIndex_succ]
  rfl

end

/-- Four writes of a ring, the last one first (R296). -/
theorem getNum_ringSet_four {m : Memory Num} (h : Memory.numWf m = true) (size a b c d : Nat) (va vb vc vd : Num)
    (k : Nat) : Memory.getNum (ringSet (ringSet (ringSet (ringSet m size (a : Int) va) size (b : Int) vb) size (c : Int) vc)
        size (d : Int) vd) k =
      if k = d % size then vd else if k = c % size then vc else if k = b % size then vb else if k = a % size then va
      else Memory.getNum m k := by
  have ha := Memory.numWf_ringSet h size a va
  have hb := Memory.numWf_ringSet ha size b vb
  have hc := Memory.numWf_ringSet hb size c vc
  rw [getNum_ringSet hc, getNum_ringSet hb, getNum_ringSet ha, getNum_ringSet h]

end Sys2Proof.Machine

namespace Sys2Proof.Proofs

open Sys2Proof.Machine

/-- Settles O46, stage by stage. -/
theorem stereoEffects : Obligations.StereoEffects := by
  intro s u l r i ins clear hi hins canonical
  refine ⟨⟨pannedRing (s.ctx Config.cfg (.fxPan u l)) i l, ?pan, ?panAt, ?panElse⟩,
    ⟨chorusedRing (s.ctx Config.cfg (.fxChorus u l r)) i i.chorusRingL l,
      chorusedRing (s.ctx Config.cfg (.fxChorus u l r)) i i.chorusRingR r, ?chorus, ?chorusAtL, ?chorusAtR, ?chorusElse⟩,
    ⟨(reverb (s.ctx Config.cfg (.fxReverb u l r)) ins i l r).2.2.reverbRing, ?reverb, ?reverbAt⟩,
    fun u' none => ⟨?noPan, ?noChorus, ?noReverb⟩⟩
  case pan =>
    refine stereoStage_gives rfl clear hi hins ?_
    exact Prod.ext rfl (Prod.ext rfl (pan_slot ..))
  case panAt => exact (getNum_ringSet canonical.pan ..).trans (if_pos rfl)
  case panElse => exact fun k ne => (getNum_ringSet canonical.pan ..).trans (if_neg ne)
  case chorus =>
    refine stereoStage_gives rfl clear hi hins ?_
    exact Prod.ext rfl (Prod.ext rfl (chorus_slot ..))
  case chorusAtL => exact (getNum_ringSet canonical.chorusL ..).trans (if_pos rfl)
  case chorusAtR => exact (getNum_ringSet canonical.chorusR ..).trans (if_pos rfl)
  case chorusElse =>
    exact fun k ne => ⟨(getNum_ringSet canonical.chorusL ..).trans (if_neg ne),
      (getNum_ringSet canonical.chorusR ..).trans (if_neg ne)⟩
  case reverb =>
    refine stereoStage_gives rfl clear hi hins ?_
    simp only [← ringIndex_succ, ← ringGet_natCast]
    rfl
  case reverbAt =>
    intro k
    simp only [← ringGet_natCast]
    exact getNum_ringSet_four canonical.reverb ..
  case noPan | noChorus | noReverb => exact congrArg Host.Outcome.next (stereoStage_of_none clear none)

end Sys2Proof.Proofs
end

section
set_option Elab.async false
/-! SUPPORT. What the coherence of an edit does to tones, slots and waves (`20_memory.md` R86, R87, `47_system.md` R381),
and what a change of a count field keeps of the lists. -/

namespace Sys2Proof.Machine

/-! Wave flags (R86, R89). -/

/-- The entries that are named lose their flags; the others stay. -/
theorem findWave_invalidateWaves (l : List WaveEntry) (p : WaveKey → Bool) (k : WaveKey) :
    findWave (invalidateWaves l p) k = if p k then none else findWave l k := by
  induction l with
  | nil => simp [invalidateWaves, findWave]
  | cons w t ih =>
    have tail : findWave (t.map fun w => if p w.key then { w with valid := false } else w) k =
        if p k then none else findWave t k := ih
    by_cases hp : p w.key = true
    · by_cases hk : w.key = k
      · subst hk
        simp [invalidateWaves, findWave, hp, tail]
      · simp [invalidateWaves, findWave, hp, hk, tail]
    · by_cases hk : w.key = k
      · subst hk
        simp [invalidateWaves, findWave, hp, tail]
      · simp [invalidateWaves, findWave, hp, hk, tail]

/-! Freed tones (R87). -/

/-- A tone after the tones of the channels and instrument slots that `p` names were freed. -/
def Tone.freedIf (p : Nat → Nat → Bool) (a : Tone) : Tone :=
  if p a.channel a.instrument then { a with state := .free } else a

theorem Tone.freedIf_freedIf (p q : Nat → Nat → Bool) (a : Tone) :
    (a.freedIf p).freedIf q = a.freedIf (fun c i => p c i || q c i) := by
  unfold Tone.freedIf
  by_cases hp : p a.channel a.instrument = true
  · simp [hp]
  · simp [hp]

/-- One step of `freeTones`. -/
def freeWhere (p : Tone → Bool) (e : Engine) (u : Nat) : Engine :=
  match e.tones[u]? with
  | some t => if t.state = .free then e else if p t then freeTone e u else e
  | none => e

theorem freeTones_eq (p : Tone → Bool) (e : Engine) :
    freeTones p e = (List.range e.tones.length).foldl (freeWhere p) e := rfl

theorem freeWhere_tones (p : Nat → Nat → Bool) (e : Engine) (u : Nat) :
    (freeWhere (fun t => p t.channel t.instrument) e u).tones = e.tones.modify u (Tone.freedIf p) := by
  unfold freeWhere
  split
  next t ht =>
    have same (h : t.freedIf p = t) : e.tones = e.tones.modify u (Tone.freedIf p) := by
      refine List.ext_getElem? fun v => ?_
      rw [List.getElem?_modify]
      by_cases hv : u = v
      · simp [← hv, ht, h]
      · simp [hv]
    split
    next free => exact same (by simp [Tone.freedIf, ← free])
    next =>
      split
      next hp =>
        show e.tones.modify u (fun t => { t with state := .free }) = _
        simp [List.modify_eq_set_getElem?, ht, Tone.freedIf, hp]
      next hp => exact same (by simp [Tone.freedIf, hp])
  next hn => exact (List.modify_eq_self (List.getElem?_eq_none_iff.mp hn)).symm

theorem foldl_freeWhere_get (p : Nat → Nat → Bool) (l : List Nat) (e : Engine) (v : Nat) :
    (l.foldl (freeWhere fun t => p t.channel t.instrument) e).tones[v]? =
      (e.tones[v]?).map (fun a => if v ∈ l then a.freedIf p else a) := by
  induction l generalizing e with
  | nil => simp
  | cons u t ih =>
    rw [List.foldl_cons, ih, freeWhere_tones, List.getElem?_modify]
    cases e.tones[v]? with
    | none => rfl
    | some a =>
      by_cases same : u = v
      · by_cases again : v ∈ t <;> simp [same, again, Tone.freedIf_freedIf]
      · simp [same, Ne.symm same]

/-- Freeing tones rewrites each tone in its slot. -/
theorem freeTones_tones (p : Nat → Nat → Bool) (e : Engine) :
    (freeTones (fun t => p t.channel t.instrument) e).tones = e.tones.map (Tone.freedIf p) := by
  refine List.ext_getElem? fun v => ?_
  rw [freeTones_eq, foldl_freeWhere_get, List.getElem?_map]
  cases hv : e.tones[v]? with
  | none => rfl
  | some a => simp [(List.getElem?_eq_some_iff.mp hv).1]

/-- The tones that `P` names are freed, every other tone stays. -/
def Engine.Frees (e : Engine) (P : Tone → Prop) (e' : Engine) : Prop :=
  ∀ (u : Nat) (a : Tone), e.tones[u]? = some a → ∃ b : Tone, e'.tones[u]? = some b ∧
    (P a → b.state = .free) ∧ (¬ P a → b = a)

theorem Engine.Frees.of_tones {e e' : Engine} {p : Nat → Nat → Bool} {P : Tone → Prop}
    (h : e'.tones = e.tones.map (Tone.freedIf p)) (hp : ∀ a : Tone, p a.channel a.instrument = true ↔ P a) :
    e.Frees P e' := fun u a ha => by
  refine ⟨a.freedIf p, by rw [h, List.getElem?_map, ha]; rfl, fun named => ?_, fun other => ?_⟩
  · rw [Tone.freedIf, if_pos ((hp a).mpr named)]
  · rw [Tone.freedIf, if_neg (mt (hp a).mp other)]

/-- The parts of the engine that freeing tones does not touch. -/
def Engine.outsideTones (e : Engine) : Engine := { e with tones := [], activeTones := [], releasedTones := [] }

theorem freeTones_outsideTones (p : Tone → Bool) (e : Engine) : (freeTones p e).outsideTones = e.outsideTones := by
  refine foldl_keeps _ Engine.outsideTones (fun b a => ?_) _ e
  split
  · split
    · rfl
    · split <;> rfl
  · rfl

theorem Engine.eq_of_outsideTones {e e' : Engine} (h : e'.outsideTones = e.outsideTones) : e' = { e with
    tones := e'.tones, activeTones := e'.activeTones, releasedTones := e'.releasedTones } :=
  congrArg (fun d : Engine => { d with
    tones := e'.tones, activeTones := e'.activeTones, releasedTones := e'.releasedTones }) h

theorem Engine.eq_of_outsideSong {e e' : Engine} (h : e'.outsideSong = e.outsideSong) : e' = { e with
    tones := e'.tones, activeTones := e'.activeTones, releasedTones := e'.releasedTones, slots := e'.slots
    waves := e'.waves } :=
  congrArg (fun d : Engine => { d with
    tones := e'.tones, activeTones := e'.activeTones, releasedTones := e'.releasedTones, slots := e'.slots
    waves := e'.waves }) h

theorem freeTones_frame (p : Tone → Bool) (e : Engine) : freeTones p e = { e with
    tones := (freeTones p e).tones, activeTones := (freeTones p e).activeTones
    releasedTones := (freeTones p e).releasedTones } := Engine.eq_of_outsideTones (freeTones_outsideTones p e)

theorem freeTones_slots (p : Tone → Bool) (e : Engine) : (freeTones p e).slots = e.slots := by rw [freeTones_frame]

theorem freeTones_waves (p : Tone → Bool) (e : Engine) : (freeTones p e).waves = e.waves := by rw [freeTones_frame]

/-! Slots replaced with their waves (R87, assumption 34). -/

/-- The tones of the channels and slots that `p` names are freed; the slots that `q` names are reset, and the waves that
are built from them lose their flags. -/
structure Engine.Settles (c : Cfg) (p : Nat → Nat → Bool) (q : Nat → Bool) (e e' : Engine) : Prop where
  tones : e'.tones = e.tones.map (Tone.freedIf p)
  slots : e'.slots = e.slots.mapIdx (fun u i => if q u then Slot.zero c else i)
  cleared : ∀ k u, q u = true → slotWave u k = true → findWave e'.waves k = none
  kept : ∀ k, (∀ u, q u = true → slotWave u k = false) → findWave e'.waves k = findWave e.waves k

/-- One settlement behind another. -/
theorem Engine.Settles.trans {c : Cfg} {p p' : Nat → Nat → Bool} {q q' : Nat → Bool} {e e' e'' : Engine}
    (h : e.Settles c p q e') (h' : e'.Settles c p' q' e'') :
    e.Settles c (fun d i => p d i || p' d i) (fun u => q u || q' u) e'' where
  tones := by
    rw [h'.tones, h.tones, List.map_map]
    exact List.map_congr_left fun a _ => a.freedIf_freedIf p p'
  slots := by
    rw [h'.slots, h.slots, List.mapIdx_mapIdx]
    congr 1
    funext u i
    by_cases hq : q u = true <;> by_cases hq' : q' u = true <;> simp [hq, hq']
  cleared k u hu hk := by
    by_cases later : ∃ v, q' v = true ∧ slotWave v k = true
    · obtain ⟨v, hv, hkv⟩ := later
      exact h'.cleared k v hv hkv
    · have untouched (v : Nat) (hv : q' v = true) : slotWave v k = false :=
        Bool.eq_false_iff.mpr fun named => later ⟨v, hv, named⟩
      have first : q u = true := (Bool.or_eq_true_iff.mp hu).resolve_right fun hv => by
        rw [untouched u hv] at hk
        nomatch hk
      exact (h'.kept k untouched).trans (h.cleared k u first hk)
  kept k outside := (h'.kept k fun u hu => outside u (by simp [hu])).trans
    (h.kept k fun u hu => outside u (by simp [hu]))

theorem mapIdx_self {α : Type} (l : List α) : l.mapIdx (fun _ a => a) = l :=
  List.ext_getElem? fun i => by rw [List.getElem?_mapIdx, Option.map_id_fun', id]

theorem Engine.Settles.refl (c : Cfg) (e : Engine) : e.Settles c (fun _ _ => false) (fun _ => false) e where
  tones := (List.map_id'' (fun _ => rfl) e.tones).symm
  slots := (mapIdx_self e.slots).symm
  cleared _ _ h := nomatch h
  kept _ _ := rfl

/-- Settlements one behind another, by what they name together. -/
theorem Engine.Settles.foldl {c : Cfg} {p : Nat → Nat → Nat → Bool} {q : Nat → Nat → Bool} {f : Engine → Nat → Engine}
    (h : ∀ (e : Engine) (j : Nat), e.Settles c (p j) (q j) (f e j)) (l : List Nat) (e : Engine) :
    e.Settles c (fun d i => l.any (fun j => p j d i)) (fun u => l.any (fun j => q j u)) (l.foldl f e) := by
  induction l generalizing e with
  | nil => exact .refl c e
  | cons j t ih => exact (h e j).trans (ih _)

theorem freeChannelTones_settles (c : Cfg) (ch : Nat) (e : Engine) :
    e.Settles c (fun d _ => d == ch) (fun _ => false) (freeChannelTones ch e) where
  tones := freeTones_tones (fun d _ => d == ch) e
  slots := (freeTones_slots _ e).trans (mapIdx_self e.slots).symm
  cleared _ _ h := nomatch h
  kept k _ := by rw [freeChannelTones, freeTones_waves]

theorem resetSlot_tones (c : Cfg) (islot : Nat) (e : Engine) :
    (resetSlot c islot e).tones = e.tones.map (Tone.freedIf fun _ i => i == islot) :=
  freeTones_tones (fun _ i => i == islot) e

theorem resetSlot_slots (c : Cfg) (islot : Nat) (e : Engine) :
    (resetSlot c islot e).slots = e.slots.set islot (Slot.zero c) := by
  rw [resetSlot, Engine.setSlot_slots, freeTones_slots]

theorem resetSlot_waves (c : Cfg) (islot : Nat) (e : Engine) : (resetSlot c islot e).waves = e.waves := by
  rw [resetSlot, Engine.setSlot_waves, freeTones_waves]

theorem replaceSlot_settles (c : Cfg) (islot : Nat) (e : Engine) :
    e.Settles c (fun _ i => i == islot) (fun u => u == islot) (replaceSlot c islot e) where
  tones := resetSlot_tones c islot e
  slots := by
    refine (resetSlot_slots c islot e).trans (List.ext_getElem? fun u => ?_)
    rw [List.getElem?_set', List.getElem?_mapIdx]
    by_cases same : islot = u
    · cases e.slots[u]? <;> simp [same]
    · simp [same, Ne.symm same]
  cleared k u hu hk := by
    rw [replaceSlot, findWave_invalidateWaves, if_pos ((beq_iff_eq.mp hu) ▸ hk)]
  kept k outside := by
    rw [replaceSlot, findWave_invalidateWaves, outside islot (beq_self_eq_true islot), resetSlot_waves]
    rfl

theorem replaceSlots_settles (c : Cfg) (song : Song) (ch : Nat) (e : Engine) :
    e.Settles c
      (fun _ i => (List.range song.instrumentsPerChannel).any (fun j => i == ch * song.instrumentsPerChannel + j))
      (fun u => (List.range song.instrumentsPerChannel).any (fun j => u == ch * song.instrumentsPerChannel + j))
      (replaceSlots c song ch e) :=
  .foldl (fun e j => replaceSlot_settles c (ch * song.instrumentsPerChannel + j) e) _ e

/-- The slots of the first `n` channels are the first `n × m` (R104). -/
theorem any_channel_slot_iff (n m u : Nat) :
    ((List.range n).any fun ch => (List.range m).any fun j => u == ch * m + j) = true ↔ u < n * m := by
  simp only [List.any_eq_true, List.mem_range, beq_iff_eq]
  constructor
  · rintro ⟨ch, hch, j, hj, rfl⟩
    calc ch * m + j < ch * m + m := Nat.add_lt_add_left hj _
      _ = (ch + 1) * m := (Nat.succ_mul ch m).symm
      _ ≤ n * m := Nat.mul_le_mul_right m hch
  · intro hu
    have hm : 0 < m := Nat.pos_of_ne_zero fun h => by simp [h] at hu
    exact ⟨u / m, Nat.div_lt_of_lt_mul (by rwa [Nat.mul_comm]), u % m, Nat.mod_lt u hm, (Nat.div_add_mod' u m).symm⟩

theorem any_or {α : Type} (l : List α) (p q : α → Bool) : (l.any fun a => p a || q a) = (l.any p || l.any q) := by
  rw [Bool.eq_iff_iff]
  simp [and_or_left, exists_or]

theorem settleChannels_settles (c : Cfg) (song : Song) (e : Engine) :
    e.Settles c (fun d i => decide (d < song.channelCount ∨ i < song.slotCount)) (fun u => decide (u < song.slotCount))
      (settleChannels c song e) := by
  have all := Engine.Settles.foldl
    (fun e ch => (freeChannelTones_settles c ch e).trans (replaceSlots_settles c song ch (freeChannelTones ch e)))
    (List.range song.channelCount) e
  have slot (u : Nat) := any_channel_slot_iff song.channelCount song.instrumentsPerChannel u
  have hp : (fun d i => (List.range song.channelCount).any fun ch => d == ch ||
      (List.range song.instrumentsPerChannel).any fun j => i == ch * song.instrumentsPerChannel + j) =
        fun d i => decide (d < song.channelCount ∨ i < song.slotCount) := by
    funext d i
    rw [Bool.eq_iff_iff, decide_eq_true_iff, any_or, Bool.or_eq_true, slot]
    simp [Song.slotCount, Song.channelCount]
  have hq : (fun u => (List.range song.channelCount).any fun ch => false ||
      (List.range song.instrumentsPerChannel).any fun j => u == ch * song.instrumentsPerChannel + j) =
        fun u => decide (u < song.slotCount) := by
    funext u
    rw [Bool.eq_iff_iff, decide_eq_true_iff]
    exact slot u
  exact hp ▸ hq ▸ all

/-! Lists behind a count field (R381). -/

theorem resizeList_length {α : Type} (n : Nat) (l : List α) (fresh : Nat → α) : (resizeList n l fresh).length = n := by
  simp only [resizeList, List.length_append, List.length_take, List.length_map, List.length_range]
  omega

/-- An entry that stays keeps its contents. -/
theorem resizeList_get {α : Type} {n j : Nat} {l : List α} (fresh : Nat → α) (hn : j < n) (hl : j < l.length) :
    (resizeList n l fresh)[j]? = l[j]? := by
  rw [resizeList, List.getElem?_append_left (by rw [List.length_take]; omega), List.getElem?_take_of_lt hn]

/-- The channels of one kind at a new count, each with its lists at the song's counts; `d` are the default ones. -/
def fitChannels (s : Song) (d l : List Channel) (n : Nat) : List Channel :=
  (resizeList n l (fun j => d.getD j blankChannel)).mapIdx (fun j ch => resizeChannel s (d.getD j blankChannel) ch)

theorem resizeCounts_channels (dflt before after : Song) : (resizeCounts dflt before after).channels =
    fitChannels after (dflt.channels.take dflt.pitchChannelCount) (before.channels.take before.pitchChannelCount)
        after.pitchChannelCount ++
      fitChannels after (dflt.channels.drop dflt.pitchChannelCount) (before.channels.drop before.pitchChannelCount)
        after.noiseChannelCount := rfl

section
variable (s : Song) (d l : List Channel) (n : Nat)

theorem fitChannels_length : (fitChannels s d l n).length = n := by
  rw [fitChannels, List.length_mapIdx, resizeList_length]

theorem fitChannels_counts {ch : Channel} (h : ch ∈ fitChannels s d l n) : ch.bars.length = s.barCount ∧
    ch.patterns.length = s.patternsPerChannel ∧ ch.instruments.length = s.instrumentsPerChannel := by
  obtain ⟨j, hj, rfl⟩ := List.mem_mapIdx.mp h
  simp only [resizeChannel, resizeList_length, and_self]

theorem fitChannels_get {j : Nat} {ch : Channel} (hj : j < n) (hch : l[j]? = some ch) :
    (fitChannels s d l n)[j]? = some (resizeChannel s (d.getD j blankChannel) ch) := by
  rw [fitChannels, List.getElem?_mapIdx, resizeList_get _ hj (List.getElem?_eq_some_iff.mp hch).1, hch]
  rfl

end

/-- A channel that stays is resized in its place among the channels of its kind. -/
theorem resizeCounts_get (dflt : Song) {before after : Song} {n m : Nat} {ch : Channel}
    (hch : before.channels[n]? = some ch)
    (place : (n < before.pitchChannelCount ∧ n < after.pitchChannelCount ∧ m = n) ∨
      (before.pitchChannelCount ≤ n ∧ n - before.pitchChannelCount < after.noiseChannelCount ∧
        m = after.pitchChannelCount + (n - before.pitchChannelCount))) :
    ∃ d, (resizeCounts dflt before after).channels[m]? = some (resizeChannel after d ch) := by
  rw [resizeCounts_channels]
  obtain ⟨pitch, stays, rfl⟩ | ⟨noise, stays, rfl⟩ := place
  · rw [List.getElem?_append_left (by rwa [fitChannels_length])]
    exact ⟨_, fitChannels_get _ _ _ _ stays (by rwa [List.getElem?_take_of_lt pitch])⟩
  · rw [List.getElem?_append_right (by rw [fitChannels_length]; omega), fitChannels_length, Nat.add_sub_cancel_left]
    exact ⟨_, fitChannels_get _ _ _ _ stays (by rwa [List.getElem?_drop, Nat.add_sub_cancel' noise])⟩

/-- The lists of a resized channel. -/
theorem resizeChannel_lists (s : Song) (d ch : Channel) :
    (resizeChannel s d ch).instruments = resizeList s.instrumentsPerChannel ch.instruments
      (fun j => d.instruments.getD j (d.instruments.headD blankInstrument)) ∧
    (resizeChannel s d ch).patterns =
      resizeList s.patternsPerChannel ch.patterns (fun j => d.patterns.getD j blankPattern) ∧
    (resizeChannel s d ch).bars = resizeList s.barCount ch.bars (fun j => d.bars.getD j 0) := ⟨rfl, rfl, rfl⟩

/-- The entries of a channel's lists that stay. -/
theorem resizeChannel_keeps (s : Song) (d ch : Channel) :
    (∀ j, j < s.instrumentsPerChannel → j < ch.instruments.length →
      (resizeChannel s d ch).instruments[j]? = ch.instruments[j]?) ∧
    (∀ j, j < s.patternsPerChannel → j < ch.patterns.length → (resizeChannel s d ch).patterns[j]? = ch.patterns[j]?) ∧
    (∀ j, j < s.barCount → j < ch.bars.length → (resizeChannel s d ch).bars[j]? = ch.bars[j]?) := by
  obtain ⟨instruments, patterns, bars⟩ := resizeChannel_lists s d ch
  rw [instruments, patterns, bars]
  exact ⟨fun _ => resizeList_get _, fun _ => resizeList_get _, fun _ => resizeList_get _⟩

end Sys2Proof.Machine
end

section
set_option Elab.async false
/-! PROOFS. `SONG.SET`: edits that are accepted, edits that are refused, and what each changes (`47_system.md` R381,
`20_memory.md` R86, R87). -/

namespace Sys2Proof.Machine

/-! How `SONG.SET` ends (R381). -/

/-- The state behind a refused edit: the payload taken, and `BadConfig`. -/
def State.refusedEdit (s : State) (rest : List Payload) : State :=
  { s with payload := rest }.withFault 3#8 (headerInfo (Instr.header .songSet))

section
variable {s : State} {rest : List Payload} {ed : SongEdit} {song : Song}

theorem raise_badConfig (clear : s.fault = false) :
    raise ⟨.badConfig, commandInfo .songSet⟩ { s with payload := rest } = s.refusedEdit rest :=
  raise_eq_withFault (s := { s with payload := rest }) clear _

theorem exec_songSet_accepted (clear : s.fault = false) (payload : s.payload = .edit ed :: rest)
    (edited : editSong Config.cfg.initialSong s.song ed = some song) (accepted : songAccepted Config.cfg song = true) :
    exec .songSet s = .next (installEdit Config.cfg song ed { s with payload := rest }) := by
  show Host.Outcome.next (songSetWith (s.ctx Config.cfg .songSet) s) = _
  simp [songSetWith, clear, payload, State.ctx, edited, accepted]

theorem exec_songSet_refused (clear : s.fault = false) (payload : s.payload = .edit ed :: rest)
    (edited : editSong Config.cfg.initialSong s.song ed = some song) (refused : songAccepted Config.cfg song = false) :
    exec .songSet s = .next (s.refusedEdit rest) := by
  rw [← raise_badConfig clear]
  show Host.Outcome.next (songSetWith (s.ctx Config.cfg .songSet) s) = _
  simp [songSetWith, clear, payload, State.ctx, edited, refused]

theorem exec_songSet_noElement (clear : s.fault = false) (payload : s.payload = .edit ed :: rest)
    (missing : editSong Config.cfg.initialSong s.song ed = none) : exec .songSet s = .next (s.refusedEdit rest) := by
  rw [← raise_badConfig clear]
  show Host.Outcome.next (songSetWith (s.ctx Config.cfg .songSet) s) = _
  simp [songSetWith, clear, payload, State.ctx, missing]

theorem exec_songSet_noEdit (clear : s.fault = false) (payload : s.payload = .song song :: rest) :
    exec .songSet s = .next (s.refusedEdit rest) := by
  rw [← raise_badConfig clear]
  show Host.Outcome.next (songSetWith (s.ctx Config.cfg .songSet) s) = _
  simp [songSetWith, clear, payload, State.ctx]

/-- `SONG.SET` of an edit makes `song` the song and leaves an engine of which `good` holds, or refuses it. -/
def State.Sets (s : State) (rest : List Payload) (ed : SongEdit) (song : Song) (good : Engine → Prop) : Prop :=
  s.payload = .edit ed :: rest → ∃ t, exec .songSet s = .next t ∧
    (songAccepted Config.cfg song = true → t = { s with song := song, payload := rest, eng := t.eng } ∧ good t.eng) ∧
    (songAccepted Config.cfg song = false → t = s.refusedEdit rest)

theorem State.Sets.of_edit {good : Engine → Prop} (clear : s.fault = false)
    (edited : editSong Config.cfg.initialSong s.song ed = some song)
    (settled : good (installEdit Config.cfg song ed { s with payload := rest }).eng) : s.Sets rest ed song good := by
  intro payload
  cases accepted : songAccepted Config.cfg song with
  | true =>
    exact ⟨_, exec_songSet_accepted clear payload edited accepted,
      fun _ => ⟨installEdit_frame Config.cfg song ed { s with payload := rest }, settled⟩, fun (h : true = false) => nomatch h⟩
  | false =>
    refine ⟨_, exec_songSet_refused clear payload edited accepted, ?_, fun _ => rfl⟩
    exact fun (h : false = true) => nomatch h

end

/-! Count fields restart as a load does (R380, R381). -/

theorem installEdit_of_resizes (c : Cfg) (v : Song) {ed : SongEdit} (s : State) (h : resizes ed = true) :
    installEdit c v ed s = installSong c v s := by
  cases ed with
  | beatsPerBar | barCount | patternsPerChannel | instrumentsPerChannel | pitchChannelCount | noiseChannelCount => rfl
  | _ => nomatch h

theorem findWave_invalidateAll (l : List WaveEntry) (k : WaveKey) :
    findWave (invalidateWaves l fun _ => true) k = none := by
  rw [findWave_invalidateWaves, if_pos rfl]

/-- What a load of a song leaves of the engine. -/
theorem installSong_restarted (s : State) (v : Song) (rest : List Payload) :
    s.restarted v (installSong Config.cfg v { s with payload := rest }).eng where
  rest := rfl
  free _ ha := List.eq_of_mem_replicate ha ▸ rfl
  active := rfl
  released := rfl
  slots := rfl
  waves := findWave_invalidateAll _
  start := ⟨rfl, rfl, rfl, rfl⟩
  playing h := ⟨h, if_pos h⟩
  paused h := h

/-! Edits by their path (R381). -/

theorem editAt_of_lt {α : Type} {l : List α} {i : Nat} (h : i < l.length) (v : α) :
    editAt l i (fun _ => some v) = some (l.set i v) := by
  simp [editAt, h]

theorem editAt_of_some {α : Type} {l : List α} {i : Nat} {a b : α} {f : α → Option α} (ha : l[i]? = some a)
    (hf : f a = some b) : editAt l i f = some (l.set i b) := by
  simp [editAt, ha, hf]

theorem editAt_of_le {α : Type} {l : List α} {i : Nat} (h : l.length ≤ i) (f : α → Option α) : editAt l i f = none := by
  simp [editAt, h]

section
variable {dflt song : Song} {n : Nat} {ch ch' : Channel} {ed : ChannelEdit}

theorem editSong_channel (hch : song.channels[n]? = some ch) (edited : editChannel ch ed = some ch') :
    editSong dflt song (.channel n ed) = some { song with channels := song.channels.set n ch' } := by
  rw [editSong, editAt_of_some hch edited]
  rfl

theorem editSong_noChannel (outside : song.channels.length ≤ n) : editSong dflt song (.channel n ed) = none := by
  rw [editSong, editAt_of_le outside]
  rfl

theorem editSong_noElement (hch : song.channels[n]? = some ch) (missing : editChannel ch ed = none) :
    editSong dflt song (.channel n ed) = none := by
  simp [editSong, editAt, hch, missing]

theorem editChannel_bar {i : Nat} (h : i < ch.bars.length) (v : Nat) :
    editChannel ch (.bar i v) = some { ch with bars := ch.bars.set i v } := by
  rw [editChannel, editAt_of_lt h]
  rfl

theorem editChannel_pattern {i : Nat} (h : i < ch.patterns.length) (v : Pattern) :
    editChannel ch (.pattern i v) = some { ch with patterns := ch.patterns.set i v } := by
  rw [editChannel, editAt_of_lt h]
  rfl

theorem editChannel_instrumentField {i : Nat} {ins ins' : Instrument} {e : InstrumentEdit}
    (hins : ch.instruments[i]? = some ins) (edited : editInstrument ins e = some ins') :
    editChannel ch (.instrumentField i e) = some { ch with instruments := ch.instruments.set i ins' } := by
  rw [editChannel, editAt_of_some hins edited]
  rfl

/-- A path to a bar, a pattern or an instrument that the channel has not. -/
theorem editChannel_noElement {i : Nat}
    (h : (∃ v, ed = .bar i v ∧ ch.bars.length ≤ i) ∨
      ((∃ v, ed = .pattern i v) ∨ ∃ e, ed = .patternField i e) ∧ ch.patterns.length ≤ i ∨
      ((∃ v, ed = .instrument i v) ∨ ∃ e, ed = .instrumentField i e) ∧ ch.instruments.length ≤ i) :
    editChannel ch ed = none := by
  obtain ⟨v, rfl, hi⟩ | ⟨⟨v, rfl⟩ | ⟨e, rfl⟩, hi⟩ | ⟨⟨v, rfl⟩ | ⟨e, rfl⟩, hi⟩ := h <;>
    rw [editChannel, editAt_of_le hi] <;> rfl

end

/-! What an edit of a channel leaves of the engine (R86, R87). -/

/-- The flags of the waves that `P` names fall; nothing else changes. -/
def Engine.ClearsWaves (e : Engine) (P : WaveKey → Prop) (e' : Engine) : Prop :=
  e' = { e with waves := e'.waves } ∧
    ∀ k, (P k → findWave e'.waves k = none) ∧ (¬ P k → findWave e'.waves k = findWave e.waves k)

theorem invalidateWaves_clearsWaves (e : Engine) (key : WaveKey) :
    e.ClearsWaves (fun k => k = key) { e with waves := invalidateWaves e.waves (· == key) } := by
  refine ⟨rfl, fun k => ⟨fun same => ?_, fun other => ?_⟩⟩
  · rw [findWave_invalidateWaves, if_pos (beq_iff_eq.mpr same)]
  · rw [findWave_invalidateWaves, if_neg (mt beq_iff_eq.mp other)]

theorem freeChannelTones_frees (n : Nat) (e : Engine) : e.Frees (fun a => a.channel = n) (freeChannelTones n e) :=
  .of_tones (freeTones_tones (fun d _ => d == n) e) fun _ => beq_iff_eq

theorem resetSlot_frees (c : Cfg) (islot : Nat) (e : Engine) :
    e.Frees (fun a => a.instrument = islot) (resetSlot c islot e) :=
  .of_tones (resetSlot_tones c islot e) fun _ => beq_iff_eq

/-- A reset slot: its tones freed, its record at the reset state, the rest as before. -/
theorem resetSlot_frame (c : Cfg) (islot : Nat) (e : Engine) : resetSlot c islot e = { e with
    tones := (resetSlot c islot e).tones, activeTones := (resetSlot c islot e).activeTones
    releasedTones := (resetSlot c islot e).releasedTones, slots := e.slots.set islot (Slot.zero c) } := by
  have frame : resetSlot c islot e = { freeTones (fun t => t.instrument == islot) e with
      slots := (resetSlot c islot e).slots } := rfl
  rw [resetSlot_slots, freeTones_frame] at frame
  exact frame

/-- A new list of channels (assumption 34). -/
theorem settleChannels_frees (c : Cfg) (song : Song) (e : Engine) :
    e.Frees (fun a => a.channel < song.channelCount ∨ a.instrument < song.slotCount) (settleChannels c song e) :=
  .of_tones (settleChannels_settles c song e).tones fun _ => decide_eq_true_iff

theorem settleChannels_slots (c : Cfg) (song : Song) (e : Engine) : (settleChannels c song e).slots =
    e.slots.mapIdx (fun u i => if u < song.slotCount then Slot.zero c else i) := by
  simpa using (settleChannels_settles c song e).slots

theorem settleChannels_waves (c : Cfg) (song : Song) (e : Engine) (k : WaveKey) :
    ((∃ u, u < song.slotCount ∧ slotWave u k = true) → findWave (settleChannels c song e).waves k = none) ∧
      ((∀ u, u < song.slotCount → slotWave u k = false) →
        findWave (settleChannels c song e).waves k = findWave e.waves k) := by
  obtain ⟨-, -, cleared, kept⟩ := settleChannels_settles c song e
  exact ⟨fun ⟨u, hu, hk⟩ => cleared k u (decide_eq_true hu) hk,
    fun outside => kept k fun u hu => outside u (of_decide_eq_true hu)⟩

end Sys2Proof.Machine

namespace Sys2Proof.Proofs

open Sys2Proof.Machine

/-- Settles O25: each edit by the song that its path gives and by what its coherence leaves of the engine. -/
theorem songSet : Obligations.SongSet := by
  intro s rest clear c badConfig sets frees queues
  have accepts {ed : SongEdit} {song : Song} {good : Engine → Prop}
      (edited : editSong Config.cfg.initialSong s.song ed = some song)
      (settled : good (installEdit Config.cfg song ed { s with payload := rest }).eng) : sets ed song good :=
    State.Sets.of_edit (good := good) clear edited settled
  clear_value sets
  refine ⟨fun v ed song named => ?setting, fun v ed song named => ?count, fun l => ?channels, fun n i ch hch =>
    ⟨fun v hi => ?bar, fun v hi => ?pattern, fun ins hins => ⟨fun v => ?kind, fun v => ?volume, fun p v hp => ?spectrum,
      fun p v hp => ?harmonics, fun d v hd => ?drum⟩⟩,
    fun n ed outside payload => exec_songSet_noElement clear payload (editSong_noChannel outside),
    fun n i ch ed hch missing payload =>
      exec_songSet_noElement clear payload (editSong_noElement hch (editChannel_noElement missing)),
    fun v payload => exec_songSet_noEdit clear payload⟩
  case setting =>
    simp only [List.mem_cons, Prod.mk.injEq, List.not_mem_nil, or_false] at named
    obtain ⟨rfl, rfl⟩ | ⟨rfl, rfl⟩ | ⟨rfl, rfl⟩ | ⟨rfl, rfl⟩ | ⟨rfl, rfl⟩ | ⟨rfl, rfl⟩ := named <;>
      exact accepts rfl rfl
  case count =>
    have counts : resizes ed = true ∧
        editSong Config.cfg.initialSong s.song ed = some (resizeCounts Config.cfg.initialSong s.song song) := by
      simp only [List.mem_cons, Prod.mk.injEq, List.not_mem_nil, or_false] at named
      obtain ⟨rfl, rfl⟩ | ⟨rfl, rfl⟩ | ⟨rfl, rfl⟩ | ⟨rfl, rfl⟩ | ⟨rfl, rfl⟩ | ⟨rfl, rfl⟩ := named <;> exact ⟨rfl, rfl⟩
    obtain ⟨counted, edited⟩ := counts
    refine ⟨rfl, ?_, fun ch hch => ?_, fun n m ch hch place => ?_, ?_⟩
    · rw [resizeCounts_channels, List.length_append, fitChannels_length, fitChannels_length]
    · rw [resizeCounts_channels] at hch
      obtain hch | hch := List.mem_append.mp hch <;> exact fitChannels_counts _ _ _ _ hch
    · obtain ⟨d, hd⟩ := resizeCounts_get Config.cfg.initialSong hch place
      exact ⟨_, hd, rfl, resizeChannel_keeps song d ch⟩
    · refine accepts edited ?_
      rw [installEdit_of_resizes _ _ _ counted]
      exact installSong_restarted s _ rest
  case channels =>
    refine accepts rfl ⟨Engine.eq_of_outsideSong (settleChannels_outsideSong ..), ?_⟩
    refine ⟨settleChannels_frees _ _ _, settleChannels_slots _ _ _, ?_⟩
    exact settleChannels_waves Config.cfg { s.song with channels := l } s.eng
  case bar =>
    exact accepts (editSong_channel hch (editChannel_bar hi v))
      ⟨freeTones_frame .., freeChannelTones_frees n s.eng⟩
  case pattern =>
    exact accepts (editSong_channel hch (editChannel_pattern hi v))
      ⟨freeTones_frame .., freeChannelTones_frees n s.eng⟩
  case kind =>
    exact accepts (editSong_channel hch (editChannel_instrumentField hins rfl))
      ⟨resetSlot_frame .., resetSlot_frees _ _ _⟩
  case volume => exact accepts (editSong_channel hch (editChannel_instrumentField hins rfl)) rfl
  case spectrum =>
    refine accepts (editSong_channel hch (editChannel_instrumentField hins ?_))
      (invalidateWaves_clearsWaves s.eng _)
    rw [editInstrument, editAt_of_lt hp]
    rfl
  case harmonics =>
    refine accepts (editSong_channel hch (editChannel_instrumentField hins ?_))
      (invalidateWaves_clearsWaves s.eng _)
    rw [editInstrument, editAt_of_lt hp]
    rfl
  case drum =>
    refine accepts (editSong_channel hch (editChannel_instrumentField hins ?_))
      (invalidateWaves_clearsWaves s.eng _)
    rw [editInstrument, editAt_of_lt hd]
    rfl

end Sys2Proof.Proofs
end

section
set_option Elab.async false
/-! PROOFS. Decoding and encoding are each other's inverse (`30_encoding.md` R100 to R107, `49_song_codec.md` R412,
`60_exceptions.md` R454). -/

namespace Sys2Proof

/-! The tables read by instruction (R107, R412). -/

section
open Laws.Wire

/-- The laws of the encoding, of every instruction. -/
theorem wire_statement : ∀ i : Instr, Statement i
  | .reset => reset | .play => play | .pause => pause | .live => live | .run .. => run .. | .cfgw .. => cfgw ..
  | .cfgr .. => cfgr .. | .songLoad => songLoad | .songSet => songSet | .setr .. => setr .. | .rdr .. => rdr ..
  | .wrw .. => wrw .. | .rdw .. => rdw .. | .rdm .. => rdm .. | .sanitize => sanitize | .ifft .. => ifft ..
  | .waveSine => waveSine | .waveChip .. => waveChip .. | .waveNoise .. => waveNoise ..
  | .waveSpectrum .. => waveSpectrum .. | .waveHarmonics .. => waveHarmonics .. | .waveImpulse => waveImpulse
  | .waveInval => waveInval | .bqLoadgrad .. => bqLoadgrad .. | .bqStep .. => bqStep .. | .coefLp1 .. => coefLp1 ..
  | .coefHp1 .. => coefHp1 .. | .coefLp2 .. => coefLp2 .. | .coefHp2 .. => coefHp2 .. | .coefPeak .. => coefPeak ..
  | .coefHshelf1 .. => coefHshelf1 .. | .coefAp1 .. => coefAp1 .. | .coefFdap .. => coefFdap ..
  | .fptHz .. => fptHz .. | .fptGain .. => fptGain .. | .volcomp .. => volcomp .. | .envSteady .. => envSteady ..
  | .envCustom .. => envCustom .. | .envTwang .. => envTwang .. | .envSwell .. => envSwell ..
  | .envTremolo .. => envTremolo .. | .envTremolo2 .. => envTremolo2 .. | .envPunch .. => envPunch ..
  | .envFlare .. => envFlare .. | .envDecay .. => envDecay .. | .lfo .. => lfo .. | .expr .. => expr ..
  | .relscale .. => relscale .. | .vibRamp .. => vibRamp .. | .pitchHz .. => pitchHz .. | .toneNew .. => toneNew ..
  | .toneCompute .. => toneCompute .. | .toneRelease .. => toneRelease .. | .toneFree .. => toneFree ..
  | .arpIndex .. => arpIndex .. | .synChip .. => synChip .. | .synFm .. => synFm .. | .synNoise .. => synNoise ..
  | .synSpectrum .. => synSpectrum .. | .synDrumset .. => synDrumset .. | .synHarmonics .. => synHarmonics ..
  | .synPwm .. => synPwm .. | .synGuitar .. => synGuitar .. | .gtrPluck .. => gtrPluck ..
  | .fxDistort .. => fxDistort .. | .fxBitcrush .. => fxBitcrush .. | .fxFilter .. => fxFilter ..
  | .fxPan .. => fxPan .. | .fxChorus .. => fxChorus .. | .fxReverb .. => fxReverb .. | .fxRun .. => fxRun ..
  | .fxTail .. => fxTail .. | .limit .. => limit .. | .clkAdv .. => clkAdv .. | .tickEnd => tickEnd
  | .partEnd => partEnd | .barNext => barNext | .syncTones .. => syncTones .. | .tagBeatsPerBar => tagBeatsPerBar
  | .tagBars => tagBars | .tagVibrato => tagVibrato | .tagTransition => tagTransition | .tagLoopEnd => tagLoopEnd
  | .tagFilter => tagFilter | .tagBarCount => tagBarCount | .tagInterval => tagInterval
  | .tagInstrumentCount => tagInstrumentCount | .tagPatternCount => tagPatternCount | .tagKey => tagKey
  | .tagLoopStart => tagLoopStart | .tagReverb => tagReverb | .tagChannelCount => tagChannelCount
  | .tagChannelOctave => tagChannelOctave | .tagPatterns => tagPatterns | .tagEffects => tagEffects
  | .tagRhythm => tagRhythm | .tagScale => tagScale | .tagTempo => tagTempo | .tagPreset => tagPreset
  | .tagVolume => tagVolume | .tagWave => tagWave | .tagFilterResonance => tagFilterResonance
  | .tagFilterEnvelope => tagFilterEnvelope | .tagAlgorithm => tagAlgorithm
  | .tagFeedbackAmplitude => tagFeedbackAmplitude | .tagChord => tagChord | .tagDistortion => tagDistortion
  | .tagOperatorEnvelopes => tagOperatorEnvelopes | .tagFeedbackType => tagFeedbackType
  | .tagDistortionFilter => tagDistortionFilter | .tagHarmonics => tagHarmonics | .tagPan => tagPan
  | .tagOperatorAmplitudes => tagOperatorAmplitudes | .tagOperatorFrequencies => tagOperatorFrequencies
  | .tagBitcrusher => tagBitcrusher | .tagSpectrum => tagSpectrum | .tagStartInstrument => tagStartInstrument
  | .tagSustain => tagSustain | .tagFeedbackEnvelope => tagFeedbackEnvelope | .tagPulseWidth => tagPulseWidth

end

/-- Every instruction is a command or a tag. -/
theorem opcode_or_tagCode (i : Instr) : (i.opcode.isSome || i.tagCode.isSome) = true := by
  cases i <;> rfl

theorem opcode_of_command {i : Instr} (command : i.tagCode = none) : ∃ op, i.opcode = some op := by
  have named := opcode_or_tagCode i
  rw [command, Option.isSome_none, Bool.or_false] at named
  exact Option.isSome_iff_exists.mp named

/-- A tag's character is the one that the decoder reads the tag from. -/
theorem tagCode_of_decodeTag {ch : Byte} {i : Instr} (read : decodeTag ch = some i) : i.tagCode = some ch.toNat := by
  unfold decodeTag at read
  split at read
  case h_43 => cases read
  all_goals cases read; simp only [Instr.tagCode, *]

/-- A header's byte fields hold what the opcode map puts there (R101, R107). -/
theorem opcodeShape_bounds {op used count : Nat} (shape : opcodeShape op = some (used, count)) :
    op < 256 ∧ count < 256 := by
  unfold opcodeShape at shape
  split at shape
  case h_79 => cases shape
  all_goals cases shape; decide

theorem selector_lt {i : Instr} (fit : i.selectorsFit = true) (k : Nat) : i.selectors.getD k 0 < 256 := by
  by_cases inside : k < i.selectors.length
  · rw [List.getD_eq_getElem _ _ inside]
    exact of_decide_eq_true (List.all_eq_true.mp fit _ (List.getElem_mem inside))
  · rw [List.getD_eq_default _ _ (Nat.le_of_not_lt inside)]
    decide

/-! From an instruction to its words. -/

/-- The opcode's row of the builder, on the selectors and the operand words of an instruction, gives the instruction
back. The words of kind `F` operands are their patterns; a kind `I` operand is below `2 ^ 64`, so its word holds it. -/
theorem buildCommand_of_operands {i : Instr} {op : Nat} (fit : i.operandsFit = true) (named : i.opcode = some op)
    (rest : List Word) :
    buildCommand op (i.selectors.getD 0 0) (i.selectors.getD 1 0) (i.selectors.getD 2 0)
      (fun k => (i.operandWords ++ rest).getD k 0#64) = some i := by
  have whole : ∀ n ∈ i.indexOperands, (BitVec.ofNat 64 n).toNat = n := fun n hn =>
    Nat.mod_eq_of_lt (of_decide_eq_true (List.all_eq_true.mp fit n hn))
  cases i with
  | run | wrw | rdw | rdm | ifft | fptHz | fptGain | volcomp | toneCompute | arpIndex | synChip | synFm | synNoise
  | synSpectrum | synDrumset | synHarmonics | synPwm | synGuitar | fxRun | clkAdv =>
    cases named
    simpa [buildCommand, Instr.selectors, Instr.operandWords, Instr.indexOperands] using whole
  | _ => cases named <;> rfl

/-- A command's header passes the checks of R454 and names the command's opcode, selectors and count. -/
theorem header_fields {i : Instr} {op : Nat} (fit : i.selectorsFit = true) (named : i.opcode = some op) :
    headerOp i.header = op ∧ headerU i.header = i.selectors.getD 0 0 ∧ headerV i.header = i.selectors.getD 1 0 ∧
      headerW i.header = i.selectors.getD 2 0 ∧ headerCount i.header = i.operandWords.length ∧
      headerZero i.header = 0 := by
  obtain ⟨hop, hcount⟩ := opcodeShape_bounds ((wire_statement i).1 op named)
  rw [Instr.header, named]
  exact headerWord_fields hop (selector_lt fit 0) (selector_lt fit 1) (selector_lt fit 2) hcount

theorem checkHeader_header {i : Instr} {op : Nat} (fit : i.selectorsFit = true) (named : i.opcode = some op) :
    checkHeader i.header = .ok (i.selectors.length, i.operandWords.length) := by
  obtain ⟨hop, hu, hv, hw, hcount, hzero⟩ := header_fields fit named
  have unused (k : Nat) (h : i.selectors.length < k + 1) : i.selectors.getD k 0 = 0 :=
    List.getD_eq_default _ _ (Nat.le_of_lt_succ h)
  refine checkHeader_ok ?_ hcount hzero ?_ ?_ ?_
  · rw [hop]; exact (wire_statement i).1 op named
  · rw [hu]; exact unused 0
  · rw [hv]; exact unused 1
  · rw [hw]; exact unused 2

theorem encode_of_command {i : Instr} (command : i.tagCode = none) : encode i = i.header :: i.operandWords := by
  rw [encode, command]

/-- The decoder takes an encoded command and leaves the words behind it. -/
theorem decodeCommand_encode {i : Instr} (fit : i.WellFormed) (command : i.tagCode = none) (rest : List Word) :
    decodeCommand (encode i ++ rest) = .ok (i, rest) := by
  obtain ⟨op, named⟩ := opcode_of_command command
  obtain ⟨hop, hu, hv, hw, hcount, -⟩ := header_fields fit.1 named
  rw [encode_of_command command]
  refine decodeCommand_of_header hcount (checkHeader_header fit.1 named) ?_
  rw [hop, hu, hv, hw]
  exact buildCommand_of_operands fit.2 named rest

/-! From words to the instruction that they encode. -/

/-- What the decoder has taken a command from: the opcode, the selectors, the operand words `x 0`, `x 1`, …, and the
numbers of selectors and words that the opcode map names. -/
structure Instr.ReadFrom (i : Instr) (op u v w : Nat) (x : Nat → Word) (used count : Nat) : Prop where
  opcode : i.opcode = some op
  command : i.tagCode = none
  selectors : i.selectors = [u, v, w].take used
  operandWords : i.operandWords = (List.range count).map x
  operandsFit : i.operandsFit = true

/-- Each row of the builder takes the selectors and the words that the opcode map names, in their order. -/
theorem readFrom_of_buildCommand {op u v w used count : Nat} {x : Nat → Word} {i : Instr}
    (shape : opcodeShape op = some (used, count)) (built : buildCommand op u v w x = some i) :
    i.ReadFrom op u v w x used count := by
  have fits (k : Nat) : (x k).toNat < 2 ^ 64 := (x k).isLt
  unfold buildCommand at built
  split at built
  case h_79 => cases built
  all_goals
    cases built
    cases shape
    exact {
      opcode := rfl
      command := rfl
      selectors := rfl
      operandWords := by simp [Instr.operandWords, List.range_succ, coefWords, coefOperand]
      operandsFit := by
        simp only [Instr.operandsFit, Instr.indexOperands, List.all_cons, List.all_nil, fits, decide_true,
          Bool.and_true] }

/-- The checks of R454, read off a header that passes them. -/
theorem checkHeader_inv {h : Word} {used count : Nat} (ok : checkHeader h = .ok (used, count)) :
    opcodeShape (headerOp h) = some (used, count) ∧ headerCount h = count ∧ headerZero h = 0 ∧
      (used < 1 → headerU h = 0) ∧ (used < 2 → headerV h = 0) ∧ (used < 3 → headerW h = 0) := by
  unfold checkHeader at ok
  split at ok
  · cases ok
  · rename_i shape
    split_ifs at ok with hcount hzero hselectors
    cases ok
    simp only [Bool.or_eq_true, Bool.and_eq_true, decide_eq_true_eq, bne_iff_ne, not_or, not_and, not_not]
      at hselectors
    obtain ⟨⟨hu, hv⟩, hw⟩ := hselectors
    exact ⟨shape, not_not.mp hcount, not_not.mp hzero, hu, hv, hw⟩

/-- What the decoder did where it answered a command. -/
theorem decodeCommand_inv {words rest : List Word} {i : Instr} (read : decodeCommand words = .ok (i, rest)) :
    ∃ h tail p, words = h :: tail ∧ headerCount h ≤ tail.length ∧ checkHeader h = .ok p ∧
      buildCommand (headerOp h) (headerU h) (headerV h) (headerW h) (fun k => tail.getD k 0#64) = some i ∧
      rest = tail.drop (headerCount h) := by
  cases words with
  | nil => cases read
  | cons h tail =>
    dsimp only [decodeCommand] at read
    split_ifs at read with short
    split at read
    · cases read
    · rename_i p ok
      split at read
      · cases read
      · rename_i built
        cases read
        exact ⟨h, tail, p, rfl, Nat.le_of_not_lt short, ok, built, rfl⟩

/-- A header that passes the checks is the header of the command read from it. -/
theorem header_of_readFrom {i : Instr} {h : Word} {x : Nat → Word} {used count : Nat}
    (ok : checkHeader h = .ok (used, count))
    (read : i.ReadFrom (headerOp h) (headerU h) (headerV h) (headerW h) x used count) : i.header = h := by
  obtain ⟨-, hcount, hzero, hu, hv, hw⟩ := checkHeader_inv ok
  have selectors : i.selectors.getD 0 0 = headerU h ∧ i.selectors.getD 1 0 = headerV h ∧
      i.selectors.getD 2 0 = headerW h := by
    rw [read.selectors]
    match used with
    | 0 => exact ⟨(hu (by decide)).symm, (hv (by decide)).symm, (hw (by decide)).symm⟩
    | 1 => exact ⟨rfl, (hv (by decide)).symm, (hw (by decide)).symm⟩
    | 2 => exact ⟨rfl, rfl, (hw (by decide)).symm⟩
    | n + 3 => simp
  obtain ⟨su, sv, sw⟩ := selectors
  rw [Instr.header, read.opcode, su, sv, sw, read.operandWords, List.length_map, List.length_range, ← hcount]
  exact (word_of_fields h hzero).symm

theorem selectorsFit_of_readFrom {i : Instr} {h : Word} {op used count : Nat} {x : Nat → Word}
    (read : i.ReadFrom op (headerU h) (headerV h) (headerW h) x used count) : i.selectorsFit = true := by
  have byte (lo : Nat) : wordField h lo 8 < 2 ^ 8 := Nat.mod_lt _ (by decide)
  refine List.all_eq_true.mpr fun n hn => decide_eq_true ?_
  rw [read.selectors] at hn
  have named := List.mem_of_mem_take hn
  simp only [List.mem_cons, List.not_mem_nil, or_false] at named
  obtain rfl | rfl | rfl := named
  exacts [byte 48, byte 40, byte 32]

/-- Reading the first indices of a list gives what it begins with. -/
theorem map_getD_range {α : Type} (l : List α) (d : α) {n : Nat} (inside : n ≤ l.length) :
    (List.range n).map (fun k => l.getD k d) = l.take n := by
  refine List.ext_getElem (by simp [inside]) fun k _ hk => ?_
  rw [List.getElem_map, List.getElem_range, List.getElem_take]
  exact List.getD_eq_getElem _ _ (List.length_take_of_le inside ▸ hk |>.trans_le inside)

/-- Only the encoding of a well-formed command decodes to it. -/
theorem encode_of_decodeCommand {words rest : List Word} {i : Instr} (read : decodeCommand words = .ok (i, rest)) :
    i.WellFormed ∧ i.tagCode = none ∧ words = encode i ++ rest := by
  obtain ⟨h, tail, ⟨used, count⟩, rfl, whole, ok, built, rfl⟩ := decodeCommand_inv read
  obtain ⟨shape, hcount, -⟩ := checkHeader_inv ok
  have taken := readFrom_of_buildCommand shape built
  refine ⟨⟨selectorsFit_of_readFrom taken, taken.operandsFit⟩, taken.command, ?_⟩
  rw [hcount] at whole ⊢
  rw [encode_of_command taken.command, header_of_readFrom ok taken, taken.operandWords,
    map_getD_range tail _ whole, List.cons_append, List.take_append_drop]

end Sys2Proof

namespace Sys2Proof.Proofs

/-- Settles O1: a tag is read by the law of its character, a command by its header and the builder's row. -/
theorem decodeOfEncode : Obligations.DecodeOfEncode := fun i fit =>
  ⟨fun ch tag => ((wire_statement i).2 ch tag).2, decodeCommand_encode fit⟩

/-- Settles O2: the header is put together again from its fields, the operand words from the builder's row. -/
theorem encodeOfDecode : Obligations.EncodeOfDecode :=
  ⟨fun _ _ _ => encode_of_decodeCommand, fun _ _ => tagCode_of_decodeTag⟩

/-- Settles O3: the five commands by the words that encode them, the tag by its character. -/
theorem specWordsDecode : Obligations.SpecWordsDecode := by
  have reads (i : Instr) (fit : i.WellFormed) (command : i.tagCode = none) :
      decodeCommand (encode i) = .ok (i, []) := by
    simpa using decodeCommand_encode fit command []
  exact ⟨reads .reset (by decide) rfl, reads (.run 1024) (by decide) rfl, reads (.cfgw 7 3#64) (by decide) rfl,
    reads (.rdm 4 2 1 5) (by decide) rfl, reads (.synChip 3 32) (by decide) rfl, rfl⟩

end Sys2Proof.Proofs
end

section
set_option Elab.async false
/-! PROOFS. `BQ.LOADGRAD` and `BQ.STEP` in the four banks of R104 (`41_filter.md` R151, R152). -/

namespace Sys2Proof.Machine

/-! What a write of a biquad changes, bank by bank (R104). -/

section
variable {e : Engine} {v w : Nat} {t : Tone}

theorem setBiquad_toneFilter (ht : e.tones[v]? = some t) (g : Biquad) : e.setBiquad 0 v w g =
    { e with tones := e.tones.set v { t with filters := t.filters.set w g } } :=
  congrArg (fun l => { e with tones := l }) (modify_eq_set_of_some ht _)

theorem setBiquad_slotFilter {i : Slot} (hi : e.slots[v]? = some i) (g : Biquad) : e.setBiquad 1 v w g =
    { e with slots := e.slots.set v { i with fxFilters := i.fxFilters.set w g } } :=
  congrArg (fun l => { e with slots := l }) (modify_eq_set_of_some hi _)

/-- A tone whose string is changed, in an engine that has both. -/
theorem modify_modifyString {z : StringState} (ht : e.tones[v]? = some t) (hz : t.strings[w]? = some z)
    (f : StringState → StringState) :
    e.tones.modify v (fun t => t.modifyString w f) = e.tones.set v { t with strings := t.strings.set w (f z) } := by
  rw [modify_eq_set_of_some ht, Tone.modifyString, modify_eq_set_of_some hz]

theorem setBiquad_dispersion {z : StringState} (ht : e.tones[v]? = some t) (hz : t.strings[w]? = some z) (g : Biquad) :
    e.setBiquad 2 v w g =
      { e with tones := e.tones.set v { t with strings := t.strings.set w { z with dispersion := g } } } :=
  congrArg (fun l => { e with tones := l }) (modify_modifyString ht hz _)

theorem setBiquad_shelf {z : StringState} (ht : e.tones[v]? = some t) (hz : t.strings[w]? = some z) (g : Biquad) :
    e.setBiquad 3 v w g =
      { e with tones := e.tones.set v { t with strings := t.strings.set w { z with shelf := g } } } :=
  congrArg (fun l => { e with tones := l }) (modify_modifyString ht hz _)

end

/-! Selectors that name no biquad (R104). -/

theorem biquadAt_of_bank (e : Engine) {u : Nat} (v w : Nat) (beyond : 3 < u) : biquadAt e u v w = none := by
  match u, beyond with
  | _ + 4, _ => rfl

theorem biquadAt_of_tone {e : Engine} {v : Nat} (missing : e.tones[v]? = none) (w : Nat) {u : Nat}
    (bank : u = 0 ∨ u = 2 ∨ u = 3) : biquadAt e u v w = none := by
  obtain rfl | rfl | rfl := bank <;> simp [biquadAt, missing]

theorem biquadAt_of_slot {e : Engine} {v : Nat} (missing : e.slots[v]? = none) (w : Nat) : biquadAt e 1 v w = none := by
  simp [biquadAt, missing]

/-! How the two commands end. -/

section
variable {s : State} {u v w : Nat} {f : Biquad} (clear : s.fault = false)
include clear

theorem exec_bqLoadgrad (a b : CoefSet) (n : Num) (found : biquadAt s.eng u v w = some f) :
    exec (.bqLoadgrad u v w a b n) s = .next { s with eng := s.eng.setBiquad u v w (loadGradient f a b n) } := by
  show Host.Outcome.next (bqLoadgradWith _ s u v w a b n) = _
  rw [bqLoadgradWith, found]
  exact congrArg _ (onEngine_ok clear _)

theorem exec_bqStep (x : Num) (found : biquadAt s.eng u v w = some f) : exec (.bqStep u v w x) s =
    .next (answer { s with eng := s.eng.setBiquad u v w (biquadStep f x).2 } [biquadOutput f x]) := by
  show Host.Outcome.next (bqStepWith _ s u v w x) = _
  rw [bqStepWith, found]
  exact congrArg _ (command_ok clear _)

theorem exec_bqLoadgrad_of_none (a b : CoefSet) (n : Num) (missing : biquadAt s.eng u v w = none) :
    exec (.bqLoadgrad u v w a b n) s =
      .next (s.withFault 2#8 (headerInfo (Instr.header (.bqLoadgrad u v w a b n)))) := by
  show Host.Outcome.next (bqLoadgradWith _ s u v w a b n) = _
  rw [bqLoadgradWith, missing]
  exact congrArg _ (onEngine_error_eq clear _)

theorem exec_bqStep_of_none (x : Num) (missing : biquadAt s.eng u v w = none) :
    exec (.bqStep u v w x) s = .next (s.withFault 2#8 (headerInfo (Instr.header (.bqStep u v w x)))) := by
  show Host.Outcome.next (bqStepWith _ s u v w x) = _
  rw [bqStepWith, missing]
  exact congrArg _ ((command_error clear _).trans (raise_eq_withFault clear _))

end

/-- The register that a command with one result writes (R105). -/
theorem result_answer_one (s : State) (y : Num) :
    (answer s [y]).result 0 = some y ∧ ∀ k, k ≠ 0 → (answer s [y]).result k = s.result k :=
  ⟨setResults_at (i := 0) (k := 0) (by simp) (by decide),
    fun _ hk => setResults_above (Nat.one_le_iff_ne_zero.mpr hk)⟩

/-- The two commands on a biquad `f`, where a write of `g` leaves the engine `put g`. -/
def State.BiquadWorks (s : State) (u v w : Nat) (a b : CoefSet) (n x : Num) (f : Biquad) (put : Biquad → Engine) :
    Prop :=
  exec (.bqLoadgrad u v w a b n) s = .next { s with eng := put (loadGradient f a b n) } ∧
    ∃ t, exec (.bqStep u v w x) s = .next t ∧ t = { s with r := t.r, eng := put (biquadStep f x).2 } ∧
      t.result 0 = some (biquadOutput f x) ∧ ∀ k, k ≠ 0 → t.result k = s.result k

theorem biquadWorks_of_some {s : State} {u v w : Nat} {f : Biquad} {put : Biquad → Engine} (clear : s.fault = false)
    (a b : CoefSet) (n x : Num) (found : biquadAt s.eng u v w = some f)
    (written : ∀ g, s.eng.setBiquad u v w g = put g) : s.BiquadWorks u v w a b n x f put := by
  have loads := exec_bqLoadgrad clear a b n found
  have steps := exec_bqStep clear x found
  rw [written] at loads steps
  exact ⟨loads, _, steps, rfl, result_answer_one _ _⟩

end Sys2Proof.Machine

namespace Sys2Proof.Proofs

open Sys2Proof.Machine

/-- Settles O35: in each bank by the biquad that the selectors find and what its write changes. -/
theorem biquadOperations : Obligations.BiquadOperations := by
  intro s v w a b n x clear
  refine ⟨fun t f ht hf => ?toneFilter, fun i f hi hf => ?slotFilter, fun t z ht hz => ⟨?dispersion, ?shelf⟩,
    fun u missing => ⟨exec_bqLoadgrad_of_none clear a b n missing, exec_bqStep_of_none clear x missing⟩,
    fun u => biquadAt_of_bank s.eng v w, fun missing u => biquadAt_of_tone missing w,
    fun missing => biquadAt_of_slot missing w⟩
  case toneFilter =>
    exact biquadWorks_of_some clear a b n x (by simp [biquadAt, ht, hf]) (setBiquad_toneFilter ht)
  case slotFilter =>
    exact biquadWorks_of_some clear a b n x (by simp [biquadAt, hi, hf]) (setBiquad_slotFilter hi)
  case dispersion =>
    exact biquadWorks_of_some clear a b n x (by simp [biquadAt, ht, hz]) (setBiquad_dispersion ht hz)
  case shelf =>
    exact biquadWorks_of_some clear a b n x (by simp [biquadAt, ht, hz]) (setBiquad_shelf ht hz)

end Sys2Proof.Proofs
end

section
set_option Elab.async false
/-! PROOFS. `GTR.PLUCK` (`44_synth.md` R262): what its two ring operations leave in every element, what the lazy build
of the impulse wave leaves, and how the command ends. -/

namespace Sys2Proof.Machine

/-! The ring of a string (R74). -/

/-- What every element of a ring reads as after a write at an integer index. -/
theorem getNum_ringSet_int {m : Memory Num} (h : Memory.numWf m = true) (size : Nat) (i : Int) (v : Num) (k : Nat) :
    Memory.getNum (ringSet m size i v) k = if k = ringIndex size i then v else Memory.getNum m k := by
  split
  · rename_i here
    rw [here]
    exact Memory.getNum_setNum_same h _ v
  · rename_i elsewhere
    exact Memory.getNum_setNum_other h v elsewhere

/-- Offsets below the size of a ring name different elements. -/
theorem ringIndex_offset_ne {size i j : Nat} (base : Int) (hij : i < j) (hj : j < size) :
    ringIndex size (base + i) ≠ ringIndex size (base + j) := by
  intro same
  have positive : (0 : Int) < size := by omega
  have hi := Int.emod_nonneg (base + i) positive.ne'
  have hj' := Int.emod_nonneg (base + j) positive.ne'
  have equal : (base + i) % (size : Int) = (base + j) % (size : Int) := by
    unfold ringIndex at same
    omega
  have divides : (size : Int) ∣ (base + j) - (base + i) := Int.ModEq.dvd equal
  have := Int.le_of_dvd (by omega) divides
  omega

/-- Zeroing `n` elements behind a place leaves zero in those and every other element as it was. -/
theorem getNum_zeroBehind (size : Nat) (pos : Int) (n : Nat) {m : Memory Num} (h : Memory.numWf m = true) (k : Nat) :
    ((∃ i < n, k = ringIndex size (pos - ((i + 1 : Nat) : Int))) →
      Memory.getNum (zeroBehind size pos n m) k = Num.zero) ∧
    ((∀ i < n, k ≠ ringIndex size (pos - ((i + 1 : Nat) : Int))) →
      Memory.getNum (zeroBehind size pos n m) k = Memory.getNum m k) := by
  induction n generalizing m with
  | zero => exact ⟨fun ⟨_, lt, _⟩ => absurd lt (Nat.not_lt_zero _), fun _ => rfl⟩
  | succ n ih =>
    obtain ⟨hit, miss⟩ := ih (Memory.numWf_ringSet h size (pos - ((n + 1 : Nat) : Int)) .zero)
    have written := getNum_ringSet_int h size (pos - ((n + 1 : Nat) : Int)) .zero k
    constructor
    · rintro ⟨i, lt, here⟩
      by_cases nearer : ∃ i < n, k = ringIndex size (pos - ((i + 1 : Nat) : Int))
      · exact hit nearer
      · have last : i = n := by
          by_contra ne
          exact nearer ⟨i, by omega, here⟩
        refine (miss fun i lt same => nearer ⟨i, lt, same⟩).trans (written.trans (if_pos ?_))
        rw [here, last]
    · intro elsewhere
      exact (miss fun i lt => elsewhere i (by omega)).trans (written.trans (if_neg (elsewhere n n.lt_succ_self)))

/-- An impulse leaves the elements outside its period as they were. -/
theorem getNum_addImpulse_outside (size : Nat) (base : Int) (shape : Nat → Num) (n : Nat) {m : Memory Num}
    (h : Memory.numWf m = true) {k : Nat} (outside : ∀ i < n, k ≠ ringIndex size (base + i)) :
    Memory.getNum (addImpulse size base shape n m) k = Memory.getNum m k := by
  induction n with
  | zero => rfl
  | succ n ih =>
    have written := getNum_ringSet_int (addImpulse_numWf size base shape n h) size (base + n)
      ((ringGet (addImpulse size base shape n m) size (base + n)).add (shape n)) k
    exact (written.trans (if_neg (outside n n.lt_succ_self))).trans (ih fun i lt => outside i (by omega))

/-- An impulse of at most one turn of the ring is added once to each element of its period. -/
theorem getNum_addImpulse_inside (size : Nat) (base : Int) (shape : Nat → Num) (n : Nat) {m : Memory Num}
    (h : Memory.numWf m = true) (turn : n ≤ size) {i : Nat} (inside : i < n) :
    Memory.getNum (addImpulse size base shape n m) (ringIndex size (base + i)) =
      (Memory.getNum m (ringIndex size (base + i))).add (shape i) := by
  induction n with
  | zero => omega
  | succ n ih =>
    have written := getNum_ringSet_int (addImpulse_numWf size base shape n h) size (base + n)
      ((ringGet (addImpulse size base shape n m) size (base + n)).add (shape n)) (ringIndex size (base + i))
    obtain rfl | earlier := Nat.eq_or_lt_of_le (Nat.le_of_lt_succ inside)
    · refine (written.trans (if_pos rfl)).trans (congrArg (Num.add · (shape i)) ?_)
      exact getNum_addImpulse_outside size base shape i h fun j lt => (ringIndex_offset_ne base lt turn).symm
    · exact (written.trans (if_neg (ringIndex_offset_ne base earlier turn))).trans (ih (by omega) earlier)

/-! The lazy build of the impulse wave (R86, R139). -/

theorem ensureWave_of_some {x : Ctx} {k : WaveKey} {e : Engine} {d : List Num} (valid : findWave e.waves k = some d) :
    ensureWave x k e = e := by
  rw [ensureWave, valid]

theorem ensureWave_of_none {x : Ctx} {k : WaveKey} {e : Engine} (clear : findWave e.waves k = none) :
    ensureWave x k e = buildWave x k e := by
  rw [ensureWave, clear]

/-- A lazy build changes the wave caches and `WORK`, nothing else. -/
theorem ensureWave_frame (x : Ctx) (k : WaveKey) (e : Engine) : ensureWave x k e = { e with
    waves := (ensureWave x k e).waves, work := (ensureWave x k e).work
    workEpoch := (ensureWave x k e).workEpoch } := by
  cases valid : findWave e.waves k with
  | some d => rw [ensureWave_of_some valid]
  | none => rw [ensureWave_of_none valid]; exact buildWave_frame x k e

theorem buildWave_impulse (x : Ctx) (e : Engine) : buildWave x .impulse e =
    { e with waves := setWave e.waves .impulse x.cfg.impulseSamples, work := [], workEpoch := x.epoch } := rfl

/-- The impulse entry is valid after its lazy build. -/
theorem ensureWave_impulse_valid (x : Ctx) (e : Engine) :
    findWave (ensureWave x .impulse e).waves .impulse = some (waveData .impulse (ensureWave x .impulse e)) := by
  cases valid : findWave e.waves .impulse with
  | some d => simp [ensureWave_of_some valid, waveData, valid]
  | none => simp [ensureWave_of_none valid, waveData, buildWave_impulse, findWave_setWave_same]

/-- The impulse entry that the lazy build makes where there was none, with `WORK` left open (R493). -/
theorem ensureWave_impulse_built {x : Ctx} {e : Engine} (clear : findWave e.waves .impulse = none) :
    waveData .impulse (ensureWave x .impulse e) = x.cfg.impulseSamples ∧ (ensureWave x .impulse e).work = [] ∧
      (ensureWave x .impulse e).workEpoch = x.epoch := by
  rw [ensureWave_of_none clear, buildWave_impulse]
  exact ⟨by simp [waveData, findWave_setWave_same], rfl, rfl⟩

theorem ensureWave_impulse_other (x : Ctx) (e : Engine) {k : WaveKey} (ne : k ≠ .impulse) :
    findWave (ensureWave x .impulse e).waves k = findWave e.waves k := by
  cases valid : findWave e.waves .impulse with
  | some d => rw [ensureWave_of_some valid]
  | none => rw [ensureWave_of_none valid]; exact findWave_setWave_other _ _ ne

/-! How the command ends (R104, R262). -/

section
variable {s : State} {u v : Nat} {a : Tone}

/-- A pluck: the impulse wave built, the string plucked, the random source moved on. -/
theorem pluckDirect_of_guitar {x : Ctx} {e : Engine} {p : Nat} {w : StringState} {ins : Instrument}
    (ha : e.tones[u]? = some a) (used : a.state ≠ .free) (hins : slotInstrument x.song a.instrument = some ins)
    (hp : a.pitches[v]? = some p) (hw : a.strings[v]? = some w) (guitar : ins.kind = kindGuitar) :
    pluckDirect x u v e = .ok (
      let built := ensureWave x .impulse e
      let plucked := pluckString x a p (waveData .impulse built) w e.rng
      { e with
        tones := e.tones.set u { a with strings := a.strings.set v plucked.1 }
        waves := built.waves, work := built.work, workEpoch := built.workEpoch, rng := plucked.2 }) := by
  rw [pluckDirect, liveTone_eq_ok ha used]
  simp only [hins, hp, hw, guitar, ne_eq, not_true_eq_false, if_false]
  rw [ensureWave_frame]

theorem pluckDirect_of_other {x : Ctx} {e : Engine} {p : Nat} {w : StringState} {ins : Instrument}
    (ha : e.tones[u]? = some a) (used : a.state ≠ .free) (hins : slotInstrument x.song a.instrument = some ins)
    (hp : a.pitches[v]? = some p) (hw : a.strings[v]? = some w) (other : ins.kind ≠ kindGuitar) :
    pluckDirect x u v e = .error x.badIndex := by
  rw [pluckDirect, liveTone_eq_ok ha used]
  simp only [hins, hp, hw]
  exact if_pos other

theorem pluckDirect_of_no_string {x : Ctx} {e : Engine} (ha : e.tones[u]? = some a) (missing : a.pitches[v]? = none) :
    pluckDirect x u v e = .error x.badIndex := by
  by_cases free : a.state = .free
  · rw [pluckDirect, liveTone_eq_error ha free]
  · rw [pluckDirect, liveTone_eq_ok ha free]
    simp [missing]

theorem exec_gtrPluck_of_ok {e : Engine} (clear : s.fault = false)
    (plucked : pluckDirect (s.ctx Config.cfg (.gtrPluck u v)) u v s.eng = .ok e) :
    exec (.gtrPluck u v) s = .next { s with eng := e } := by
  show Host.Outcome.next (onEngine s (pluckDirect _ u v s.eng)) = _
  rw [plucked, onEngine_ok clear]

theorem exec_gtrPluck_of_error (clear : s.fault = false)
    (refused : pluckDirect (s.ctx Config.cfg (.gtrPluck u v)) u v s.eng =
      .error (s.ctx Config.cfg (.gtrPluck u v)).badIndex) :
    exec (.gtrPluck u v) s = .next (s.withFault 2#8 (headerInfo (Instr.header (.gtrPluck u v)))) := by
  show Host.Outcome.next (onEngine s (pluckDirect _ u v s.eng)) = _
  rw [refused]
  exact congrArg _ (onEngine_error_eq clear _)

end

end Sys2Proof.Machine

namespace Sys2Proof.Proofs

open Sys2Proof.Machine

/-- Settles O44: the command by its endings, the ring by the elements that a pluck zeroes and adds to. -/
theorem guitarPluck : Obligations.GuitarPluck := by
  refine ⟨fun s u v p a w ins clear ha used hins hp hw canonical =>
      ⟨fun guitar => ?plucks, fun other => ?otherKind⟩,
    fun s u v a clear ha missing => exec_gtrPluck_of_error clear (pluckDirect_of_no_string ha missing),
    fun size n j pos m h => getNum_zeroBehind size pos n h j,
    fun size n base shape m h turn i => getNum_addImpulse_inside size base shape n h turn⟩
  case otherKind => exact exec_gtrPluck_of_error clear (pluckDirect_of_other ha used hins hp hw other)
  case plucks =>
    have ends := exec_gtrPluck_of_ok clear (pluckDirect_of_guitar ha used hins hp hw guitar)
    refine ⟨_, _, ends, ⟨rfl, fun j quiet unstruck => ?_⟩, ensureWave_impulse_valid .., ensureWave_impulse_built,
      fun d valid => ?_, fun k => ensureWave_impulse_other _ _⟩
    · refine (getNum_addImpulse_outside _ _ _ _ (zeroBehind_numWf _ _ _ canonical) unstruck).trans ?_
      exact (getNum_zeroBehind _ _ _ canonical j).2 quiet
    · dsimp only
      rw [ensureWave_of_some valid]
      exact ⟨rfl, rfl, rfl⟩

end Sys2Proof.Proofs
end

section
set_option Elab.async false
/-! PROOFS. The inverse transform, the wave builders that use it, and the fall of every flag (`40_fft_wave.md` R131,
R132, R137, R138, R140). -/

namespace Sys2Proof

/-! Zeros of either sign (R7). -/

/-- A number equals zero where its magnitude bits are 0. -/
theorem eq_zero_iff {x : Num} : x.eq Num.zero = true ↔ x.bits.toNat % 2 ^ 63 = 0 := by
  have key : x.key = 0 ↔ x.bits.toNat % 2 ^ 63 = 0 := by unfold Num.key; split <;> omega
  have noNaN (h : x.bits.toNat % 2 ^ 63 = 0) : x.isNaN = false := by
    have : x.expField = 0 := by unfold Num.expField; omega
    simp [Num.isNaN, this]
  simp only [Num.eq, show Num.zero.isNaN = false by decide, show Num.zero.key = 0 by decide, Bool.and_eq_true,
    Bool.not_eq_true', Bool.not_false, and_true, decide_eq_true_eq, key]
  exact ⟨And.right, fun h => ⟨noNaN h, h⟩⟩

theorem isFinite_of_eq_zero {x : Num} (h : x.eq Num.zero = true) : x.isFinite = true := by
  have bits := eq_zero_iff.mp h
  have : x.expField = 0 := by unfold Num.expField; omega
  simp [Num.isFinite, this]

theorem mant_eq_zero_iff {x : Num} : x.mant = 0 ↔ x.bits.toNat % 2 ^ 63 = 0 := by
  unfold Num.mant Num.expField Num.fracField
  split <;> omega

/-- The numbers without magnitude are the two zeros. -/
theorem units_eq_zero_iff {x : Num} : x.units = 0 ↔ x.eq Num.zero = true := by
  have scale : (pow2 (x.scale + 1074) : Int) ≠ 0 := Int.natCast_ne_zero.mpr (Nat.two_pow_pos _).ne'
  have signed : x.signedMant = 0 ↔ x.mant = 0 := by unfold Num.signedMant; split <;> omega
  rw [Num.units, Int.mul_eq_zero, or_iff_left scale, signed, mant_eq_zero_iff, eq_zero_iff]

/-! The wave lengths and the size of `WORK` (R13, R131). -/

theorem isPowerOfTwo_iff {n : Nat} : isPowerOfTwo n = true ↔ ∃ k, n = 2 ^ k := by
  simp only [isPowerOfTwo, Bool.and_eq_true, bne_iff_ne, beq_iff_eq]
  constructor
  · exact fun ⟨_, power⟩ => ⟨_, power.symm⟩
  · rintro ⟨k, rfl⟩
    exact ⟨(Nat.two_pow_pos k).ne', by rw [Nat.log2_two_pow]⟩

theorem le_powerOfTwoFrom (n : Nat) : n ≤ powerOfTwoFrom n := by
  unfold powerOfTwoFrom
  split
  · assumption
  · have : n - 1 < 2 ^ (Nat.log2 (n - 1) + 1) := Nat.lt_log2_self
    omega

theorem le_foldl_max {l : List Nat} {n : Nat} (h : n ∈ l) : n ≤ l.foldl max 0 := by
  rw [List.foldl_max]
  exact (List.le_max?_getD_of_mem h).trans (Nat.le_max_right ..)

theorem le_workSize_of_le_longestWave {c : Cfg} {n : Nat} (h : n ≤ c.longestWave) : n ≤ c.workSize :=
  calc n ≤ c.longestWave + 1 := h.trans (Nat.le_succ _)
    _ ≤ powerOfTwoFrom (c.longestWave + 1) := le_powerOfTwoFrom _
    _ ≤ c.workSize := Nat.le_max_right ..

theorem spectrumWaveLength_le_workSize (c : Cfg) : c.spectrumWaveLength ≤ c.workSize :=
  le_workSize_of_le_longestWave (le_foldl_max (by simp))

theorem harmonicsWaveLength_le_workSize (c : Cfg) : c.harmonicsWaveLength ≤ c.workSize :=
  le_workSize_of_le_longestWave (le_foldl_max (by simp))

/-! The bins of a list of control points (R137, R138). -/

theorem fitTo_length (n : Nat) (l : List Num) : (fitTo n l).length = n := by simp [fitTo]; omega

theorem spectrumBins_length (c : Cfg) (l : List Nat) : (c.spectrumBins l).length = c.spectrumWaveLength := by
  unfold Cfg.spectrumBins
  split
  · exact List.length_replicate
  · exact fitTo_length ..

theorem harmonicsBins_length (c : Cfg) (l : List Nat) : (c.harmonicsBins l).length = c.harmonicsWaveLength := by
  unfold Cfg.harmonicsBins
  split
  · exact List.length_replicate
  · have pos : 1 ≤ c.harmonicsWaveLength := Nat.one_le_two_pow
    rw [List.length_cons, List.length_tail, fitTo_length, Nat.sub_add_cancel pos]

theorem spectrumBins_zero (c : Cfg) {l : List Nat} (zero : ∀ p ∈ l, p = 0) :
    ∀ y ∈ c.spectrumBins l, y = Num.zero := by
  rw [Cfg.spectrumBins, if_pos (by simpa using zero)]
  exact fun _ => List.eq_of_mem_replicate

theorem harmonicsBins_zero (c : Cfg) {l : List Nat} (zero : ∀ p ∈ l, p = 0) :
    ∀ y ∈ c.harmonicsBins l, y = Num.zero := by
  rw [Cfg.harmonicsBins, if_pos (by simpa using zero)]
  exact fun _ => List.eq_of_mem_replicate

end Sys2Proof

namespace Sys2Proof.Machine

/-! The first elements of `WORK` as a list (R13). -/

@[simp] theorem workPrefix_length (e : Engine) (n : Nat) : (e.workPrefix n).length = n := by simp [Engine.workPrefix]

theorem workPrefix_get (e : Engine) {n j : Nat} (h : j < n) : (e.workPrefix n)[j]? = some (e.readWork j) := by
  simp [Engine.workPrefix, h]

theorem mem_workPrefix_iff {e : Engine} {n : Nat} {y : Num} : y ∈ e.workPrefix n ↔ ∃ j < n, e.readWork j = y := by
  simp [Engine.workPrefix]

theorem readWork_fillWork_at (e : Engine) {l : List Num} {j : Nat} {y : Num} (h : l[j]? = some y) :
    (e.fillWork l).readWork j = y := by
  rw [readWork_fillWork, h, Option.getD_some]

theorem readWork_fillWork_above (e : Engine) {l : List Num} {j : Nat} (h : l.length ≤ j) :
    (e.fillWork l).readWork j = e.readWork j := by
  rw [readWork_fillWork, List.getElem?_eq_none h, Option.getD_none]

/-! The sum of R131 and the values that R132 admits. -/

theorem exactSum_replicate_zero (n : Nat) (points : List (Int × Int)) (m j : Nat) :
    exactSum n points (List.replicate m 0) j = 0 := by
  have value (k : Nat) : (List.replicate m (0 : Int)).getD k 0 = 0 := by
    simp only [List.getD_eq_getElem?_getD, List.getElem?_replicate]
    split <;> rfl
  simp only [exactSum, value, Int.zero_mul, Int.add_zero, List.map_const', ← List.sum_eq_foldl]
  simp

theorem magnitudeSum_replicate_zero (m : Nat) : magnitudeSum (List.replicate m 0) = 0 := by
  unfold magnitudeSum
  induction m with
  | zero => rfl
  | succ m ih => exact ih

/-- The sum of R131, rounded once. -/
def roundedSum (exact : Int) : Num := Num.round (decide (exact < 0)) exact.natAbs (-(1074 + 256))

theorem admitted_eq (n : Nat) (exact total : Int) (y : Num) : admitted n exact total y =
    if withinBound n exact total y then y else if (roundedSum exact).isFinite then roundedSum exact
    else if withinBound n exact total (Num.largest (decide (exact < 0))) then Num.largest (decide (exact < 0)) else y :=
  rfl

/-- An admitted value lies within the bound, or is the sum rounded, or no value is near enough. -/
theorem admitted_cases (n : Nat) (exact total : Int) (y : Num) :
    withinBound n exact total (admitted n exact total y) = true ∨
      ((roundedSum exact).isFinite = true ∧ admitted n exact total y = roundedSum exact) ∨
      ((roundedSum exact).isFinite = false ∧
        ¬ withinBound n exact total (Num.largest (decide (exact < 0))) = true) := by
  rw [admitted_eq]
  by_cases near : withinBound n exact total y = true
  · exact .inl (by rwa [if_pos near])
  by_cases finite : (roundedSum exact).isFinite = true
  · exact .inr (.inl ⟨finite, by rw [if_neg near, if_pos finite]⟩)
  by_cases largest : withinBound n exact total (Num.largest (decide (exact < 0))) = true
  · exact .inl (by rwa [if_neg near, if_neg finite, if_pos largest])
  · exact .inr (.inr ⟨eq_false_of_ne_true finite, largest⟩)

/-- Within a bound of 0 around 0 lie the two zeros alone. -/
theorem eq_zero_of_withinBound {n : Nat} {y : Num} (h : withinBound n 0 0 y = true) : y.eq Num.zero = true := by
  have distance : ((y.units * twiddleOne - 0).natAbs : Int) * 2 ^ 53
      ≤ 8 * (Nat.log2 n : Int) * 0 * twiddleOne + 0 * 2 ^ 110 :=
    of_decide_eq_true (Bool.and_eq_true _ _ ▸ h).2
  have product : y.units * twiddleOne = 0 := by
    rw [Int.mul_zero, Int.zero_mul, Int.zero_mul] at distance
    omega
  exact units_eq_zero_iff.mp ((Int.mul_eq_zero.mp product).resolve_right (by decide))

theorem admitted_zero (n : Nat) (y : Num) : (admitted n 0 0 y).eq Num.zero = true := by
  have zero : roundedSum 0 = Num.zero := by decide
  obtain near | ⟨_, rounded⟩ | ⟨infinite, _⟩ := admitted_cases n 0 0 y
  · exact eq_zero_of_withinBound near
  · rw [rounded, zero]; decide
  · rw [zero] at infinite; exact absurd infinite (by decide)

/-! The transform of a list (R131). -/

theorem ifftOf_length (x : Ctx) (n : Nat) (l : List Num) : (ifftOf x n l).length = n := by
  unfold ifftOf
  split <;> simp

/-- Output `j` of the transform of finite inputs. -/
def ifftElement (x : Ctx) (n : Nat) (l : List Num) (j : Nat) : Num :=
  admitted n (exactSum n (circle n) (l.map Num.units) j) (magnitudeSum (l.map Num.units))
    ((x.cfg.numerics.ifft n l).getD j .zero)

theorem ifftOf_get (x : Ctx) {n j : Nat} {l : List Num} (finite : l.all Num.isFinite = true) (h : j < n) :
    (ifftOf x n l)[j]? = some (ifftElement x n l j) := by
  simp [ifftOf, ifftElement, finite, h]

/-- Of zeros alone every output is a zero. -/
theorem ifftOf_zero (x : Ctx) {n j : Nat} {l : List Num} (zero : ∀ y ∈ l, y.eq Num.zero = true) (h : j < n) :
    ∃ y, (ifftOf x n l)[j]? = some y ∧ y.eq Num.zero = true := by
  have finite : l.all Num.isFinite = true := List.all_eq_true.mpr fun y hy => isFinite_of_eq_zero (zero y hy)
  have units : l.map Num.units = List.replicate l.length 0 :=
    List.eq_replicate_iff.mpr ⟨List.length_map ..,
      List.forall_mem_map.mpr fun y hy => units_eq_zero_iff.mpr (zero y hy)⟩
  refine ⟨_, ifftOf_get x finite h, ?_⟩
  rw [ifftElement, units, exactSum_replicate_zero, magnitudeSum_replicate_zero]
  exact admitted_zero ..

/-! `IFFT` on `WORK` (R131). -/

/-- A transform does not depend on the header of the command that runs it. -/
theorem ifftWork_withInfo (x : Ctx) (info : BitVec 32) (n : Nat) (e : Engine) :
    ifftWork (x.withInfo info) n e = ifftWork x n e := rfl

theorem ifftWork_above (x : Ctx) {n j : Nat} (e : Engine) (h : n ≤ j) : (ifftWork x n e).readWork j = e.readWork j :=
  readWork_fillWork_above e ((ifftOf_length ..).trans_le h)

theorem ifftWork_below (x : Ctx) {n j : Nat} {e : Engine} (finite : (e.workPrefix n).all Num.isFinite = true)
    (h : j < n) : (ifftWork x n e).readWork j = ifftElement x n (e.workPrefix n) j :=
  readWork_fillWork_at e (ifftOf_get x finite h)

theorem ifftWork_zero (x : Ctx) {n : Nat} {e : Engine} (zero : ∀ j, j < n → (e.readWork j).eq Num.zero = true)
    {j : Nat} (h : j < n) : ((ifftWork x n e).readWork j).eq Num.zero = true := by
  have inputs : ∀ y ∈ e.workPrefix n, y.eq Num.zero = true := fun y hy => by
    obtain ⟨i, hi, rfl⟩ := mem_workPrefix_iff.mp hy
    exact zero i hi
  obtain ⟨y, output, hy⟩ := ifftOf_zero x inputs h
  exact (readWork_fillWork_at e output).symm ▸ hy

theorem transformSizeLegal_iff {c : Cfg} {n : Nat} :
    transformSizeLegal c n = true ↔ (∃ k, n = 2 ^ k) ∧ 2 ≤ n ∧ n ≤ c.workSize := by
  simp [transformSizeLegal, isPowerOfTwo_iff, and_assoc]

section
variable {s : State} {n : Nat} (clear : s.fault = false)
include clear

theorem exec_ifft (legal : transformSizeLegal Config.cfg n = true) : exec (.ifft n) s =
    .next { s with eng := ifftWork (s.ctx Config.cfg (.ifft n)) n s.eng } := by
  show Host.Outcome.next (onEngine s ((need (transformSizeLegal Config.cfg n) _).map _)) = _
  rw [legal]
  exact congrArg _ (onEngine_ok clear _)

/-- A builder's transform is `IFFT`'s: neither reads the header. -/
theorem exec_ifft_fillWork {bins : List Num} (legal : transformSizeLegal Config.cfg bins.length = true) (i : Instr) :
    exec (.ifft bins.length) { s with eng := s.eng.fillWork bins } =
      .next { s with eng := transformBins (s.ctx Config.cfg i) bins s.eng } := by
  rw [exec_ifft (s := { s with eng := s.eng.fillWork bins }) clear legal]
  exact congrArg (fun e => Host.Outcome.next { s with eng := e })
    (ifftWork_withInfo (s.ctx Config.cfg i) (commandInfo (.ifft bins.length)) bins.length (s.eng.fillWork bins))

theorem exec_ifft_refused (illegal : ¬ transformSizeLegal Config.cfg n = true) :
    exec (.ifft n) s = .next (s.withFault 4#8 (headerInfo (Instr.header (.ifft n)))) := by
  show Host.Outcome.next (onEngine s ((need (transformSizeLegal Config.cfg n) _).map _)) = _
  rw [eq_false_of_ne_true illegal]
  exact congrArg _ (onEngine_error_eq clear _)

end

/-! The builders that transform (R137, R138). -/

/-- The engine behind a builder that transforms `bins` and makes a table of what `WORK` then holds. -/
def transformedWave (x : Ctx) (k : WaveKey) (bins : List Num) (table : List Num → List Num) (e : Engine) : Engine :=
  let e' := transformBins x bins e
  { e' with waves := setWave e'.waves k (table (e'.workPrefix bins.length)) }

section
variable {x : Ctx} {u : Nat} {ins : Instrument} (named : slotInstrument x.song u = some ins)
include named

theorem buildWave_spectrum (e : Engine) : buildWave x (.spectrum u) e =
    transformedWave x (.spectrum u) (x.cfg.spectrumBins ins.spectrumWave) closeWave e := by
  simp only [buildWave, named, transformedWave, spectrumBins_length]

theorem buildWave_drum (d : Nat) (e : Engine) : buildWave x (.drum u d) e =
    transformedWave x (.drum u d) (x.cfg.spectrumBins (ins.drumSpectrumWaves.getD d [])) closeWave e := by
  simp only [buildWave, named, transformedWave, spectrumBins_length]

theorem buildWave_harmonics (e : Engine) : buildWave x (.harmonics u) e =
    transformedWave x (.harmonics u) (x.cfg.harmonicsBins ins.harmonicsWave) integrate e := by
  simp only [buildWave, named, transformedWave, harmonicsBins_length]

theorem spectrumKey_spectrum (kind : ins.kind = kindSpectrum) : spectrumKey x u 0xFF = some (.spectrum u) := by
  simp [spectrumKey, named, kind]

theorem spectrumKey_drum {v : Nat} (kind : ins.kind = kindDrumset) (inside : v < 12) :
    spectrumKey x u v = some (.drum u v) := by
  have drum : v ≠ 0xFF := by omega
  simp [spectrumKey, named, kind, drumCount, inside, drum]

theorem spectrumKey_not_spectrum (kind : ins.kind ≠ kindSpectrum) : spectrumKey x u 0xFF = none := by
  simp [spectrumKey, named, kind]

theorem spectrumKey_not_drum {v : Nat} (drum : v ≠ 0xFF) (missing : 12 ≤ v ∨ ins.kind ≠ kindDrumset) :
    spectrumKey x u v = none := by
  have unnamed : ¬ (decide (v < drumCount) && ins.kind == kindDrumset) = true := fun h => by
    obtain ⟨inside, kind⟩ := Bool.and_eq_true_iff.mp h
    exact missing.elim (Nat.not_le.mpr (of_decide_eq_true inside)) (· (beq_iff_eq.mp kind))
  simp only [spectrumKey, named, if_neg drum, if_neg unnamed]

theorem harmonicsKey_harmonics (kind : ins.kind = kindHarmonics) : harmonicsKey x u = some (.harmonics u) := by
  simp [harmonicsKey, named, kind]

theorem harmonicsKey_other (kind : ins.kind ≠ kindHarmonics) : harmonicsKey x u = none := by
  simp [harmonicsKey, named, kind]

end

section
variable {x : Ctx} {u : Nat} (missing : slotInstrument x.song u = none)
include missing

theorem spectrumKey_no_slot (v : Nat) : spectrumKey x u v = none := by simp [spectrumKey, missing]

theorem harmonicsKey_no_slot : harmonicsKey x u = none := by simp [harmonicsKey, missing]

end

section
variable {s : State} {u v : Nat} (clear : s.fault = false)
include clear

theorem exec_waveSpectrum {k : WaveKey} (key : spectrumKey (s.ctx Config.cfg (.waveSpectrum u v)) u v = some k) :
    exec (.waveSpectrum u v) s =
      .next { s with eng := buildWave (s.ctx Config.cfg (.waveSpectrum u v)) k s.eng } := by
  show Host.Outcome.next (waveCommand _ s (spectrumKey _ u v)) = _
  rw [key, waveCommand_some clear]

theorem exec_waveSpectrum_refused (key : spectrumKey (s.ctx Config.cfg (.waveSpectrum u v)) u v = none) :
    exec (.waveSpectrum u v) s = .next (s.withFault 2#8 (headerInfo (Instr.header (.waveSpectrum u v)))) := by
  show Host.Outcome.next (waveCommand _ s (spectrumKey _ u v)) = _
  rw [key, waveCommand_none clear]
  rfl

theorem exec_waveHarmonics {k : WaveKey} (key : harmonicsKey (s.ctx Config.cfg (.waveHarmonics u)) u = some k) :
    exec (.waveHarmonics u) s =
      .next { s with eng := buildWave (s.ctx Config.cfg (.waveHarmonics u)) k s.eng } := by
  show Host.Outcome.next (waveCommand _ s (harmonicsKey _ u)) = _
  rw [key, waveCommand_some clear]

theorem exec_waveHarmonics_refused (key : harmonicsKey (s.ctx Config.cfg (.waveHarmonics u)) u = none) :
    exec (.waveHarmonics u) s = .next (s.withFault 2#8 (headerInfo (Instr.header (.waveHarmonics u)))) := by
  show Host.Outcome.next (waveCommand _ s (harmonicsKey _ u)) = _
  rw [key, waveCommand_none clear]
  rfl

end

/-- The command `i` transforms `bins` in `WORK` as `IFFT` does and fills entry `k` with `n + 1` elements that are `good`
for the transformed `WORK`; nothing else changes. -/
def State.BuildsByTransform (s : State) (i : Instr) (k : WaveKey) (bins : List Num) (n : Nat)
    (good : (Nat → Num) → List Num → Prop) : Prop :=
  bins.length = n ∧ ∃ t t1 d, exec i s = .next t ∧
    exec (.ifft n) { s with eng := s.eng.fillWork bins } = .next t1 ∧ t1.fault = false ∧
    t = { s with eng := { s.eng with waves := t.eng.waves, work := t1.eng.work } } ∧
    findWave t.eng.waves k = some d ∧ d.length = n + 1 ∧ good t1.eng.readWork d ∧
    (∀ k', k' ≠ k → findWave t.eng.waves k' = findWave s.eng.waves k') ∧
    ∀ j, n ≤ j → t.eng.readWork j = s.eng.readWork j

theorem State.BuildsByTransform.of_exec {s : State} {i : Instr} {k : WaveKey} {bins : List Num} {n : Nat}
    {table : List Num → List Num} {good : (Nat → Num) → List Num → Prop} (clear : s.fault = false)
    (length : bins.length = n) (legal : transformSizeLegal Config.cfg n = true)
    (ends : exec i s = .next { s with eng := transformedWave (s.ctx Config.cfg i) k bins table s.eng })
    (entry : ∀ e : Engine, (table (e.workPrefix n)).length = n + 1 ∧ good e.readWork (table (e.workPrefix n))) :
    s.BuildsByTransform i k bins n good := by
  subst length
  obtain ⟨entryLength, entryGood⟩ := entry (transformBins (s.ctx Config.cfg i) bins s.eng)
  refine ⟨rfl, _, _, _, ends, exec_ifft_fillWork clear legal i, clear, rfl, findWave_setWave_same ..,
    entryLength, entryGood, fun _ ne => findWave_setWave_other _ _ ne, fun j outside => ?_⟩
  exact (ifftWork_above _ (s.eng.fillWork bins) outside).trans (readWork_fillWork_above _ outside)

/-- `d` is what `WORK` holds, with a copy of element 0 behind it (R77, R137). -/
def ClosedWave (n : Nat) (work : Nat → Num) (d : List Num) : Prop :=
  (∀ j, j < n → d[j]? = some (work j)) ∧ d[n]? = d[0]?

/-- `d` is the running sums of what `WORK` holds, from 0 on (R138). -/
def RunningSums (n : Nat) (work : Nat → Num) (d : List Num) : Prop :=
  d[0]? = some Num.zero ∧ ∀ j x, j < n → d[j]? = some x → d[j + 1]? = some (x.add (work j))

theorem closeWave_workPrefix {n : Nat} (pos : 0 < n) (e : Engine) :
    (closeWave (e.workPrefix n)).length = n + 1 ∧ ClosedWave n e.readWork (closeWave (e.workPrefix n)) := by
  have length := workPrefix_length e n
  have last := closeWave_last (pos.trans_eq length.symm)
  rw [length] at last
  exact ⟨(closeWave_length _).trans (congrArg (· + 1) length),
    fun j hj => (closeWave_below (hj.trans_eq length.symm)).trans (workPrefix_get e hj), last⟩

theorem integrate_workPrefix (n : Nat) (e : Engine) :
    (integrate (e.workPrefix n)).length = n + 1 ∧ RunningSums n e.readWork (integrate (e.workPrefix n)) :=
  ⟨(integrateFrom_length ..).trans (congrArg (· + 1) (workPrefix_length e n)), integrateFrom_head ..,
    fun _ _ hj hx => integrateFrom_succ hx (workPrefix_get e hj)⟩

theorem spectrumWaveLength_legal (c : Cfg) : transformSizeLegal c c.spectrumWaveLength = true :=
  transformSizeLegal_iff.mpr
    ⟨⟨_, rfl⟩, Nat.le_self_pow (Nat.succ_ne_zero _) 2, spectrumWaveLength_le_workSize c⟩

theorem harmonicsWaveLength_legal (c : Cfg) : transformSizeLegal c c.harmonicsWaveLength = true :=
  transformSizeLegal_iff.mpr
    ⟨⟨_, rfl⟩, Nat.le_self_pow (Nat.succ_ne_zero _) 2, harmonicsWaveLength_le_workSize c⟩

section
variable {s : State} {u v : Nat} {ins : Instrument} (clear : s.fault = false)
  (named : slotInstrument s.song u = some ins)
include clear named

theorem waveSpectrum_builds_spectrum (kind : ins.kind = kindSpectrum) :
    s.BuildsByTransform (.waveSpectrum u 0xFF) (.spectrum u) (Config.cfg.spectrumBins ins.spectrumWave)
      Config.cfg.spectrumWaveLength (ClosedWave Config.cfg.spectrumWaveLength) := by
  have ends := exec_waveSpectrum clear (spectrumKey_spectrum (x := s.ctx Config.cfg (.waveSpectrum u 0xFF)) named kind)
  rw [buildWave_spectrum named] at ends
  exact .of_exec clear (spectrumBins_length ..) (spectrumWaveLength_legal _) ends
    (closeWave_workPrefix (Nat.two_pow_pos _))

theorem waveSpectrum_builds_drum (kind : ins.kind = kindDrumset) (inside : v < 12) :
    s.BuildsByTransform (.waveSpectrum u v) (.drum u v)
      (Config.cfg.spectrumBins (ins.drumSpectrumWaves.getD v [])) Config.cfg.spectrumWaveLength
      (ClosedWave Config.cfg.spectrumWaveLength) := by
  have ends := exec_waveSpectrum clear
    (spectrumKey_drum (x := s.ctx Config.cfg (.waveSpectrum u v)) named kind inside)
  rw [buildWave_drum named] at ends
  exact .of_exec clear (spectrumBins_length ..) (spectrumWaveLength_legal _) ends
    (closeWave_workPrefix (Nat.two_pow_pos _))

theorem waveHarmonics_builds (kind : ins.kind = kindHarmonics) :
    s.BuildsByTransform (.waveHarmonics u) (.harmonics u) (Config.cfg.harmonicsBins ins.harmonicsWave)
      Config.cfg.harmonicsWaveLength (RunningSums Config.cfg.harmonicsWaveLength) := by
  have ends := exec_waveHarmonics clear (harmonicsKey_harmonics (x := s.ctx Config.cfg (.waveHarmonics u)) named kind)
  rw [buildWave_harmonics named] at ends
  exact .of_exec clear (harmonicsBins_length ..) (harmonicsWaveLength_legal _) ends (integrate_workPrefix _)

end

/-! The flags of every entry (R140). -/

theorem invalidateWaves_key (l : List WaveEntry) (p : WaveKey → Bool) :
    (invalidateWaves l p).map WaveEntry.key = l.map WaveEntry.key := by
  rw [invalidateWaves, List.map_map]
  refine List.map_congr_left fun w _ => ?_
  rw [Function.comp_apply]
  split <;> rfl

/-- An entry that is named is not valid. -/
theorem valid_of_mem_invalidateWaves {l : List WaveEntry} {p : WaveKey → Bool} {w : WaveEntry}
    (mem : w ∈ invalidateWaves l p) (named : p w.key = true) : w.valid = false := by
  obtain ⟨w', _, rfl⟩ := List.mem_map.mp mem
  by_cases fallen : p w'.key = true
  · rw [if_pos fallen]
  · rw [if_neg fallen] at named
    exact absurd named fallen

theorem exec_waveInval {s : State} (clear : s.fault = false) : exec .waveInval s =
    .next { s with eng := { s.eng with waves := invalidateWaves s.eng.waves (fun _ => true) } } :=
  congrArg Host.Outcome.next (onEngine_ok clear _)

end Sys2Proof.Machine

namespace Sys2Proof.Proofs

open Sys2Proof.Machine

/-- Settles O28: a legal size by what the transform makes of `WORK` element by element, any other by its refusal. -/
theorem inverseTransform : Obligations.InverseTransform := by
  intro s n clear
  refine ⟨fun k power least inside => ?legal, fun illegal => exec_ifft_refused clear fun legal => ?illegal⟩
  case illegal =>
    obtain ⟨⟨k, power⟩, least, inside⟩ := transformSizeLegal_iff.mp legal
    obtain below | above | other := illegal
    · omega
    · omega
    · exact other k power
  case legal =>
    refine ⟨_, exec_ifft clear (transformSizeLegal_iff.mpr ⟨⟨k, power⟩, least, inside⟩), rfl,
      fun j outside => ifftWork_above _ _ outside, fun finite j hj => ?_, fun zero j hj => ifftWork_zero _ zero hj⟩
    dsimp only
    rw [ifftWork_below _ finite hj]
    exact admitted_cases ..

/-- Settles O30: each builder by its bins and the table that it makes, the refusals by the keys that are missing. -/
theorem spectralWaves : Obligations.SpectralWaves := by
  intro s u v ins clear named
  refine ⟨waveSpectrum_builds_spectrum clear named, waveSpectrum_builds_drum clear named,
    waveHarmonics_builds clear named,
    fun l zero => ⟨spectrumBins_zero _ zero, harmonicsBins_zero _ zero⟩,
    fun kind => exec_waveSpectrum_refused clear (spectrumKey_not_spectrum named kind),
    fun drum missing => exec_waveSpectrum_refused clear (spectrumKey_not_drum named drum missing),
    fun kind => exec_waveHarmonics_refused clear (harmonicsKey_other named kind),
    fun u' missing => ⟨exec_waveSpectrum_refused clear (spectrumKey_no_slot missing v),
      exec_waveHarmonics_refused clear (harmonicsKey_no_slot missing)⟩⟩

/-- Settles O31, by what the fall of every flag leaves of an entry. -/
theorem waveInvalidate : Obligations.WaveInvalidate := fun s clear =>
  ⟨_, exec_waveInval clear, rfl, fun _ mem => valid_of_mem_invalidateWaves (p := fun _ => true) mem rfl,
    invalidateWaves_key s.eng.waves (fun _ => true)⟩

end Sys2Proof.Proofs
end

section
set_option Elab.async false
/-! PROOFS. The coefficient helpers and the filter control points (`41_filter.md` R155 to R167): what a set keeps inside
the domain of its helper, the configuration's own or its stand-in, and how the commands end. -/

namespace Sys2Proof

/-! First-order sets (R156, R157, R161, R162). -/

/-- A first-order set with its pole inside the unit circle. -/
def CoefSet.FirstOrder (k : CoefSet) : Prop := k.a1.abs.lt .one = true ∧ k.a2 = .zero ∧ k.b2 = .zero

theorem firstOrder_of_pole {a1 : Num} (b0 b1 : Num) (pole : poleInside1 a1 = true) : (firstOrder a1 b0 b1).FirstOrder :=
  ⟨pole, rfl, rfl⟩

theorem poleInside1_zero : poleInside1 .zero = true := by decide

theorem lp1Of_inside (c : Cfg) {ω : Num} (dom : inOmegaDomain ω = true) :
    (c.lp1Of ω).FirstOrder ∧ (c.lp1Of ω).b0 = (c.lp1Of ω).b1 ∧ (c.lp1Of ω).gainAtZero .one = true := by
  rw [Cfg.lp1Of, if_pos dom]
  split
  next kept =>
    obtain ⟨pole, gain⟩ := Bool.and_eq_true_iff.mp kept
    exact ⟨firstOrder_of_pole _ _ pole, rfl, gain⟩
  next => exact ⟨firstOrder_of_pole _ _ poleInside1_zero, rfl, by decide +kernel⟩

theorem hp1Of_inside (c : Cfg) {ω : Num} (dom : inOmegaDomain ω = true) :
    (c.hp1Of ω).FirstOrder ∧ (c.hp1Of ω).b1 = (c.hp1Of ω).b0.neg ∧ (c.hp1Of ω).gainAtNyquist .one = true := by
  rw [Cfg.hp1Of, if_pos dom]
  split
  next kept =>
    obtain ⟨pole, gain⟩ := Bool.and_eq_true_iff.mp kept
    exact ⟨firstOrder_of_pole _ _ pole, rfl, gain⟩
  next => exact ⟨firstOrder_of_pole _ _ poleInside1_zero, rfl, by decide +kernel⟩

theorem hshelf1Of_inside (c : Cfg) {ω g : Num} (dom : (inOmegaDomain ω && Num.zero.lt g) = true) :
    (c.hshelf1Of ω g).FirstOrder ∧
      (((c.hshelf1Of ω g).gainAtZero .one = true ∧ (c.hshelf1Of ω g).gainAtNyquist g = true) ∨
        c.hshelf1Of ω g = firstOrder .zero ((Num.one.add g).mul .half) ((Num.one.sub g).mul .half)) := by
  rw [Cfg.hshelf1Of, if_pos dom]
  split
  next kept =>
    simp only [Bool.and_eq_true] at kept
    obtain ⟨⟨pole, low⟩, high⟩ := kept
    exact ⟨firstOrder_of_pole _ _ pole, .inl ⟨low, high⟩⟩
  next => exact ⟨firstOrder_of_pole _ _ poleInside1_zero, .inr rfl⟩

theorem ap1Of_inside (c : Cfg) {ω : Num} (dom : inOmegaDomain ω = true) :
    (c.ap1Of ω).FirstOrder ∧ (((c.ap1Of ω).b0 = (c.ap1Of ω).a1 ∧ (c.ap1Of ω).b1 = .one) ∨
      ((c.ap1Of ω).b0 = (c.ap1Of ω).a1.neg ∧ (c.ap1Of ω).b1 = Num.one.neg)) := by
  have pole : poleInside1 (if poleInside1 (c.numerics.ap1 ω).a1 then (c.numerics.ap1 ω).a1 else .zero) = true := by
    split
    next kept => exact kept
    next => exact poleInside1_zero
  rw [Cfg.ap1Of, if_pos dom]
  dsimp only
  split
  · exact ⟨firstOrder_of_pole _ _ pole, .inr ⟨rfl, rfl⟩⟩
  · exact ⟨firstOrder_of_pole _ _ pole, .inl ⟨rfl, rfl⟩⟩

/-! Second-order sets (R158 to R160). -/

theorem lp2Of_inside (c : Cfg) {ω g : Num} (dom : (inOmegaDomain ω && Num.zero.lt g) = true) :
    (c.lp2Of ω g).stable = true ∧ (c.lp2Of ω g).gainAtZero .one = true ∧
      (c.lp2Of ω g).gainAtNyquist .zero = true := by
  rw [Cfg.lp2Of, if_pos dom]
  split
  next kept =>
    simp only [Bool.and_eq_true] at kept
    obtain ⟨⟨poles, low⟩, high⟩ := kept
    exact ⟨poles, low, high⟩
  next => decide +kernel

theorem hp2Of_inside (c : Cfg) {ω g : Num} (dom : (inOmegaDomain ω && Num.zero.lt g) = true) :
    (c.hp2Of ω g).stable = true ∧ (c.hp2Of ω g).gainAtZero .zero = true ∧
      (c.hp2Of ω g).gainAtNyquist .one = true := by
  rw [Cfg.hp2Of, if_pos dom]
  split
  next kept =>
    simp only [Bool.and_eq_true] at kept
    obtain ⟨⟨poles, low⟩, high⟩ := kept
    exact ⟨poles, low, high⟩
  next => decide +kernel

theorem stable_of_fallback {k k' : CoefSet} (h : k'.stable = true) : (if k.stable then k else k').stable = true := by
  split
  next kept => exact kept
  next => exact h

theorem plainPeak_stable (c : Cfg) (ω g : Num) : (plainPeak c ω g).stable = true := by
  refine stable_of_fallback ?_
  show (Num.half.abs.lt .one && Num.zero.abs.lt (Num.one.add .half)) = true
  decide +kernel

/-- The gains that R160 names: 1 at both ends, `g` at the corner. -/
def CoefSet.PeakGains (k : CoefSet) (ω g : Num) : Prop :=
  k.gainAtZero .one = true ∧ k.gainAtNyquist .one = true ∧ k.gainAtCorner ω g = true

/-- The set of a peak before R160's identity filter of gain 1: the configuration's where it keeps the rule, else the
stand-in. -/
def peakBase (c : Cfg) (ω g : Num) : CoefSet :=
  let k := c.numerics.peak ω g
  if k.stable && k.gainAtZero .one && k.gainAtNyquist .one && k.gainAtCorner ω g then k else plainPeak c ω g

theorem peakBase_spec (c : Cfg) (ω g : Num) : (peakBase c ω g).stable = true ∧
    ((peakBase c ω g).PeakGains ω g ∨ peakBase c ω g = plainPeak c ω g) := by
  unfold peakBase
  dsimp only
  split
  next kept =>
    simp only [Bool.and_eq_true] at kept
    obtain ⟨⟨⟨poles, low⟩, high⟩, corner⟩ := kept
    exact ⟨poles, .inl ⟨low, high, corner⟩⟩
  next => exact ⟨plainPeak_stable c ω g, .inr rfl⟩

theorem peakOf_inside (c : Cfg) {ω g : Num} (dom : (inOmegaDomain ω && Num.zero.lt g) = true) :
    c.peakOf ω g = if g.eq .one then
      { peakBase c ω g with b0 := .one, b1 := (peakBase c ω g).a1, b2 := (peakBase c ω g).a2 }
      else peakBase c ω g := if_pos dom

theorem CoefSet.stable_iff {k : CoefSet} :
    k.stable = true ↔ k.a2.abs.lt .one = true ∧ k.a1.abs.lt (Num.one.add k.a2) = true := Bool.and_eq_true_iff

end Sys2Proof

namespace Sys2Proof.Machine

/-! How a command with results in `r[0]`, … ends (R12, R155). -/

theorem answer_onlyResults (s : State) (l : List Num) : s.onlyResults (answer s l) l.length :=
  ⟨rfl, fun _ above => setResults_above (by omega)⟩

theorem answer_showsCoefs (s : State) (k : CoefSet) (order : Nat) :
    (answer s (coefAnswer k order)).showsCoefs k order := by
  have shown (i : Nat) (inside : i < 6) :
      (answer s (coefAnswer k order)).result i = (coefAnswer k order)[i]? := by
    have written := setResults_at (r := s.r) (i := 0) (l := coefAnswer k order) inside (by omega)
    rwa [Nat.zero_add] at written
  exact ⟨shown 0 (by decide), shown 1 (by decide), shown 2 (by decide), shown 3 (by decide), shown 4 (by decide),
    shown 5 (by decide)⟩

section
variable {s : State} {i : Instr} (clear : s.fault = false)
include clear

/-- A coefficient helper that answers a set leaves the six results and nothing else. -/
theorem coefs_given {k : CoefSet} {order : Nat}
    (run : exec i s = .next (command s (.ok (answer s (coefAnswer k order))))) :
    ∃ t, exec i s = .next t ∧ s.onlyResults t 6 ∧ t.showsCoefs k order := by
  rw [command_ok clear] at run
  exact ⟨_, run, answer_onlyResults s _, answer_showsCoefs s k order⟩

/-- A command that checks its operands and answers one value. -/
theorem value_given {b : Bool} {r : Raise} {x : Num}
    (run : exec i s = .next (command s ((need b r).map (fun _ => answer s [x])))) (legal : b = true) :
    ∃ t, exec i s = .next t ∧ s.onlyResults t 1 ∧ t.result 0 = some x := by
  subst legal
  rw [show (need true r).map (fun _ => answer s [x]) = .ok (answer s [x]) from rfl, command_ok clear] at run
  exact ⟨_, run, answer_onlyResults s _, (result_answer_one s x).1⟩

/-- An operand out of range is `BadOperand` (R453). -/
theorem value_refused {b : Bool} {f : Unit → State}
    (run : exec i s = .next (command s ((need b (s.ctx Config.cfg i).badOperand).map f))) (illegal : b = false) :
    exec i s = .next (s.withFault 4#8 (headerInfo i.header)) := by
  subst illegal
  rw [run]
  exact congrArg _ ((command_error clear _).trans (raise_eq_withFault clear _))

end

theorem fdapAnswer_inside (x : Ctx) {d : Num} (dom : (!d.lt Num.one.neg) = true) : fdapAnswer x d = fdapOf d := by
  rw [fdapAnswer, if_neg (by simpa using dom)]

/-- The checks of `VOLCOMP` (R167). -/
theorem volcompLegal_iff {c : Cfg} {kind freq gain : Nat} :
    (decide (kind ≤ 2) && decide (freq < c.filterFreqRange) && decide (gain < c.filterGainRange)) = true ↔
      kind ≤ 2 ∧ freq < c.filterFreqRange ∧ gain < c.filterGainRange := by
  simp [and_assoc]

end Sys2Proof.Machine

namespace Sys2Proof.Proofs

open Sys2Proof.Machine

/-- Settles O32: each command by the set that it answers, the sets by what they keep inside their domains. -/
theorem firstOrderCoefficients : Obligations.FirstOrderCoefficients := by
  intro s ω g clear
  refine ⟨?lowpass, ?highpass, ?shelf, ?allpass, ?delay⟩
  case lowpass =>
    obtain ⟨t, run, only, shows⟩ := coefs_given (i := .coefLp1 ω) clear rfl
    exact ⟨t, _, run, only, shows, lp1Of_inside Config.cfg⟩
  case highpass =>
    obtain ⟨t, run, only, shows⟩ := coefs_given (i := .coefHp1 ω) clear rfl
    exact ⟨t, _, run, only, shows, hp1Of_inside Config.cfg⟩
  case shelf =>
    obtain ⟨t, run, only, shows⟩ := coefs_given (i := .coefHshelf1 ω g) clear rfl
    exact ⟨t, _, run, only, shows, hshelf1Of_inside Config.cfg⟩
  case allpass =>
    obtain ⟨t, run, only, shows⟩ := coefs_given (i := .coefAp1 ω) clear rfl
    exact ⟨t, _, run, only, shows, ap1Of_inside Config.cfg⟩
  case delay =>
    obtain ⟨t, run, only, shows⟩ := coefs_given (i := .coefFdap ω) clear rfl
    refine ⟨t, _, run, only, shows, fun dom => ?_⟩
    rw [fdapAnswer_inside _ dom]
    exact ⟨rfl, rfl, rfl, rfl, rfl⟩

/-- Settles O33: lowpass and highpass by what their sets keep, a peak by the set before the identity filter of gain 1,
which shares its poles. -/
theorem secondOrderCoefficients : Obligations.SecondOrderCoefficients := by
  intro s ω g clear
  refine ⟨?lowpass, ?highpass, ?peak⟩
  case lowpass =>
    obtain ⟨t, run, only, shows⟩ := coefs_given (i := .coefLp2 ω g) clear rfl
    refine ⟨t, _, run, only, shows, fun omega gain => ?_⟩
    obtain ⟨poles, gains⟩ := lp2Of_inside Config.cfg (Bool.and_eq_true_iff.mpr ⟨omega, gain⟩)
    exact ⟨CoefSet.stable_iff.mp poles, gains⟩
  case highpass =>
    obtain ⟨t, run, only, shows⟩ := coefs_given (i := .coefHp2 ω g) clear rfl
    refine ⟨t, _, run, only, shows, fun omega gain => ?_⟩
    obtain ⟨poles, gains⟩ := hp2Of_inside Config.cfg (Bool.and_eq_true_iff.mpr ⟨omega, gain⟩)
    exact ⟨CoefSet.stable_iff.mp poles, gains⟩
  case peak =>
    obtain ⟨t, run, only, shows⟩ := coefs_given (i := .coefPeak ω g) clear rfl
    refine ⟨t, _, run, only, shows, fun omega gain => ?_⟩
    obtain ⟨poles, gains⟩ := peakBase_spec Config.cfg ω g
    rw [peakOf_inside Config.cfg (Bool.and_eq_true_iff.mpr ⟨omega, gain⟩)]
    split
    next flat => exact ⟨CoefSet.stable_iff.mp poles, fun _ => ⟨rfl, rfl, rfl⟩, fun bent => nomatch flat.symm.trans bent⟩
    next bent => exact ⟨CoefSet.stable_iff.mp poles, fun flat => absurd flat bent, fun _ => gains⟩

/-- Settles O34: each command by its check, inside it by the value that it answers. -/
theorem filterPoints : Obligations.FilterPoints := by
  intro s kind freq gain clear
  refine ⟨fun inside => ?hz, fun outside => ?hzRefused, fun inside => ?gain, fun outside => ?gainRefused,
    fun hkind hfreq hgain => ?volcomp, fun outside => ?volcompRefused⟩
  case hz => exact value_given (i := .fptHz freq) clear rfl (decide_eq_true inside)
  case hzRefused => exact value_refused (i := .fptHz freq) clear rfl (decide_eq_false (Nat.not_lt.mpr outside))
  case gain => exact value_given (i := .fptGain gain) clear rfl (decide_eq_true inside)
  case gainRefused => exact value_refused (i := .fptGain gain) clear rfl (decide_eq_false (Nat.not_lt.mpr outside))
  case volcomp =>
    obtain ⟨finite, positive⟩ := positiveOr_positive .one (Config.cfg.volComp kind freq gain) (by decide)
    exact ⟨_, finite, positive,
      value_given (i := .volcomp kind freq gain) clear rfl (volcompLegal_iff.mpr ⟨hkind, hfreq, hgain⟩)⟩
  case volcompRefused =>
    refine value_refused (i := .volcomp kind freq gain) clear rfl (Bool.eq_false_iff.mpr fun legal => ?_)
    have inside := volcompLegal_iff.mp legal
    simp only [State.ctx] at inside
    omega

end Sys2Proof.Proofs
end

section
set_option Elab.async false
/-! PROOFS. The mono stages of the effects (`45_effects.md` R282, R284, R286). -/

namespace Sys2Proof.Machine

section
variable {x : Ctx} {s : State} {u : Nat} {i : Slot} {ins : Instrument} {f : Instrument → Slot → Num × Slot}

theorem monoStage_of_slot (clear : s.fault = false) (hi : s.eng.slots[u]? = some i)
    (hins : slotInstrument x.song u = some ins) :
    monoStage x s u f = answer { s with eng := s.eng.setSlot u (f ins i).2 } [(f ins i).1] := by
  rw [monoStage, slotAt_of_some hi hins]
  exact command_ok clear _

theorem monoStage_of_none (clear : s.fault = false) (hi : s.eng.slots[u]? = none) :
    monoStage x s u f = s.withFault 2#8 x.info := by
  rw [monoStage, slotAt_of_none hi]
  exact (command_error clear _).trans (raise_eq_withFault clear _)

end

/-- A mono stage leaves its output in `r[0]`, and its slot. -/
theorem monoStage_gives {s : State} {op : Instr} {u : Nat} {i j : Slot} {ins : Instrument} {y : Num}
    {f : Instrument → Slot → Num × Slot}
    (run : exec op s = .next (monoStage (s.ctx Config.cfg op) s u f)) (clear : s.fault = false)
    (hi : s.eng.slots[u]? = some i) (hins : slotInstrument s.song u = some ins) (hf : f ins i = (y, j)) :
    ∃ t, exec op s = .next t ∧ t = { s with r := t.r, eng := { s.eng with slots := s.eng.slots.set u j } } ∧
      t.result 0 = some y ∧ ∀ k, k ≠ 0 → t.result k = s.result k := by
  rw [monoStage_of_slot clear hi hins, hf] at run
  exact ⟨_, run, rfl, result_answer_one _ y⟩

/-! The hold of `FX.BITCRUSH` (R284). -/

theorem bitcrush_of_full {x : Ctx} {ins : Instrument} {i : Slot} (v : Num)
    (full : Num.one.le (i.crushPhase.add (x.cfg.crushStep ins.bitcrusherFreq x.sampleRate)) = true) :
    let q := x.cfg.crushQuantum ins.bitcrusherQuantization
    let hold := ((v.div q).floor.add .half).mul q
    bitcrush x ins i v = (hold, { i with
      crushPhase := (i.crushPhase.add (x.cfg.crushStep ins.bitcrusherFreq x.sampleRate)).sub .one
      crushHold := hold }) := by
  simp [bitcrush, full]

theorem bitcrush_of_held {x : Ctx} {ins : Instrument} {i : Slot} (v : Num)
    (held : Num.one.le (i.crushPhase.add (x.cfg.crushStep ins.bitcrusherFreq x.sampleRate)) = false) :
    bitcrush x ins i v = (i.crushHold, { i with
      crushPhase := i.crushPhase.add (x.cfg.crushStep ins.bitcrusherFreq x.sampleRate) }) := by
  simp [bitcrush, held]

/-! The cascade (R154). -/

theorem cascade_zero (fs : List Biquad) (v : Num) : cascade 0 fs v = (v, fs) := by cases fs <;> rfl

theorem cascade_length (n : Nat) (fs : List Biquad) (v : Num) : (cascade n fs v).2.length = fs.length := by
  induction n generalizing fs v with
  | zero => rw [cascade_zero]
  | succ n ih =>
    cases fs with
    | nil => rfl
    | cons f rest => exact congrArg Nat.succ (ih rest _)

end Sys2Proof.Machine

namespace Sys2Proof.Proofs

open Sys2Proof.Machine

/-- Settles O45, stage by stage; the effect filter by the cascade of its biquads. -/
theorem monoEffects : Obligations.MonoEffects := by
  intro s u v i ins clear hi hins
  refine ⟨?distort, fun full => ?sampled, fun held => ?held,
    ⟨(cascade i.fxFilterCount i.fxFilters v).2, (cascade i.fxFilterCount i.fxFilters v).1, ?filter,
      cascade_length .., fun none => ?noBiquad, fun n f rest count first => ?biquads⟩,
    fun u' none => ⟨?noDistort, ?noBitcrush, ?noFilter⟩⟩
  case distort => exact monoStage_gives (op := .fxDistort u v) rfl clear hi hins rfl
  case sampled => exact monoStage_gives rfl clear hi hins (bitcrush_of_full v full)
  case held => exact monoStage_gives rfl clear hi hins (bitcrush_of_held v held)
  case filter => exact monoStage_gives (op := .fxFilter u v) rfl clear hi hins rfl
  case noBiquad =>
    rw [none, cascade_zero]
    exact ⟨rfl, rfl⟩
  case biquads =>
    rw [count, first]
    exact ⟨rfl, rfl⟩
  case noDistort | noBitcrush | noFilter => exact congrArg Host.Outcome.next (monoStage_of_none clear none)

end Sys2Proof.Proofs
end

section
set_option Elab.async false
/-! SUPPORT. The four-element register groups: what a read returns after a write, and writes of one element. -/

namespace Sys2Proof.Machine

theorem get4_set4_same (v : Vector Num 4) {i : Nat} (inside : i < 4) (y : Num) : get4 (set4 v i y) i = y := by
  simp [get4, set4, Vector.toArray_setIfInBounds, Array.getD_eq_getD_getElem?, inside]

theorem get4_set4_other (v : Vector Num 4) {i j : Nat} (ne : i ≠ j) (y : Num) : get4 (set4 v i y) j = get4 v j := by
  simp [get4, set4, Vector.toArray_setIfInBounds, Array.getD_eq_getD_getElem?, ne]

theorem get4_of_lt (v : Vector Num 4) {i : Nat} (inside : i < 4) : get4 v i = v[i] := by
  simp [get4, Array.getD_eq_getD_getElem?, inside]

/-- Two groups are the same when their four elements are. -/
theorem eq_of_get4 {v w : Vector Num 4} (same : ∀ i < 4, get4 v i = get4 w i) : v = w := by
  ext i inside
  rw [← get4_of_lt v inside, ← get4_of_lt w inside, same i inside]

theorem get4_set4 (v : Vector Num 4) {i : Nat} (inside : i < 4) (y : Num) (j : Nat) :
    get4 (set4 v i y) j = if i = j then y else get4 v j := by
  split
  next same => rw [← same, get4_set4_same v inside]
  next ne => exact get4_set4_other v ne y

theorem set4_set4_same (v : Vector Num 4) {i : Nat} (inside : i < 4) (y z : Num) :
    set4 (set4 v i y) i z = set4 v i z :=
  eq_of_get4 fun j _ => by simp only [get4_set4 _ inside]; split <;> rfl

theorem set4_get4 (v : Vector Num 4) {i : Nat} (inside : i < 4) : set4 v i (get4 v i) = v :=
  eq_of_get4 fun j _ => by
    rw [get4_set4 _ inside]
    split
    next same => rw [same]
    next => rfl

theorem set4_comm (v : Vector Num 4) {i j : Nat} (hi : i < 4) (hj : j < 4) (ne : i ≠ j) (y z : Num) :
    set4 (set4 v i y) j z = set4 (set4 v j z) i y :=
  eq_of_get4 fun k _ => by
    simp only [get4_set4 _ hi, get4_set4 _ hj]
    split_ifs with h1 h2
    · exact absurd (h2.trans h1.symm) ne
    all_goals rfl

end Sys2Proof.Machine
end

section
set_option Elab.async false
/-! PROOFS. `TONE.COMPUTE` (`43_tone_voicing.md` R212 to R226): what each step of the parameter update writes, and that
every step completes where the envelopes it evaluates are known. -/

namespace Sys2Proof.Machine

/-! Envelopes (R217). -/

theorem envelopeEnds_of_known {x : Ctx} {entry : Nat} (known : (x.cfg.envelopes.get entry).kind < 9) (u key : Nat)
    (s b n : Ends) : ∃ env, envelopeEnds x u key entry s b n = .ok env := by
  obtain ⟨p, hp⟩ := exists_envelopeCurve x.cfg known s.start b.start (x.cfg.envelopes.get entry).speed n.start
    (x.free .voice [u, key])
  obtain ⟨q, hq⟩ := exists_envelopeCurve x.cfg known s.finish b.finish (x.cfg.envelopes.get entry).speed n.finish
    (x.free .voice [u, key + 1])
  exact ⟨⟨p, q⟩, by simp only [envelopeEnds, hp, hq]⟩

/-- An envelope of the update, at the two ends of its run. -/
def Voice.envelope (v : Voice) (x : Ctx) (key entry : Nat) (env : Ends) : Prop :=
  envelopeEnds x v.u key entry v.seconds v.beats v.noteExpression = .ok env

theorem Voice.envelope_of_known {v : Voice} {x : Ctx} {entry : Nat}
    (known : (x.cfg.envelopes.get entry).kind < 9) (key : Nat) : ∃ env, v.envelope x key entry env :=
  envelopeEnds_of_known known ..

/-- The change of a quantity per sample of the run. -/
def Voice.slope (v : Voice) (p q : Num) : Num := (q.sub p).div (Num.ofNat v.runLength)

/-! The last tick (R222). -/

/-- When the update marks a tone, or finds it marked. -/
def LastTick (c : Cfg) (ins : Instrument) (t : Tone) : Prop :=
  t.isLastTick = true ∨ (t.state = .released ∧
    ((c.transitions.get ins.transition).releaseTicks ≤ t.ticksSinceReleased + 1 ∨ t.fadeOutFast = true))

theorem markLastTick_spec (c : Cfg) (ins : Instrument) (t : Tone) :
    ∃ m, markLastTick c ins t = { t with isLastTick := m } ∧ (m = true ↔ LastTick c ins t) := by
  unfold markLastTick LastTick
  split
  next released =>
    split
    next last => exact ⟨true, rfl, by simp [released, last]⟩
    next early => exact ⟨t.isLastTick, rfl, by simp [released, early]⟩
  next other => exact ⟨t.isLastTick, rfl, by simpa using fun released => absurd released other⟩

/-! The pulse width (R217). -/

/-- The pulse width and its change as the update leaves them. -/
structure PulseLeft (x : Ctx) (v : Voice) (t : Tone) (width delta : Num) : Prop where
  pwm : v.ins.kind = kindPwm → ∃ env, v.envelope x 70 v.ins.pulseEnvelope env ∧
    width = (x.cfg.pulseWidthOf v.ins.pulseWidth).mul env.start ∧
    delta = v.slope width ((x.cfg.pulseWidthOf v.ins.pulseWidth).mul env.finish)
  guitar : v.ins.kind = kindGuitar → width = x.cfg.pulseWidthOf v.ins.pulseWidth
  sameDelta : v.ins.kind ≠ kindPwm → delta = t.pulseWidthDelta
  sameWidth : v.ins.kind ≠ kindPwm → v.ins.kind ≠ kindGuitar → width = t.pulseWidth

theorem updatePulse_spec {x : Ctx} {v : Voice} (t : Tone)
    (known : v.ins.kind = kindPwm → (x.cfg.envelopes.get v.ins.pulseEnvelope).kind < 9) :
    ∃ width delta, updatePulse x v t = .ok { t with pulseWidth := width, pulseWidthDelta := delta } ∧
      PulseLeft x v t width delta := by
  unfold updatePulse
  split
  next pwm =>
    obtain ⟨env, henv⟩ := Voice.envelope_of_known (known pwm) (v := v) 70
    rw [henv]
    exact ⟨_, _, rfl, fun _ => ⟨env, henv, rfl, rfl⟩, fun guitar => absurd (pwm.symm.trans guitar) (by decide),
      fun other => absurd pwm other, fun other => absurd pwm other⟩
  next notPwm =>
    split
    next guitar => exact ⟨_, _, rfl, fun pwm => absurd pwm notPwm, fun _ => rfl, fun _ => rfl,
      fun _ other => absurd guitar other⟩
    next notGuitar => exact ⟨_, _, rfl, fun pwm => absurd pwm notPwm, fun guitar => absurd guitar notGuitar,
      fun _ => rfl, fun _ _ => rfl⟩

/-! The expressions (R217, R219, R257). -/

/-- The expression of operator `k` at an end of the run: of a carrier with the tone's common level `e`, of a modulator
without (R217). -/
def operatorLevel (x : Ctx) (v : Voice) (k : Nat) (o : Operator) (e g : Num) : Num :=
  if (x.cfg.algorithms.get v.ins.algorithm).isCarrier.toList.getD k false then
    ((((x.cfg.operatorAmplitude o.amplitude).mul g).mul (x.cfg.fmCarrierExpressionOf v.pitchNumber)).mul
      (x.cfg.sineExpressionBoostOf v.ins)).mul e
  else (((x.cfg.operatorAmplitude o.amplitude).mul g).mul (Num.ofNat x.cfg.sineWaveLength)).mul x.cfg.fmModulatorScaleOf

/-- The expressions of operator `k` as the update leaves them. -/
def OperatorLeft (x : Ctx) (v : Voice) (k : Nat) (o : Operator) (starts deltas : Vector Num 4) : Prop :=
  ∃ env, v.envelope x (40 + 2 * k) o.envelope env ∧
    get4 starts k = operatorLevel x v k o v.common.start env.start ∧
    get4 deltas k = v.slope (operatorLevel x v k o v.common.start env.start)
      (operatorLevel x v k o v.common.finish env.finish)

/-- One operator's step of the update. -/
theorem updateOperators_cons {x : Ctx} {v : Voice} {k : Nat} {o : Operator} {rest : List Operator} {env : Ends}
    (henv : v.envelope x (40 + 2 * k) o.envelope env) (t : Tone) :
    updateOperators x v k (o :: rest) t = updateOperators x v (k + 1) rest { t with
      expressionStarts := set4 t.expressionStarts k (operatorLevel x v k o v.common.start env.start)
      expressionDeltas := set4 t.expressionDeltas k (v.slope (operatorLevel x v k o v.common.start env.start)
        (operatorLevel x v k o v.common.finish env.finish)) } := by
  unfold Voice.envelope at henv
  rw [updateOperators, henv]
  unfold operatorLevel
  dsimp only
  split <;> rfl

theorem updateOperators_spec {x : Ctx} {v : Voice} (k : Nat) {ops : List Operator} (t : Tone)
    (known : ∀ o ∈ ops, (x.cfg.envelopes.get o.envelope).kind < 9) :
    ∃ starts deltas, updateOperators x v k ops t =
        .ok { t with expressionStarts := starts, expressionDeltas := deltas } ∧
      (∀ j < k, get4 starts j = get4 t.expressionStarts j ∧ get4 deltas j = get4 t.expressionDeltas j) ∧
      ∀ j o, k + j < 4 → ops[j]? = some o → OperatorLeft x v (k + j) o starts deltas := by
  induction ops generalizing k t with
  | nil => exact ⟨_, _, rfl, fun _ _ => ⟨rfl, rfl⟩, fun j o _ missing => nomatch missing⟩
  | cons o rest ih =>
    obtain ⟨first, others⟩ := List.forall_mem_cons.mp known
    obtain ⟨env, henv⟩ := Voice.envelope_of_known first (v := v) (40 + 2 * k)
    obtain ⟨starts, deltas, run, below, above⟩ := ih (k + 1) _ others
    refine ⟨starts, deltas, (updateOperators_cons henv t).trans run, fun j lt => ?_, fun j o' inside found => ?_⟩
    · obtain ⟨hs, hd⟩ := below j (by omega)
      exact ⟨hs.trans (get4_set4_other _ (by omega) _), hd.trans (get4_set4_other _ (by omega) _)⟩
    · cases j with
      | zero =>
        cases found
        obtain ⟨hs, hd⟩ := below k k.lt_succ_self
        exact ⟨env, henv, hs.trans (get4_set4_same _ inside _), hd.trans (get4_set4_same _ inside _)⟩
      | succ j =>
        have next := above j o' (by omega) found
        rwa [Nat.succ_add_eq_add_succ] at next

/-- The expressions and the feedback as the update leaves them. -/
structure LevelsLeft (x : Ctx) (v : Voice) (t : Tone) (starts deltas : Vector Num 4) (mult delta : Num) : Prop where
  ramp : v.ins.kind ≠ kindFm → starts = set4 t.expressionStarts 0 v.common.start ∧
    deltas = set4 t.expressionDeltas 0 (v.slope v.common.start v.common.finish)
  same : v.ins.kind ≠ kindFm → mult = t.feedbackMult ∧ delta = t.feedbackDelta
  feedback : v.ins.kind = kindFm → ∃ env, v.envelope x 60 v.ins.feedbackEnvelope env ∧
    mult = (x.cfg.feedbackGain v.ins.feedbackAmplitude).mul env.start ∧
    delta = v.slope mult ((x.cfg.feedbackGain v.ins.feedbackAmplitude).mul env.finish)
  operators : v.ins.kind = kindFm → ∀ j o, j < 4 → v.ins.operators[j]? = some o → OperatorLeft x v j o starts deltas

theorem updateLevels_spec {x : Ctx} {v : Voice} (t : Tone)
    (known : v.ins.kind = kindFm → (x.cfg.envelopes.get v.ins.feedbackEnvelope).kind < 9 ∧
      ∀ o ∈ v.ins.operators, (x.cfg.envelopes.get o.envelope).kind < 9) :
    ∃ starts deltas mult delta, updateLevels x v t = .ok { t with
        expressionStarts := starts, expressionDeltas := deltas, feedbackMult := mult, feedbackDelta := delta } ∧
      LevelsLeft x v t starts deltas mult delta := by
  unfold updateLevels
  split
  next fm =>
    obtain ⟨feedback, operators⟩ := known fm
    obtain ⟨env, henv⟩ := Voice.envelope_of_known feedback (v := v) 60
    obtain ⟨starts, deltas, run, -, left⟩ := updateOperators_spec (v := v) 0 t operators
    rw [run]
    dsimp only [updateFeedback]
    rw [henv]
    refine ⟨starts, deltas, _, _, rfl, fun other => absurd fm other, fun other => absurd fm other,
      fun _ => ⟨env, henv, rfl, rfl⟩, fun _ j o inside found => ?_⟩
    have := left j o (by omega) found
    rwa [Nat.zero_add] at this
  next other =>
    exact ⟨_, _, _, _, rfl, fun _ => ⟨rfl, rfl⟩, fun _ => ⟨rfl, rfl⟩, fun fm => absurd fm other,
      fun fm => absurd fm other⟩

/-! The filter (R151, R218). -/

/-- The envelope of a tone's filter: of a drumset that of the drum (R217). -/
def filterEntry (ins : Instrument) (t : Tone) : Nat :=
  if ins.kind = kindDrumset then ins.drumEnvelopes.getD t.drumsetPitch 0 else ins.filterEnvelope

/-- The set of a control point whose corner an envelope scales. -/
def scaledCoefs (x : Ctx) (p : FilterPoint) (g : Num) : CoefSet :=
  pointCoefs x.cfg x.sampleRate p.kind
    (Num.clamp .zero (Num.ofNat (x.cfg.filterFreqRange - 1)) ((Num.ofNat p.freq).mul g)) p.gain

theorem loadStages_at {x : Ctx} {invN : Num} {e : Ends} {points : List FilterPoint} {stages : List Biquad} {j : Nat}
    {p : FilterPoint} {f : Biquad} (hp : points[j]? = some p) (hf : stages[j]? = some f) :
    (loadStages x invN e points stages)[j]? =
      some (loadGradient f (scaledCoefs x p e.start) (scaledCoefs x p e.finish) invN) := by
  induction points generalizing stages j with
  | nil => nomatch hp
  | cons q ps ih =>
    cases stages with
    | nil => nomatch hf
    | cons g fs =>
      cases j with
      | zero => cases hp; cases hf; rfl
      | succ j => exact ih (j := j) hp hf

theorem loadStages_above {x : Ctx} {invN : Num} {e : Ends} {points : List FilterPoint} {stages : List Biquad} {j : Nat}
    (above : points.length ≤ j) : (loadStages x invN e points stages)[j]? = stages[j]? := by
  induction points generalizing stages j with
  | nil => cases stages <;> rfl
  | cons q ps ih =>
    cases stages with
    | nil => rfl
    | cons g fs =>
      cases j with
      | zero => nomatch above
      | succ j => exact ih (j := j) (Nat.le_of_succ_le_succ above)

/-- The stages of the filter as the update leaves them. -/
structure FiltersLeft (x : Ctx) (v : Voice) (t : Tone) (filters : List Biquad) : Prop where
  loaded : ∀ (j : Nat) (p : FilterPoint) (f : Biquad), v.ins.filter[j]? = some p → t.filters[j]? = some f →
    ∃ env, v.envelope x 30 (filterEntry v.ins t) env ∧ filters[j]? =
      some (loadGradient f (scaledCoefs x p env.start) (scaledCoefs x p env.finish) (invLength v.runLength))
  same : ∀ j : Nat, v.ins.filter.length ≤ j → filters[j]? = t.filters[j]?

theorem updateFilters_spec {x : Ctx} {v : Voice} (t : Tone)
    (known : v.ins.filter.isEmpty = false → (x.cfg.envelopes.get (filterEntry v.ins t)).kind < 9) :
    ∃ filters, updateFilters x v t = .ok { t with filters := filters, filterCount := v.ins.filter.length } ∧
      FiltersLeft x v t filters := by
  unfold updateFilters
  split
  next empty =>
    have none := List.isEmpty_iff.mp empty
    refine ⟨t.filters, by rw [none]; rfl, fun j p f hp => ?_, fun _ _ => rfl⟩
    rw [none] at hp
    nomatch hp
  next points =>
    obtain ⟨env, henv⟩ := Voice.envelope_of_known (known (Bool.eq_false_iff.mpr points)) (v := v) 30
    have found : envelopeEnds x v.u 30 (filterEntry v.ins t) v.seconds v.beats v.noteExpression = .ok env := henv
    unfold filterEntry at found
    dsimp only
    rw [found]
    exact ⟨_, rfl, fun j p f hp hf => ⟨env, henv, loadStages_at hp hf⟩, fun j above => loadStages_above above⟩

/-! The phase increments (R220). -/

/-- The frequency of the tone at an end of the run. -/
def Voice.freq (v : Voice) (x : Ctx) (interval : Num) : Num := x.cfg.pitchHz (v.pitchNumber.add interval)

/-- The interval multipliers of a chip or harmonics tone (R220, R242). -/
structure IntervalLeft (x : Ctx) (v : Voice) (pitches : List Nat) (mult expression : Num) : Prop where
  table : (x.cfg.chords.get v.ins.chord).customInterval = false → expression = .one ∧
    mult = semitones x.cfg (Num.two.mul (x.cfg.intervals.get v.ins.interval).spread)
  custom : ∀ p0 p1 rest, (x.cfg.chords.get v.ins.chord).customInterval = true → pitches = p0 :: p1 :: rest →
    mult = semitones x.cfg (Num.ofInt ((p1 : Int) - p0)) ∧
    expression = x.cfg.customIntervalExpressionOf ((p1 : Int) - p0)

theorem updateInterval_spec (x : Ctx) (v : Voice) (t : Tone) : ∃ mult expression,
    updateInterval x v t = { t with intervalMult := mult, intervalExpressionMult := expression } ∧
      IntervalLeft x v t.pitches mult expression := by
  unfold updateInterval
  dsimp only
  split
  next p0 p1 rest custom pitches =>
    refine ⟨_, _, rfl, fun plain => (nomatch custom.symm.trans plain), fun q0 q1 rest' _ same => ?_⟩
    cases pitches.symm.trans same
    exact ⟨rfl, rfl⟩
  next other =>
    exact ⟨_, _, rfl, fun _ => ⟨rfl, rfl⟩, fun p0 p1 rest custom pitches => (other p0 p1 rest custom pitches).elim⟩

theorem operatorDeltas_spec (x : Ctx) (freq : Num) (ins : Instrument) (k : Nat) (ops : List Operator)
    (d : Vector Num 4) :
    (∀ j < k, get4 (operatorDeltas x freq ins k ops d) j = get4 d j) ∧
      ∀ j o, k + j < 4 → ops[j]? = some o → get4 (operatorDeltas x freq ins k ops d) (k + j) =
        phaseIncrement x freq (x.cfg.fmFrequencyRatioOf o.frequency) ins := by
  induction ops generalizing k d with
  | nil => exact ⟨fun _ _ => rfl, fun j o _ missing => nomatch missing⟩
  | cons o rest ih =>
    obtain ⟨below, above⟩ := ih (k + 1)
      (set4 d k (phaseIncrement x freq (x.cfg.fmFrequencyRatioOf o.frequency) ins))
    refine ⟨fun j lt => (below j (by omega)).trans (get4_set4_other _ (by omega) _), fun j o' inside found => ?_⟩
    cases j with
    | zero => cases found; exact (below k k.lt_succ_self).trans (get4_set4_same _ inside _)
    | succ j =>
      have next := above j o' (by omega) found
      rwa [Nat.succ_add_eq_add_succ] at next

/-- The phase increments, their scale and the interval multipliers as the update leaves them. -/
structure PhasesLeft (x : Ctx) (v : Voice) (t : Tone) (scale : Num) (deltas : Vector Num 4)
    (mult expression : Num) : Prop where
  scale : scale = if v.interval.finish.eq v.interval.start then .one
    else x.cfg.powOf ((v.freq x v.interval.finish).div (v.freq x v.interval.start)) (invLength v.runLength)
  integrated : v.ins.kind = kindChip ∨ v.ins.kind = kindHarmonics →
    let iv := x.cfg.intervals.get v.ins.interval
    let d := phaseIncrement x (v.freq x v.interval.start) (semitones x.cfg (iv.offset.sub iv.spread)) v.ins
    deltas = set4 (set4 t.phaseDeltas 0 d) 1 (d.mul mult) ∧ IntervalLeft x v t.pitches mult expression
  single : v.ins.kind = kindNoise ∨ v.ins.kind = kindSpectrum ∨ v.ins.kind = kindDrumset ∨ v.ins.kind = kindPwm →
    deltas = set4 t.phaseDeltas 0 (phaseIncrement x (v.freq x v.interval.start) .one v.ins)
  guitar : v.ins.kind = kindGuitar → deltas = t.phaseDeltas
  operators : v.ins.kind = kindFm → ∀ j o, j < 4 → v.ins.operators[j]? = some o → get4 deltas j =
    phaseIncrement x (v.freq x v.interval.start) (x.cfg.fmFrequencyRatioOf o.frequency) v.ins
  same : v.ins.kind ≠ kindChip → v.ins.kind ≠ kindHarmonics →
    mult = t.intervalMult ∧ expression = t.intervalExpressionMult

theorem updatePhases_spec (x : Ctx) (v : Voice) (t : Tone) : ∃ scale deltas mult expression,
    updatePhases x v t = { t with
      phaseDeltaScale := scale, phaseDeltas := deltas, intervalMult := mult, intervalExpressionMult := expression } ∧
      PhasesLeft x v t scale deltas mult expression := by
  unfold updatePhases
  dsimp only
  split
  next integrated =>
    obtain ⟨mult, expression, run, left⟩ := updateInterval_spec x v { t with
      phaseDeltaScale := if v.interval.finish.eq v.interval.start then .one
        else x.cfg.powOf ((v.freq x v.interval.finish).div (v.freq x v.interval.start)) (invLength v.runLength) }
    unfold Voice.freq at run
    rw [run]
    refine ⟨_, _, mult, expression, rfl, rfl, fun _ => ⟨rfl, left.table, left.custom⟩, fun single => ?_, fun guitar => ?_,
      fun fm => ?_, fun notChip notHarmonics => ?_⟩
    · obtain kind | kind := integrated <;> rw [kind] at single <;> exact absurd single (by decide)
    · obtain kind | kind := integrated <;> exact absurd (kind.symm.trans guitar) (by decide)
    · obtain kind | kind := integrated <;> exact absurd (kind.symm.trans fm) (by decide)
    · exact (integrated.elim notChip notHarmonics).elim
  next notIntegrated =>
    split
    next fm =>
      refine ⟨_, _, _, _, rfl, rfl, fun kind => absurd kind notIntegrated, fun single => ?_, fun guitar => ?_,
        fun _ j o inside found => ?_, fun _ _ => ⟨rfl, rfl⟩⟩
      · rw [fm] at single
        exact absurd single (by decide)
      · exact absurd (fm.symm.trans guitar) (by decide)
      · have := (operatorDeltas_spec x (v.freq x v.interval.start) v.ins 0 v.ins.operators t.phaseDeltas).2 j o
          (by omega) found
        rwa [Nat.zero_add] at this
    next notFm =>
      split
      next guitar =>
        refine ⟨_, _, _, _, rfl, rfl, fun kind => absurd kind notIntegrated, fun single => ?_, fun _ => rfl,
          fun fm => absurd fm notFm, fun _ _ => ⟨rfl, rfl⟩⟩
        rw [guitar] at single
        exact absurd single (by decide)
      next notGuitar =>
        exact ⟨_, _, _, _, rfl, rfl, fun kind => absurd kind notIntegrated, fun _ => rfl,
          fun guitar => absurd guitar notGuitar, fun fm => absurd fm notFm, fun _ _ => ⟨rfl, rfl⟩⟩

/-! The strings (R261). -/

theorem updateStrings_at {x : Ctx} {v : Voice} {t : Tone} {pitches : List Nat} {strings : List StringState} {j p : Nat}
    {w : StringState} (hp : pitches[j]? = some p) (hw : strings[j]? = some w) :
    (updateStrings x v t pitches strings)[j]? = some (updateString x v t p w) := by
  induction pitches generalizing strings j with
  | nil => nomatch hp
  | cons q ps ih =>
    cases strings with
    | nil => nomatch hw
    | cons z zs =>
      cases j with
      | zero => cases hp; cases hw; rfl
      | succ j => exact ih (j := j) hp hw

/-- The loop delay at the start of the run: that of the design where the string is plucked (R263). -/
theorem plucks_iff {t : Tone} {p : Nat} {w : StringState} :
    plucks t p w = true ↔ t.atNoteStart = true ∨ w.pluckedPitch ≠ some p := by
  simp [plucks]

/-! The whole update (R212). -/

/-- What the parameter update makes of a tone: every field that it writes, and that it writes no other. -/
structure Tone.Updated (x : Ctx) (v : Voice) (t b : Tone) : Prop where
  frame : b = { t with
    isLastTick := b.isLastTick, drumsetPitch := b.drumsetPitch
    phaseDeltas := b.phaseDeltas, phaseDeltaScale := b.phaseDeltaScale
    expressionStarts := b.expressionStarts, expressionDeltas := b.expressionDeltas
    intervalMult := b.intervalMult, intervalExpressionMult := b.intervalExpressionMult
    pulseWidth := b.pulseWidth, pulseWidthDelta := b.pulseWidthDelta
    feedbackMult := b.feedbackMult, feedbackDelta := b.feedbackDelta
    filters := b.filters, filterCount := v.ins.filter.length, strings := b.strings }
  lastTick : b.isLastTick = true ↔ LastTick x.cfg v.ins t
  drum : b.drumsetPitch = if v.ins.kind = kindDrumset then drumsetPitchOf t else t.drumsetPitch
  pulse : PulseLeft x v t b.pulseWidth b.pulseWidthDelta
  levels : LevelsLeft x v t b.expressionStarts b.expressionDeltas b.feedbackMult b.feedbackDelta
  filters : FiltersLeft x v { t with drumsetPitch := b.drumsetPitch } b.filters
  phases : PhasesLeft x v t b.phaseDeltaScale b.phaseDeltas b.intervalMult b.intervalExpressionMult
  sameStrings : v.ins.kind ≠ kindGuitar → b.strings = t.strings
  strings : v.ins.kind = kindGuitar → ∀ (j p : Nat) (w : StringState), t.pitches[j]? = some p →
    t.strings[j]? = some w → b.strings[j]? = some (updateString x v t p w)

/-- The tone as the steps of the update find it: marked at its last tick, a drum's pitch taken. -/
theorem marked_spec (x : Ctx) (ins : Instrument) (t : Tone) : ∃ m,
    (if ins.kind = kindDrumset then
        { markLastTick x.cfg ins t with drumsetPitch := drumsetPitchOf (markLastTick x.cfg ins t) }
      else markLastTick x.cfg ins t) =
      { t with
        isLastTick := m
        drumsetPitch := if ins.kind = kindDrumset then drumsetPitchOf t else t.drumsetPitch } ∧
      (m = true ↔ LastTick x.cfg ins t) := by
  obtain ⟨m, marked, last⟩ := markLastTick_spec x.cfg ins t
  refine ⟨m, ?_, last⟩
  rw [marked]
  split <;> rfl

/-- The envelope of a filter after a drum's pitch was taken. -/
theorem filterEntry_of_drum {ins : Instrument} {t a : Tone}
    (drum : t.drumsetPitch = if ins.kind = kindDrumset then drumsetPitchOf a else a.drumsetPitch) :
    filterEntry ins t = if ins.kind = kindDrumset then ins.drumEnvelopes.getD (drumsetPitchOf a) 0
      else ins.filterEnvelope := by
  unfold filterEntry
  split
  next drums => rw [drum, if_pos drums]
  next => rfl

/-- The envelopes that the update evaluates, step by step (R217, R218). -/
theorem usedEnvelopes_known {ins : Instrument} {t : Tone} {P : Nat → Prop} (known : ∀ k ∈ usedEnvelopes ins t, P k) :
    (ins.filter.isEmpty = false → P (if ins.kind = kindDrumset then ins.drumEnvelopes.getD (drumsetPitchOf t) 0
      else ins.filterEnvelope)) ∧
    (ins.kind = kindFm → P ins.feedbackEnvelope ∧ ∀ o ∈ ins.operators, P o.envelope) ∧
    (ins.kind = kindPwm → P ins.pulseEnvelope) := by
  unfold usedEnvelopes at known
  refine ⟨fun points => known _ ?_, fun fm => ⟨known _ ?_, fun o ho => known _ ?_⟩, fun pwm => known _ ?_⟩
  · by_cases drums : ins.kind = kindDrumset <;> simp [drums, points]
  · simp [fm]
  · have : o.envelope ∈ ins.operators.map Operator.envelope := List.mem_map_of_mem ho
    simp [fm, this]
  · simp [pwm]

/-- The update by what its steps answer. -/
theorem computeTone_of_steps {x : Ctx} {k : Clock} {u n : Nat} {ins : Instrument} {t t1 t2 t3 t4 t5 : Tone}
    (kind : ins.kind < 8)
    (marked : (if ins.kind = kindDrumset then
        { markLastTick x.cfg ins t with drumsetPitch := drumsetPitchOf (markLastTick x.cfg ins t) }
      else markLastTick x.cfg ins t) = t1)
    (pulsed : updatePulse x (voiceOf x k u n ins t) t1 = .ok t2)
    (levelled : updateLevels x (voiceOf x k u n ins t) t2 = .ok t3)
    (filtered : updateFilters x (voiceOf x k u n ins t) t3 = .ok t4)
    (phased : updatePhases x (voiceOf x k u n ins t) t4 = t5) :
    computeTone x k u n ins t = .ok { t5 with
      strings := if ins.kind = kindGuitar then updateStrings x (voiceOf x k u n ins t) t5 t5.pitches t5.strings
        else t5.strings } := by
  unfold computeTone
  dsimp only
  rw [if_neg (Nat.not_le.mpr kind), marked, pulsed]
  dsimp only
  rw [levelled]
  dsimp only
  rw [filtered]
  dsimp only
  rw [phased]
  split <;> rfl

/-- The update of a tone of a known kind whose envelopes are known completes. -/
theorem computeTone_updated {x : Ctx} {ins : Instrument} {t : Tone} (k : Clock) (u n : Nat) (kind : ins.kind < 8)
    (known : ∀ k ∈ usedEnvelopes ins t, (x.cfg.envelopes.get k).kind < 9) :
    ∃ b, computeTone x k u n ins t = .ok b ∧ t.Updated x (voiceOf x k u n ins t) b := by
  obtain ⟨filter, fm, pwm⟩ := usedEnvelopes_known known
  obtain ⟨m, marked, last⟩ := marked_spec x ins t
  obtain ⟨width, delta, pulsed, pulse⟩ := updatePulse_spec (v := voiceOf x k u n ins t) { t with
    isLastTick := m, drumsetPitch := if ins.kind = kindDrumset then drumsetPitchOf t else t.drumsetPitch } pwm
  dsimp only at pulsed
  obtain ⟨starts, deltas, mult, change, levelled, levels⟩ := updateLevels_spec (v := voiceOf x k u n ins t) { t with
    isLastTick := m, drumsetPitch := if ins.kind = kindDrumset then drumsetPitchOf t else t.drumsetPitch
    pulseWidth := width, pulseWidthDelta := delta } fm
  dsimp only at levelled
  obtain ⟨filters, filtered, stages⟩ := updateFilters_spec (x := x) (v := voiceOf x k u n ins t) { t with
    isLastTick := m, drumsetPitch := if ins.kind = kindDrumset then drumsetPitchOf t else t.drumsetPitch
    pulseWidth := width, pulseWidthDelta := delta, expressionStarts := starts, expressionDeltas := deltas
    feedbackMult := mult, feedbackDelta := change } fun points =>
      (congrArg (fun e => (x.cfg.envelopes.get e).kind < 9) (filterEntry_of_drum (a := t) rfl)).mpr (filter points)
  dsimp only at filtered
  obtain ⟨scale, increments, factor, expression, phased, phases⟩ := updatePhases_spec x (voiceOf x k u n ins t) { t with
    isLastTick := m, drumsetPitch := if ins.kind = kindDrumset then drumsetPitchOf t else t.drumsetPitch
    pulseWidth := width, pulseWidthDelta := delta, expressionStarts := starts, expressionDeltas := deltas
    feedbackMult := mult, feedbackDelta := change, filters := filters, filterCount := ins.filter.length }
  dsimp only at phased
  refine ⟨_, computeTone_of_steps kind marked pulsed levelled filtered phased, rfl, last, rfl,
    ⟨pulse.pwm, pulse.guitar, pulse.sameDelta, pulse.sameWidth⟩,
    ⟨levels.ramp, levels.same, levels.feedback, levels.operators⟩, ⟨stages.loaded, stages.same⟩,
    ⟨phases.scale, phases.integrated, phases.single, phases.guitar, phases.operators, phases.same⟩,
    fun other => if_neg other, fun guitar j p w hp hw => ?_⟩
  exact (congrArg (·[j]?) (if_pos guitar)).trans (updateStrings_at hp hw)

theorem exec_toneCompute {s : State} {u n : Nat} {a b : Tone} {ins : Instrument} (clear : s.fault = false)
    (ha : s.eng.tones[u]? = some a) (used : a.state ≠ .free) (hins : slotInstrument s.song a.instrument = some ins)
    (positive : 1 ≤ n) (inside : n ≤ s.eng.runMax Config.cfg)
    (run : computeTone (s.ctx Config.cfg (.toneCompute u n)) s.eng.clock u n ins a = .ok b) :
    exec (.toneCompute u n) s = .next { s with eng := { s.eng with tones := s.eng.tones.set u b } } := by
  have legal : runLengthLegal (s.ctx Config.cfg (.toneCompute u n)).cfg s.eng n = true :=
    Bool.and_eq_true_iff.mpr ⟨decide_eq_true positive, decide_eq_true inside⟩
  have slot : computeSlot (s.ctx Config.cfg (.toneCompute u n)) u n s.eng a = .ok (s.eng.setTone u b) := by
    have found : slotInstrument (s.ctx Config.cfg (.toneCompute u n)).song a.instrument = some ins := hins
    rw [computeSlot, found]
    dsimp only
    rw [run]
    rfl
  show Host.Outcome.next (toneComputeWith _ s u n) = _
  rw [toneComputeWith, if_neg (by simp [clear]), liveTone_eq_ok ha used]
  dsimp only
  rw [if_pos legal, slot]
  rfl

end Sys2Proof.Machine

namespace Sys2Proof.Proofs

open Sys2Proof.Machine

/-- Settles O40: the command by its update, the tone field by field by what the steps of the update leave. -/
theorem toneCompute : Obligations.ToneCompute := by
  intro s u n a ins clear ha used hins kind positive inside known
  obtain ⟨b, run, updated⟩ :=
    computeTone_updated (x := s.ctx Config.cfg (.toneCompute u n)) s.eng.clock u n kind known
  have entry := filterEntry_of_drum (t := { a with drumsetPitch := b.drumsetPitch }) updated.drum
  refine ⟨_, b, exec_toneCompute clear ha used hins positive inside run, rfl, updated.frame, updated.lastTick,
    updated.drum, updated.levels.ramp, updated.phases.scale, fun integrated => ?integrated, updated.phases.single,
    fun guitar => ⟨updated.phases.guitar guitar, updated.pulse.guitar guitar⟩, updated.pulse.pwm,
    fun fm => ⟨updated.levels.feedback fm, fun j o lt ho => ⟨updated.phases.operators fm j o lt ho, ?operator⟩⟩,
    updated.phases.same, fun other => ⟨updated.pulse.sameDelta other, updated.pulse.sameWidth other⟩,
    updated.levels.same, fun j p f hp hf => ?filter, updated.filters.same, updated.sameStrings,
    fun guitar j p w hp hw => ?string⟩
  case integrated =>
    obtain ⟨increments, interval⟩ := updated.phases.integrated integrated
    exact ⟨increments, interval.table, interval.custom⟩
  case operator =>
    obtain ⟨env, found, starts, deltas⟩ := updated.levels.operators fm j o lt ho
    exact ⟨env, found, starts, deltas⟩
  case filter =>
    obtain ⟨env, found, loaded⟩ := updated.filters.loaded j p f hp hf
    rw [entry] at found
    exact ⟨env, found, loaded⟩
  case string =>
    rw [updated.strings guitar j p w hp hw]
    unfold updateString
    simp only [plucks_iff]
    rfl

end Sys2Proof.Proofs
end

section
set_option Elab.async false

/-! SUPPORT. A synth loop as samples in order (R240): every loop is the iteration of one sample's step, adds one value
to each element of `SCRATCH` below the run length, and leaves a tone that its registers of each sample lead to. -/

namespace Sys2Proof.Machine

/-! A loop is the iteration of a step. -/

/-- `loop n i` runs `step i`, `step (i + 1)`, …, `n` of them. -/
structure LoopOf {σ : Type} (loop : Nat → Nat → σ → σ) (step : Nat → σ → σ) : Prop where
  zero : ∀ i s, loop 0 i s = s
  succ : ∀ n i s, loop (n + 1) i s = loop n (i + 1) (step i s)

/-- The last sample of a run is one step behind the samples before it. -/
theorem LoopOf.last {σ : Type} {loop : Nat → Nat → σ → σ} {step : Nat → σ → σ} (h : LoopOf loop step) (n i : Nat)
    (s : σ) : loop (n + 1) i s = step (i + n) (loop n i s) := by
  induction n generalizing i s with
  | zero => rw [h.succ, h.zero, h.zero, Nat.add_zero]
  | succ n ih => rw [h.succ, ih, h.succ n, Nat.succ_add_eq_add_succ]

/-- The step of a loop with the common tail (R240): `next` moves the loop's own registers, `sample` is what it hands to
the tail. -/
def tailed {σ : Type} (t : Tone) (next : σ → σ) (sample : Nat → σ → Num) (i : Nat) (p : σ × Tail) : σ × Tail :=
  (next p.1, tailStep t.filterCount (get4 t.expressionDeltas 0) i (sample i p.1) p.2)

section
variable (x : Ctx) (u : Nat) (t : Tone)

/-- The registers of a chip or harmonics loop after one sample (R242). -/
def chipNext (wave : List Num) (length : Nat) (st : ChipState) : ChipState :=
  let pa := wrapPhase (st.a.add st.da) (Num.ofNat length)
  let pb := wrapPhase (st.b.add st.db) (Num.ofNat length)
  ⟨pa, pb, st.da.mul t.phaseDeltaScale, st.db.mul t.phaseDeltaScale, interpolatedRead wave length pa,
    interpolatedRead wave length pb⟩

/-- The sample of a chip or harmonics loop before its filters (R242). -/
def chipSample (wave : List Num) (length : Nat) (mixMult : Num) (i : Nat) (st : ChipState) : Num :=
  let r := chipNext t wave length st
  openSample x u i (st.da.eq .zero || st.db.eq .zero)
    (((r.pa.sub st.pa).div st.da).add (((r.pb.sub st.pb).div st.db).mul mixMult))

theorem chipLoop_loopOf (wave : List Num) (length : Nat) (mixMult : Num) :
    LoopOf (fun n i (p : ChipState × Tail) => chipLoop x u t wave length mixMult n i p.1 p.2)
      (tailed t (chipNext t wave length) (chipSample x u t wave length mixMult)) :=
  ⟨fun _ _ => rfl, fun _ _ _ => rfl⟩

/-- The registers of a pwm loop after one sample (R246). -/
def pwmNext (st : PwmState) : PwmState :=
  ⟨wrapPhase (st.phase.add st.delta) .one, st.delta.mul t.phaseDeltaScale, st.width.add t.pulseWidthDelta⟩

theorem pwmLoop_loopOf :
    LoopOf (fun n i (p : PwmState × Tail) => pwmLoop x u t n i p.1 p.2)
      (tailed t (pwmNext t) fun i st => openSample x u i (st.delta.eq .zero) (pwmSample st.phase st.delta st.width)) :=
  ⟨fun _ _ => rfl, fun _ _ _ => rfl⟩

/-- The registers of a noise, spectrum or drumset loop after one sample (R249, R250). -/
def noiseNext (read : Num → Num) (length : Nat) (k : Num) (st : NoiseState) : NoiseState :=
  ⟨wrapPhase (st.phase.add st.delta) (Num.ofNat length), st.delta.mul t.phaseDeltaScale,
    st.sample.add (((read st.phase).sub st.sample).mul k)⟩

theorem noiseLoop_loopOf (read : Num → Num) (length : Nat) (k : Num) :
    LoopOf (fun n i (p : NoiseState × Tail) => noiseLoop x u t read length k n i p.1 p.2)
      (tailed t (noiseNext t read length k) fun i st =>
        openSample x u i (st.delta.eq .zero) (noiseNext t read length k st).sample) :=
  ⟨fun _ _ => rfl, fun _ _ _ => rfl⟩

theorem guitarLoop_loopOf (size : Nat) :
    LoopOf (fun n i (p : List StringState × Tail) => guitarLoop t size n i p.1 p.2)
      (tailed t (fun ss => (stringsStep size t.pitches.length .zero ss).2)
        fun _ ss => (stringsStep size t.pitches.length .zero ss).1) :=
  ⟨fun _ _ => rfl, fun _ _ _ => rfl⟩

/-- One sample of an FM loop (R255). -/
def fmStep (alg : Algorithm) (sources : List Nat) (wave : List Num) (length i : Nat) (st : FmState) : FmState :=
  fmLoop x u t alg sources wave length 1 i st

theorem fmLoop_loopOf (alg : Algorithm) (sources : List Nat) (wave : List Num) (length : Nat) :
    LoopOf (fmLoop x u t alg sources wave length) (fmStep x u t alg sources wave length) :=
  ⟨fun _ _ => rfl, fun _ _ _ => rfl⟩

end

theorem LoopOf.last_zero {σ : Type} {loop : Nat → Nat → σ → σ} {step : Nat → σ → σ} (h : LoopOf loop step) (n : Nat)
    (s : σ) : loop (n + 1) 0 s = step n (loop n 0 s) := by
  rw [h.last, Nat.zero_add]

/-! The scratch buffer of a loop (R240). -/

section
variable {m : Nat → Memory Num} {y : Nat → Num} (wf : Memory.numWf (m 0) = true)
  (step : ∀ j, m (j + 1) = addScratch (m j) j (y j))
include wf step

theorem scratch_numWf (n : Nat) : Memory.numWf (m n) = true := by
  induction n with
  | zero => exact wf
  | succ n ih => exact step n ▸ addScratch_numWf ih n _

/-- A sample that the loop has not reached is as it was. -/
theorem scratch_above {n j : Nat} (h : n ≤ j) : Memory.getNum (m n) j = Memory.getNum (m 0) j := by
  induction n with
  | zero => rfl
  | succ n ih =>
    rw [step n, addScratch, Memory.getNum_setNum_other (scratch_numWf wf step n) _ (by omega), ih (by omega)]

/-- A sample that the loop has passed has one value added. -/
theorem scratch_below {n j : Nat} (h : j < n) :
    Memory.getNum (m n) j = (Memory.getNum (m 0) j).add (y j) := by
  induction n with
  | zero => omega
  | succ n ih =>
    rw [step n, addScratch]
    by_cases here : j = n
    · subst here
      rw [Memory.getNum_setNum_same (scratch_numWf wf step j), scratch_above wf step (Nat.le_refl j)]
    · rw [Memory.getNum_setNum_other (scratch_numWf wf step n) _ here, ih (by omega)]

end

/-! The run of a loop, sample by sample. -/

/-- One sample `v` between the tone `a` before it and the tone `b` after it: the tail of R240, and `Q`, what is the
loop's own. -/
structure SampleOf (kind : Nat) (Q : Tone → Tone → Num → Prop) (old new : Num) (a b : Tone) (v : Num) : Prop where
  filters : b.filters = (cascade a.filterCount a.filters v).2
  heard : new = old.add (if kind = kindFm then (cascade a.filterCount a.filters v).1
    else (cascade a.filterCount a.filters v).1.mul (get4 a.expressionStarts 0))
  ramp : kind ≠ kindFm → b.expressionStarts =
    set4 a.expressionStarts 0 ((get4 a.expressionStarts 0).add (get4 a.expressionDeltas 0))
  own : Q a b v

/-- A loop of `n` samples from the tone `t` over the scratch buffer `m`: `reg j` is the tone before sample `j`. -/
structure LoopRun (kind : Nat) (Q : Tone → Tone → Num → Prop) (t : Tone) (m : Memory Num) (n : Nat)
    (r : Tone × Memory Num) (reg : Nat → Tone) : Prop where
  start : reg 0 = t
  finish : r.1 = { reg n with atNoteStart := false }
  sample : ∀ j < n, ∃ v, SampleOf kind Q (Memory.getNum m j) (Memory.getNum r.2 j) (reg j) (reg (j + 1)) v
  above : ∀ j, n ≤ j → Memory.getNum r.2 j = Memory.getNum m j

/-- The tone with the tail of a loop written back. -/
def Tone.withTail (t : Tone) (a : Tail) : Tone :=
  { t with filters := a.filters, expressionStarts := set4 t.expressionStarts 0 a.expression }

theorem Tone.withTail_tailOf (t : Tone) (m : Memory Num) : t.withTail (t.tailOf m) = t := by
  rw [Tone.withTail, Tone.tailOf, set4_get4 _ (by decide)]

/-- The fields of a tone that the common tail reads. -/
structure Tone.SameTail (t t' : Tone) : Prop where
  count : t'.filterCount = t.filterCount
  levels : t'.expressionStarts = t.expressionStarts
  deltas : t'.expressionDeltas = t.expressionDeltas

/-- A loop with the common tail (R240): `p j` is what it carries before sample `j`, `put` writes its own registers
back, `next` moves them by one sample, `sample` is what it hands to the tail. -/
theorem loopRun_of_tail {σ : Type} {kind : Nat} {Q : Tone → Tone → Num → Prop} {t : Tone} {m : Memory Num}
    {p : Nat → σ × Tail} {put : σ → Tone} {next : σ → σ} {sample : Nat → σ → Num} (pitched : kind ≠ kindFm)
    (first : (put (p 0).1 = t) ∧ (p 0).2 = t.tailOf m)
    (steps : ∀ j, p (j + 1) = tailed t next sample j (p j))
    (keeps : ∀ st, t.SameTail (put st))
    (own : ∀ j st a a', Q ((put st).withTail a) ((put (next st)).withTail a') (sample j st))
    (wf : Memory.numWf m = true) (n : Nat) :
    LoopRun kind Q t m n ({ (put (p n).1).withTail (p n).2 with atNoteStart := false }, (p n).2.scratch)
      (fun j => (put (p j).1).withTail (p j).2) := by
  obtain ⟨put0, tail0⟩ := first
  have scratch0 : (p 0).2.scratch = m := congrArg Tail.scratch tail0
  have wf0 : Memory.numWf (p 0).2.scratch = true := scratch0 ▸ wf
  have added (j : Nat) := congrArg (fun q : σ × Tail => q.2.scratch) (steps j)
  have level (j : Nat) : get4 ((put (p j).1).withTail (p j).2).expressionStarts 0 = (p j).2.expression :=
    get4_set4_same _ (by decide) _
  refine ⟨?_, rfl, fun j below => ⟨sample j (p j).1, ?_, ?_, fun _ => ?_, ?_⟩, fun j above => ?_⟩
  · simp only [put0, tail0, Tone.withTail_tailOf]
  · rw [steps j]
    exact congrArg (fun c => (cascade c (p j).2.filters (sample j (p j).1)).2) (keeps (p j).1).count.symm
  · rw [if_neg pitched, level]
    refine (scratch_below (m := fun j => (p j).2.scratch) wf0 added below).trans ?_
    rw [scratch0]
    exact congrArg (fun c => (Memory.getNum m j).add ((cascade c (p j).2.filters (sample j (p j).1)).1.mul
      (p j).2.expression)) (keeps (p j).1).count.symm
  · rw [level]
    show set4 (put (p (j + 1)).1).expressionStarts 0 (p (j + 1)).2.expression =
      set4 (set4 (put (p j).1).expressionStarts 0 (p j).2.expression) 0
        ((p j).2.expression.add (get4 (put (p j).1).expressionDeltas 0))
    rw [set4_set4_same _ (by decide), (keeps _).levels, (keeps _).levels, (keeps _).deltas, steps j]
    rfl
  · rw [steps j]
    exact own j _ _ _
  · exact (scratch_above (m := fun j => (p j).2.scratch) wf0 added above).trans (by rw [scratch0])

end Sys2Proof.Machine
end

section
set_option Elab.async false

/-! SUPPORT. What each kind's loop does in one sample (R242 to R263), and its run. -/

namespace Sys2Proof.Machine

/-! The samples. -/

/-- The phase of the first voice moves on and its increment is scaled (R154). -/
def PhaseMoves (length : Num) (a b : Tone) : Prop :=
  b.phases = set4 a.phases 0 (wrapPhase ((get4 a.phases 0).add (get4 a.phaseDeltas 0)) length) ∧
    b.phaseDeltas = set4 a.phaseDeltas 0 ((get4 a.phaseDeltas 0).mul a.phaseDeltaScale)

/-- Chip and harmonics (R242, R243): the difference quotients of an integrated wave at two phases. -/
def IntegratedSample (data : List Num) (length : Nat) (sign : Num) (a b : Tone) (v : Num) : Prop :=
  let d := get4 a.phaseDeltas 0
  let e := get4 a.phaseDeltas 1
  let pa := wrapPhase ((get4 a.phases 0).add d) (Num.ofNat length)
  let pb := wrapPhase ((get4 a.phases 1).add e) (Num.ofNat length)
  let ia := interpolatedRead data length pa
  let ib := interpolatedRead data length pb
  (d.eq .zero = false → e.eq .zero = false → v = ((ia.sub a.prevIntegralA).div d).add
    (((ib.sub a.prevIntegralB).div e).mul (sign.mul a.intervalExpressionMult))) ∧
  b = { a with
    filters := b.filters, expressionStarts := b.expressionStarts
    phases := set4 (set4 a.phases 0 pa) 1 pb
    phaseDeltas := set4 (set4 a.phaseDeltas 0 (d.mul a.phaseDeltaScale)) 1 (e.mul a.phaseDeltaScale)
    prevIntegralA := ia, prevIntegralB := ib }

/-- Pwm (R246): the difference of two saws. -/
def PwmSample (a b : Tone) (v : Num) : Prop :=
  PhaseMoves .one a b ∧
  ((get4 a.phaseDeltas 0).eq .zero = false → v = pwmSample (get4 a.phases 0) (get4 a.phaseDeltas 0) a.pulseWidth) ∧
  b = { a with
    filters := b.filters, expressionStarts := b.expressionStarts, phases := b.phases
    phaseDeltas := b.phaseDeltas, pulseWidth := a.pulseWidth.add a.pulseWidthDelta }

/-- Noise, spectrum and drumset (R249 to R251): the value read, smoothed. -/
def TableSample (read : Num → Num) (length : Nat) (rate : Num) (a b : Tone) (v : Num) : Prop :=
  let y := a.noiseSample.add (((read (get4 a.phases 0)).sub a.noiseSample).mul (Num.min .one rate))
  PhaseMoves (Num.ofNat length) a b ∧ ((get4 a.phaseDeltas 0).eq .zero = false → v = y) ∧
    b = { a with
      filters := b.filters, expressionStarts := b.expressionStarts, phases := b.phases
      phaseDeltas := b.phaseDeltas, noiseSample := y }

/-- The registers of an FM loop that a tone holds (R255). -/
def Tone.fmState (t : Tone) (m : Memory Num) : FmState :=
  ⟨t.phases, t.phaseDeltas, t.expressionStarts, t.feedbackOutputs, t.feedbackMult, t.filters, m⟩

/-- FM (R255): the sum of the carriers, all four operators moved by one sample. -/
def FmSample (alg : Algorithm) (sources : List Nat) (data : List Num) (length : Nat) (m : Memory Num) (a b : Tone)
    (v : Num) : Prop :=
  let out := fmOutputs alg sources data length (a.fmState m) 4 zeros4
  ((∀ k < 4, (get4 a.phaseDeltas k).eq .zero = false) → v = sumOperators (carriers alg) out) ∧
  b = { a with
    filters := b.filters, expressionStarts := b.expressionStarts, phases := b.phases
    phaseDeltas := b.phaseDeltas, feedbackOutputs := out
    feedbackMult := a.feedbackMult.add a.feedbackDelta } ∧
  ∀ k < 4, get4 b.phases k = wrapPhase ((get4 a.phases k).add (get4 a.phaseDeltas k)) (Num.ofNat length) ∧
    get4 b.phaseDeltas k = (get4 a.phaseDeltas k).mul a.phaseDeltaScale ∧
    get4 b.expressionStarts k = (get4 a.expressionStarts k).add (get4 a.expressionDeltas k)

/-- Guitar (R260): the sum of the strings. -/
def GuitarSample (size : Nat) (a b : Tone) (v : Num) : Prop :=
  let y := stringsStep size a.pitches.length .zero a.strings
  v = y.1 ∧ b = { a with filters := b.filters, expressionStarts := b.expressionStarts, strings := y.2 }

/-- The sample of a loop whose increments are not 0 is not open. -/
theorem openSample_closed (x : Ctx) (u i : Nat) {zeroDelta : Bool} (h : zeroDelta = false) (v : Num) :
    openSample x u i zeroDelta v = v := by
  rw [h]; rfl

/-! The registers that the loops move. -/

/-- The tone with the registers of a chip or harmonics loop written back. -/
def Tone.withChip (t : Tone) (st : ChipState) : Tone :=
  { t with
    phases := set4 (set4 t.phases 0 st.a) 1 st.b
    phaseDeltas := set4 (set4 t.phaseDeltas 0 st.da) 1 st.db
    prevIntegralA := st.pa
    prevIntegralB := st.pb }

/-- The registers of a chip or harmonics loop that a tone holds. -/
def Tone.chipState (t : Tone) : ChipState :=
  ⟨get4 t.phases 0, get4 t.phases 1, get4 t.phaseDeltas 0, get4 t.phaseDeltas 1, t.prevIntegralA, t.prevIntegralB⟩

/-- Two elements written and written again. -/
theorem set4_pair_set4_pair (v : Vector Num 4) (y z y' z' : Num) :
    set4 (set4 (set4 (set4 v 0 y) 1 z) 0 y') 1 z' = set4 (set4 v 0 y') 1 z' := by
  rw [set4_comm (set4 v 0 y) (by decide) (by decide) (by decide), set4_set4_same v (by decide),
    set4_set4_same _ (by decide)]

theorem get4_set4_pair_fst (v : Vector Num 4) (y z : Num) : get4 (set4 (set4 v 0 y) 1 z) 0 = y := by
  rw [get4_set4_other _ (by decide), get4_set4_same _ (by decide)]

theorem get4_set4_pair_snd (v : Vector Num 4) (y z : Num) : get4 (set4 (set4 v 0 y) 1 z) 1 = z :=
  get4_set4_same _ (by decide) _

theorem set4_pair_get4 (v : Vector Num 4) : set4 (set4 v 0 (get4 v 0)) 1 (get4 v 1) = v := by
  rw [set4_get4 v (by decide), set4_get4 v (by decide)]

theorem Tone.withChip_chipState (t : Tone) : t.withChip t.chipState = t := by
  rw [Tone.withChip, Tone.chipState, set4_pair_get4, set4_pair_get4]

/-- The tone with the registers of a pwm loop written back. -/
def Tone.withPwm (t : Tone) (st : PwmState) : Tone :=
  { t with
    phases := set4 t.phases 0 st.phase
    phaseDeltas := set4 t.phaseDeltas 0 st.delta
    pulseWidth := st.width }

/-- The registers of a pwm loop that a tone holds. -/
def Tone.pwmState (t : Tone) : PwmState := ⟨get4 t.phases 0, get4 t.phaseDeltas 0, t.pulseWidth⟩

theorem Tone.withPwm_pwmState (t : Tone) : t.withPwm t.pwmState = t := by
  rw [Tone.withPwm, Tone.pwmState, set4_get4 _ (by decide), set4_get4 _ (by decide)]

/-- The tone with the registers of a noise, spectrum or drumset loop written back. -/
def Tone.withNoise (t : Tone) (st : NoiseState) : Tone :=
  { t with
    phases := set4 t.phases 0 st.phase
    phaseDeltas := set4 t.phaseDeltas 0 st.delta
    noiseSample := st.sample }

/-- The registers of a noise, spectrum or drumset loop that a tone holds. -/
def Tone.noiseState (t : Tone) : NoiseState := ⟨get4 t.phases 0, get4 t.phaseDeltas 0, t.noiseSample⟩

theorem Tone.withNoise_noiseState (t : Tone) : t.withNoise t.noiseState = t := by
  rw [Tone.withNoise, Tone.noiseState, set4_get4 _ (by decide), set4_get4 _ (by decide)]

/-- The tone with the registers of an FM loop written back. -/
def Tone.withFm (t : Tone) (st : FmState) : Tone :=
  { t with
    phases := st.phase
    phaseDeltas := st.delta
    expressionStarts := st.expr
    feedbackOutputs := st.feedback
    feedbackMult := st.fbMult
    filters := st.filters }

/-- An FM state's outputs do not depend on its scratch buffer. -/
theorem fmOutputs_withScratch (alg : Algorithm) (sources : List Nat) (wave : List Num) (length : Nat) (st : FmState)
    (m : Memory Num) (k : Nat) (out : Vector Num 4) :
    fmOutputs alg sources wave length { st with scratch := m } k out = fmOutputs alg sources wave length st k out := by
  induction k generalizing out with
  | zero => rfl
  | succ k ih => exact ih _

section
variable {x : Ctx} {u : Nat} {t : Tone} {m : Memory Num} (wf : Memory.numWf m = true) (n : Nat)
include wf

theorem synthIntegrated_run {kind : Nat} (pitched : kind ≠ kindFm) (ins : Instrument) (wave : List Num)
    (length : Nat) : ∃ reg, LoopRun kind
      (IntegratedSample wave length (x.cfg.intervals.get ins.interval).sign) t m n
      (synthIntegrated x u n ins wave length t m) reg := by
  refine ⟨_, loopRun_of_tail
    (p := fun j => chipLoop x u t wave length
      ((x.cfg.intervals.get ins.interval).sign.mul t.intervalExpressionMult) j 0 t.chipState (t.tailOf m))
    (put := t.withChip) pitched ⟨t.withChip_chipState, rfl⟩
    (fun j => (chipLoop_loopOf ..).last_zero j (t.chipState, t.tailOf m)) (fun _ => ⟨rfl, rfl, rfl⟩) ?_ wf n⟩
  intro j st a a'
  simp only [IntegratedSample, Tone.withTail, Tone.withChip, get4_set4_pair_fst, get4_set4_pair_snd,
    set4_pair_set4_pair]
  exact ⟨fun zeroA zeroB => openSample_closed x u j (by rw [zeroA, zeroB]; rfl) _, rfl⟩

theorem synthPwm_run : ∃ reg, LoopRun kindPwm PwmSample t m n (synthPwm x u n t m) reg := by
  refine ⟨_, loopRun_of_tail (p := fun j => pwmLoop x u t j 0 t.pwmState (t.tailOf m)) (put := t.withPwm)
    (by decide) ⟨t.withPwm_pwmState, rfl⟩ (fun j => (pwmLoop_loopOf ..).last_zero j (t.pwmState, t.tailOf m))
    (fun _ => ⟨rfl, rfl, rfl⟩) ?_ wf n⟩
  intro j st a a'
  simp only [PwmSample, PhaseMoves, Tone.withTail, Tone.withPwm, get4_set4_same _ (show 0 < 4 by decide),
    set4_set4_same _ (show 0 < 4 by decide)]
  exact ⟨⟨rfl, rfl⟩, fun zero => openSample_closed x u j zero _, rfl⟩

theorem synthTable_run {kind : Nat} (pitched : kind ≠ kindFm) (read : Num → Num) (length : Nat) (rate : Num) :
    ∃ reg, LoopRun kind (TableSample read length rate) t m n
      (synthTable x u n read length (Num.min .one rate) t m) reg := by
  refine ⟨_, loopRun_of_tail
    (p := fun j => noiseLoop x u t read length (Num.min .one rate) j 0 t.noiseState (t.tailOf m))
    (put := t.withNoise) pitched ⟨t.withNoise_noiseState, rfl⟩
    (fun j => (noiseLoop_loopOf ..).last_zero j (t.noiseState, t.tailOf m)) (fun _ => ⟨rfl, rfl, rfl⟩) ?_ wf n⟩
  intro j st a a'
  simp only [TableSample, PhaseMoves, Tone.withTail, Tone.withNoise, get4_set4_same _ (show 0 < 4 by decide),
    set4_set4_same _ (show 0 < 4 by decide)]
  exact ⟨⟨rfl, rfl⟩, fun zero => openSample_closed x u j zero _, rfl⟩

/-- The loop of a guitar behind its plucks. -/
theorem guitarLoop_run (size : Nat) (strings : List StringState) : ∃ reg,
    LoopRun kindGuitar (GuitarSample size) { t with strings := strings } m n
      (let r := guitarLoop t size n 0 strings (t.tailOf m)
       ({ t.afterLoop r.2 with strings := r.1 }, r.2.scratch)) reg := by
  refine ⟨_, loopRun_of_tail (p := fun j => guitarLoop t size j 0 strings (t.tailOf m))
    (put := fun ss => { t with strings := ss }) (next := fun ss => (stringsStep size t.pitches.length .zero ss).2)
    (sample := fun _ ss => (stringsStep size t.pitches.length .zero ss).1) (by decide) ⟨rfl, rfl⟩
    (fun j => (guitarLoop_loopOf ..).last_zero j (strings, t.tailOf m)) (fun _ => ⟨rfl, rfl, rfl⟩) ?_ wf n⟩
  exact fun _ _ _ _ => ⟨rfl, rfl⟩

end

/-! The FM loop (R255). -/

/-- The sample of an FM loop before its filters. -/
def fmSample (x : Ctx) (u : Nat) (alg : Algorithm) (sources : List Nat) (wave : List Num) (length i : Nat)
    (st : FmState) : Num :=
  openSample x u i ((heardOperators alg sources operatorCount (carriers alg)).any fun k => (get4 st.delta k).eq .zero)
    (sumOperators (carriers alg) (fmOutputs alg sources wave length st operatorCount zeros4))

/-- Operators heard are the four. -/
theorem heardOperators_lt {alg : Algorithm} {sources : List Nat} {n : Nat} {l : List Nat} (h : ∀ k ∈ l, k < 4) :
    ∀ k ∈ heardOperators alg sources n l, k < 4 := by
  induction n generalizing l with
  | zero => exact h
  | succ n ih => exact ih fun k hk => List.mem_range.mp (List.mem_filter.mp hk).1

/-- An FM sample is open only where an operator has the increment 0. -/
theorem fmSample_closed (x : Ctx) (u : Nat) (alg : Algorithm) (sources : List Nat) (wave : List Num) (length i : Nat)
    (st : FmState) (h : ∀ k < 4, (get4 st.delta k).eq .zero = false) :
    fmSample x u alg sources wave length i st =
      sumOperators (carriers alg) (fmOutputs alg sources wave length st operatorCount zeros4) := by
  refine openSample_closed x u i (List.any_eq_false.mpr fun k hk => ?_) _
  have four : ∀ k ∈ carriers alg, k < 4 := fun k hk => List.mem_range.mp (List.mem_filter.mp hk).1
  exact Bool.eq_false_iff.mp (h k (heardOperators_lt four k hk))

theorem get4_ofFn (f : Fin 4 → Num) {k : Nat} (inside : k < 4) : get4 (Vector.ofFn f) k = f ⟨k, inside⟩ := by
  rw [get4_of_lt _ inside, Vector.getElem_ofFn]

theorem fmStep_sample (x : Ctx) (u : Nat) (t : Tone) (m : Memory Num) (alg : Algorithm) (sources : List Nat)
    (wave : List Num) (length j : Nat) (st : FmState) :
    FmSample alg sources wave length m (t.withFm st) (t.withFm (fmStep x u t alg sources wave length j st))
      (fmSample x u alg sources wave length j st) := by
  have outputs : fmOutputs alg sources wave length ((t.withFm st).fmState m) 4 zeros4 =
      fmOutputs alg sources wave length st 4 zeros4 := fmOutputs_withScratch alg sources wave length st m 4 zeros4
  refine ⟨fun h => ?_, ?_, fun k inside => ⟨?_, ?_, ?_⟩⟩
  · exact (fmSample_closed x u alg sources wave length j st h).trans (congrArg _ outputs.symm)
  · rw [outputs]; rfl
  · exact (get4_ofFn _ inside).trans (by rw [get4_of_lt _ inside, get4_of_lt _ inside]; rfl)
  · show get4 (st.delta.map _) k = (get4 st.delta k).mul t.phaseDeltaScale
    rw [get4_of_lt _ inside, get4_of_lt _ inside, Vector.getElem_map]
  · exact (get4_ofFn _ inside).trans (by rw [get4_of_lt _ inside, get4_of_lt _ inside]; rfl)

theorem synthFm_run {x : Ctx} {u : Nat} {t : Tone} {m : Memory Num} (wf : Memory.numWf m = true) (n : Nat)
    (ins : Instrument) (wave : List Num) : ∃ reg, LoopRun kindFm
    (FmSample (x.cfg.algorithms.get ins.algorithm) (x.cfg.feedbacks.get ins.feedbackType) wave x.cfg.sineWaveLength m)
    t m n (synthFm x u n ins wave t m) reg := by
  let alg := x.cfg.algorithms.get ins.algorithm
  let sources := x.cfg.feedbacks.get ins.feedbackType
  let p := fun j => fmLoop x u t alg sources wave x.cfg.sineWaveLength j 0 (t.fmState m)
  have steps (j : Nat) : p (j + 1) = fmStep x u t alg sources wave x.cfg.sineWaveLength j (p j) :=
    (fmLoop_loopOf ..).last_zero j (t.fmState m)
  have added (j : Nat) := congrArg FmState.scratch (steps j)
  refine ⟨fun j => t.withFm (p j), rfl, rfl, fun j below =>
    ⟨fmSample x u alg sources wave x.cfg.sineWaveLength j (p j), ?_, ?_, fun h => absurd rfl h, ?_⟩, fun j above => ?_⟩
  · exact congrArg FmState.filters (steps j)
  · exact scratch_below (m := fun j => (p j).scratch) wf added below
  · exact (congrArg (fun st => FmSample alg sources wave x.cfg.sineWaveLength m (t.withFm (p j)) (t.withFm st)
      (fmSample x u alg sources wave x.cfg.sineWaveLength j (p j))) (steps j)).mpr (fmStep_sample ..)
  · exact scratch_above (m := fun j => (p j).scratch) wf added above

end Sys2Proof.Machine
end

section
set_option Elab.async false

/-! PROOFS. The synth loops on a tone slot (R240, R265, R310). -/

namespace Sys2Proof.Machine

/-! The loop of each kind. -/

section
variable {x : Ctx} {u n : Nat} {ins : Instrument} {wave : List Num} {t : Tone} {rng : Rng} {m : Memory Num}

theorem synthTone_chip (kind : ins.kind = kindChip) : synthTone x u n ins wave t rng m =
    (let r := synthIntegrated x u n ins wave (x.cfg.chipSamples ins.chipWave).length t m; (r.1, r.2, rng)) := by
  unfold synthTone; rw [kind]; rfl

theorem synthTone_fm (kind : ins.kind = kindFm) : synthTone x u n ins wave t rng m =
    (let r := synthFm x u n ins wave t m; (r.1, r.2, rng)) := by
  unfold synthTone; rw [kind]; rfl

theorem synthTone_noise (kind : ins.kind = kindNoise) : synthTone x u n ins wave t rng m =
    (let r := synthTable x u n (nearestRead wave (x.cfg.noiseSamples ins.noiseWave).length)
      (x.cfg.noiseSamples ins.noiseWave).length
      (Num.min .one ((get4 t.phaseDeltas 0).mul (x.cfg.pitchFilterMultOf ins.noiseWave))) t m
     (r.1, r.2, rng)) := by
  unfold synthTone; rw [kind]; rfl

theorem synthTone_spectrum (kind : ins.kind = kindSpectrum ∨ ins.kind = kindDrumset) :
    synthTone x u n ins wave t rng m = synthSpectrum x u n wave x.cfg.spectrumWaveLength t rng m := by
  unfold synthTone; rcases kind with kind | kind <;> rw [kind] <;> rfl

theorem synthTone_harmonics (kind : ins.kind = kindHarmonics) : synthTone x u n ins wave t rng m =
    (let r := synthIntegrated x u n ins wave x.cfg.harmonicsWaveLength t m; (r.1, r.2, rng)) := by
  unfold synthTone; rw [kind]; rfl

theorem synthTone_pwm (kind : ins.kind = kindPwm) : synthTone x u n ins wave t rng m =
    (let r := synthPwm x u n t m; (r.1, r.2, rng)) := by
  unfold synthTone; rw [kind]; rfl

theorem synthTone_guitar (kind : ins.kind = kindGuitar) : synthTone x u n ins wave t rng m =
    synthGuitar x n wave t rng m := by
  unfold synthTone; rw [kind]; rfl

end

/-- The eight kinds that a synth loop exists for (R108). -/
def synthKinds : List Nat :=
  [kindChip, kindFm, kindNoise, kindSpectrum, kindDrumset, kindHarmonics, kindPwm, kindGuitar]

/-! What a loop leaves of the tone (R240). -/

/-- `b` is `a` behind a loop of a kind: only the loop's registers may differ. -/
structure Tone.Looped (kind : Nat) (a b : Tone) : Prop where
  frame : b = { a with
    phases := b.phases, phaseDeltas := b.phaseDeltas, expressionStarts := b.expressionStarts
    pulseWidth := b.pulseWidth, feedbackMult := b.feedbackMult, feedbackOutputs := b.feedbackOutputs
    noiseSample := b.noiseSample, prevIntegralA := b.prevIntegralA, prevIntegralB := b.prevIntegralB
    filters := b.filters, strings := b.strings, atNoteStart := false }
  width : kind ≠ kindPwm → b.pulseWidth = a.pulseWidth
  strings : kind ≠ kindGuitar → b.strings = a.strings
  feedback : kind ≠ kindFm → b.feedbackMult = a.feedbackMult ∧ b.feedbackOutputs = a.feedbackOutputs
  smoothed : kind ∉ [kindNoise, kindSpectrum, kindDrumset] → b.noiseSample = a.noiseSample
  integrals : kind ∉ [kindChip, kindHarmonics] →
    b.prevIntegralA = a.prevIntegralA ∧ b.prevIntegralB = a.prevIntegralB

section
variable (x : Ctx) (u n : Nat) (ins : Instrument) (wave : List Num) (t : Tone) (rng : Rng) (m : Memory Num)

theorem synthIntegrated_looped {kind : Nat} (h : kind ∈ [kindChip, kindHarmonics]) (length : Nat) :
    t.Looped kind (synthIntegrated x u n ins wave length t m).1 :=
  ⟨rfl, fun _ => rfl, fun _ => rfl, fun _ => ⟨rfl, rfl⟩, fun _ => rfl, fun other => absurd h other⟩

theorem synthPwm_looped : t.Looped kindPwm (synthPwm x u n t m).1 :=
  ⟨rfl, fun other => absurd rfl other, fun _ => rfl, fun _ => ⟨rfl, rfl⟩, fun _ => rfl, fun _ => ⟨rfl, rfl⟩⟩

theorem synthFm_looped : t.Looped kindFm (synthFm x u n ins wave t m).1 :=
  ⟨rfl, fun _ => rfl, fun _ => rfl, fun other => absurd rfl other, fun _ => rfl, fun _ => ⟨rfl, rfl⟩⟩

theorem synthTable_looped {kind : Nat} (h : kind ∈ [kindNoise, kindSpectrum, kindDrumset]) (read : Num → Num)
    (length : Nat) (k : Num) : t.Looped kind (synthTable x u n read length k t m).1 :=
  ⟨rfl, fun _ => rfl, fun _ => rfl, fun _ => ⟨rfl, rfl⟩, fun other => absurd h other, fun _ => ⟨rfl, rfl⟩⟩

theorem synthGuitar_looped : t.Looped kindGuitar (synthGuitar x n wave t rng m).1 :=
  ⟨rfl, fun _ => rfl, fun other => absurd rfl other, fun _ => ⟨rfl, rfl⟩, fun _ => rfl, fun _ => ⟨rfl, rfl⟩⟩

/-- At a note's start the loop runs from another phase and sample, which are among its registers. -/
theorem synthSpectrum_looped {kind : Nat} (h : kind ∈ [kindNoise, kindSpectrum, kindDrumset]) (length : Nat) :
    t.Looped kind (synthSpectrum x u n wave length t rng m).1 := by
  unfold synthSpectrum
  split
  · exact ⟨rfl, fun _ => rfl, fun _ => rfl, fun _ => ⟨rfl, rfl⟩, fun other => absurd h other, fun _ => ⟨rfl, rfl⟩⟩
  · exact synthTable_looped x u n t m h ..

theorem synthTone_looped (known : ins.kind ∈ synthKinds) :
    t.Looped ins.kind (synthTone x u n ins wave t rng m).1 := by
  simp only [synthKinds, List.mem_cons, List.not_mem_nil, or_false] at known
  rcases known with kind | kind | kind | kind | kind | kind | kind | kind
  · rw [synthTone_chip kind, kind]; exact synthIntegrated_looped x u n ins wave t m (by decide) _
  · rw [synthTone_fm kind, kind]; exact synthFm_looped x u n ins wave t m
  · rw [synthTone_noise kind, kind]; exact synthTable_looped x u n t m (by decide) ..
  · rw [synthTone_spectrum (.inl kind), kind]; exact synthSpectrum_looped x u n wave t rng m (by decide) _
  · rw [synthTone_spectrum (.inr kind), kind]; exact synthSpectrum_looped x u n wave t rng m (by decide) _
  · rw [synthTone_harmonics kind, kind]; exact synthIntegrated_looped x u n ins wave t m (by decide) _
  · rw [synthTone_pwm kind, kind]; exact synthPwm_looped x u n t m
  · rw [synthTone_guitar kind, kind]; exact synthGuitar_looped x n wave t rng m

end

/-! The tone that a loop starts from (R252, R263). -/

/-- The tone and the random source at the first sample of a loop. -/
def loopStart (x : Ctx) (ins : Instrument) (wave : List Num) (t : Tone) (rng : Rng) : Tone × Rng :=
  if (ins.kind = kindSpectrum ∨ ins.kind = kindDrumset) ∧ t.atNoteStart = true then
    ({ t with
        phases := set4 t.phases 0 (startPhase wave x.cfg.spectrumWaveLength (drawUnit rng).1), noiseSample := .zero },
      (drawUnit rng).2)
  else if ins.kind = kindGuitar then
    ({ t with strings := (pluckAll x t wave t.pitches t.strings rng).1 },
      (pluckAll x t wave t.pitches t.strings rng).2)
  else (t, rng)

section
variable {x : Ctx} {ins : Instrument} {wave : List Num} {t : Tone} {rng : Rng}

theorem loopStart_drawing (h : (ins.kind = kindSpectrum ∨ ins.kind = kindDrumset) ∧ t.atNoteStart = true) :
    loopStart x ins wave t rng = ({ t with
        phases := set4 t.phases 0 (startPhase wave x.cfg.spectrumWaveLength (drawUnit rng).1), noiseSample := .zero },
      (drawUnit rng).2) := if_pos h

theorem loopStart_guitar (kind : ins.kind = kindGuitar) : loopStart x ins wave t rng =
    ({ t with strings := (pluckAll x t wave t.pitches t.strings rng).1 },
      (pluckAll x t wave t.pitches t.strings rng).2) := by
  rw [loopStart, if_neg (by simp [kind, kindGuitar, kindSpectrum, kindDrumset]), if_pos kind]

theorem loopStart_plain (h : ¬ ((ins.kind = kindSpectrum ∨ ins.kind = kindDrumset) ∧ t.atNoteStart = true))
    (kind : ins.kind ≠ kindGuitar) : loopStart x ins wave t rng = (t, rng) := by
  rw [loopStart, if_neg h, if_neg kind]

end

/-! The run of each kind, sample by sample. -/

/-- What the loop of an instrument of each kind does in one sample, besides the common tail: `rate` is the increment at
the start of the run, `m` the scratch buffer there. -/
def KindSample (x : Ctx) (ins : Instrument) (wave : List Num) (rate : Num) (m : Memory Num) (kind : Nat) (a b : Tone)
    (v : Num) : Prop :=
  ((kind = kindChip ∨ kind = kindHarmonics) → IntegratedSample wave
    (if kind = kindChip then (x.cfg.chipSamples ins.chipWave).length else x.cfg.harmonicsWaveLength)
    (x.cfg.intervals.get ins.interval).sign a b v) ∧
  (kind = kindPwm → PwmSample a b v) ∧
  (kind = kindNoise → TableSample (nearestRead wave (x.cfg.noiseSamples ins.noiseWave).length)
    (x.cfg.noiseSamples ins.noiseWave).length (rate.mul (x.cfg.pitchFilterMultOf ins.noiseWave)) a b v) ∧
  ((kind = kindSpectrum ∨ kind = kindDrumset) →
    TableSample (interpolatedRead wave x.cfg.spectrumWaveLength) x.cfg.spectrumWaveLength rate a b v) ∧
  (kind = kindFm → FmSample (x.cfg.algorithms.get ins.algorithm) (x.cfg.feedbacks.get ins.feedbackType) wave
    x.cfg.sineWaveLength m a b v) ∧
  (kind = kindGuitar → GuitarSample (x.cfg.stringRingSize x.sampleRate) a b v)

section
variable {x : Ctx} {ins : Instrument} {wave : List Num} {rate : Num} {m : Memory Num} {a b : Tone} {v : Num}

theorem kindSample_chip : KindSample x ins wave rate m kindChip a b v ↔
    IntegratedSample wave (x.cfg.chipSamples ins.chipWave).length (x.cfg.intervals.get ins.interval).sign a b v := by
  simp [KindSample, kindChip, kindFm, kindNoise, kindSpectrum, kindDrumset, kindHarmonics,
    kindPwm, kindGuitar]

theorem kindSample_harmonics : KindSample x ins wave rate m kindHarmonics a b v ↔
    IntegratedSample wave x.cfg.harmonicsWaveLength (x.cfg.intervals.get ins.interval).sign a b v := by
  simp [KindSample, kindChip, kindFm, kindNoise, kindSpectrum, kindDrumset, kindHarmonics,
    kindPwm, kindGuitar]

theorem kindSample_pwm : KindSample x ins wave rate m kindPwm a b v ↔
    PwmSample a b v := by
  simp [KindSample, kindChip, kindFm, kindNoise, kindSpectrum, kindDrumset, kindHarmonics,
    kindPwm, kindGuitar]

theorem kindSample_noise : KindSample x ins wave rate m kindNoise a b v ↔
    TableSample (nearestRead wave (x.cfg.noiseSamples ins.noiseWave).length)
      (x.cfg.noiseSamples ins.noiseWave).length (rate.mul (x.cfg.pitchFilterMultOf ins.noiseWave)) a b v := by
  simp [KindSample, kindChip, kindFm, kindNoise, kindSpectrum, kindDrumset, kindHarmonics,
    kindPwm, kindGuitar]

theorem kindSample_fm : KindSample x ins wave rate m kindFm a b v ↔
    FmSample (x.cfg.algorithms.get ins.algorithm) (x.cfg.feedbacks.get ins.feedbackType) wave
      x.cfg.sineWaveLength m a b v := by
  simp [KindSample, kindChip, kindFm, kindNoise, kindSpectrum, kindDrumset, kindHarmonics,
    kindPwm, kindGuitar]

theorem kindSample_guitar : KindSample x ins wave rate m kindGuitar a b v ↔
    GuitarSample (x.cfg.stringRingSize x.sampleRate) a b v := by
  simp [KindSample, kindChip, kindFm, kindNoise, kindSpectrum, kindDrumset, kindHarmonics,
    kindPwm, kindGuitar]

theorem kindSample_spectrum {kind : Nat} (drawn : kind = kindSpectrum ∨ kind = kindDrumset) :
    KindSample x ins wave rate m kind a b v ↔
      TableSample (interpolatedRead wave x.cfg.spectrumWaveLength) x.cfg.spectrumWaveLength rate a b v := by
  rcases drawn with rfl | rfl <;> simp [KindSample, kindChip, kindFm, kindNoise, kindSpectrum, kindDrumset,
    kindHarmonics, kindPwm, kindGuitar]

end

/-- The loop of an instrument's kind runs from `loopStart`, sample by sample. -/
def SynthRun (x : Ctx) (u n : Nat) (ins : Instrument) (wave : List Num) (t : Tone) (rng : Rng) (m : Memory Num) :
    Prop :=
  ∃ reg, LoopRun ins.kind (KindSample x ins wave (get4 t.phaseDeltas 0) m ins.kind) (loopStart x ins wave t rng).1 m n
      (let r := synthTone x u n ins wave t rng m; (r.1, r.2.1)) reg ∧
    (synthTone x u n ins wave t rng m).2.2 = (loopStart x ins wave t rng).2

theorem LoopRun.mono {kind : Nat} {Q Q' : Tone → Tone → Num → Prop} {t : Tone} {m : Memory Num} {n : Nat}
    {r : Tone × Memory Num} {reg : Nat → Tone} (h : LoopRun kind Q t m n r reg) (weaker : ∀ a b v, Q a b v → Q' a b v) :
    LoopRun kind Q' t m n r reg :=
  { h with sample := fun j below => (h.sample j below).imp fun _ hv => { hv with own := weaker _ _ _ hv.own } }

section
variable (x : Ctx) (u n : Nat) (ins : Instrument) (wave : List Num) (t : Tone) (rng : Rng) {m : Memory Num}
  (wf : Memory.numWf m = true)
include wf

/-- Spectrum and drumset: at a note's start from the drawn crossing, else from the tone as it is. -/
theorem synthSpectrum_run {kind : Nat} (h : ins.kind = kind) (drawn : kind = kindSpectrum ∨ kind = kindDrumset) :
    ∃ reg, LoopRun kind
      (TableSample (interpolatedRead wave x.cfg.spectrumWaveLength) x.cfg.spectrumWaveLength (get4 t.phaseDeltas 0))
      (loopStart x ins wave t rng).1 m n
      (let r := synthSpectrum x u n wave x.cfg.spectrumWaveLength t rng m; (r.1, r.2.1)) reg ∧
    (synthSpectrum x u n wave x.cfg.spectrumWaveLength t rng m).2.2 = (loopStart x ins wave t rng).2 := by
  subst h
  have pitched : ins.kind ≠ kindFm := by rcases drawn with h | h <;> rw [h] <;> decide
  have plucks : ins.kind ≠ kindGuitar := by rcases drawn with h | h <;> rw [h] <;> decide
  unfold synthSpectrum
  by_cases start : t.atNoteStart = true
  · rw [loopStart_drawing ⟨drawn, start⟩]
    simp only [if_pos start]
    obtain ⟨reg, run⟩ := synthTable_run (x := x) (u := u) wf n pitched (interpolatedRead wave x.cfg.spectrumWaveLength)
      x.cfg.spectrumWaveLength (get4 t.phaseDeltas 0)
    exact ⟨reg, run, trivial⟩
  · rw [loopStart_plain (fun h => start h.2) plucks]
    simp only [if_neg start]
    obtain ⟨reg, run⟩ := synthTable_run (x := x) (u := u) wf n pitched (interpolatedRead wave x.cfg.spectrumWaveLength)
      x.cfg.spectrumWaveLength (get4 t.phaseDeltas 0)
    exact ⟨reg, run, trivial⟩

theorem synthTone_run (known : ins.kind ∈ synthKinds) : SynthRun x u n ins wave t rng m := by
  have spectrum (drawn : ins.kind = kindSpectrum ∨ ins.kind = kindDrumset) : SynthRun x u n ins wave t rng m := by
    obtain ⟨reg, run, source⟩ := synthSpectrum_run x u n ins wave t rng wf rfl drawn
    rw [← synthTone_spectrum drawn] at run source
    exact ⟨reg, run.mono fun _ _ _ => (kindSample_spectrum drawn).mpr, source⟩
  simp only [synthKinds, List.mem_cons, List.not_mem_nil, or_false] at known
  rcases known with kind | kind | kind | kind | kind | kind | kind | kind
  · obtain ⟨reg, run⟩ := synthIntegrated_run (x := x) (u := u) (t := t) wf n (kind := kindChip) (by decide) ins wave _
    rw [SynthRun, synthTone_chip kind, loopStart_plain
      (by simp [kind, kindChip, kindSpectrum, kindDrumset]) (by rw [kind]; decide), kind]
    exact ⟨reg, run.mono fun _ _ _ => kindSample_chip.mpr, rfl⟩
  · obtain ⟨reg, run⟩ := synthFm_run (x := x) (u := u) (t := t) wf n ins wave
    rw [SynthRun, synthTone_fm kind, loopStart_plain
      (by simp [kind, kindFm, kindSpectrum, kindDrumset]) (by rw [kind]; decide), kind]
    exact ⟨reg, run.mono fun _ _ _ => kindSample_fm.mpr, rfl⟩
  · obtain ⟨reg, run⟩ := synthTable_run (x := x) (u := u) (t := t) wf n (kind := kindNoise) (by decide) _ _ _
    rw [SynthRun, synthTone_noise kind, loopStart_plain
      (by simp [kind, kindNoise, kindSpectrum, kindDrumset]) (by rw [kind]; decide), kind]
    exact ⟨reg, run.mono fun _ _ _ => kindSample_noise.mpr, rfl⟩
  · exact spectrum (.inl kind)
  · exact spectrum (.inr kind)
  · obtain ⟨reg, run⟩ := synthIntegrated_run (x := x) (u := u) (t := t) wf n (kind := kindHarmonics) (by decide)
      ins wave _
    rw [SynthRun, synthTone_harmonics kind, loopStart_plain
      (by simp [kind, kindHarmonics, kindSpectrum, kindDrumset]) (by rw [kind]; decide), kind]
    exact ⟨reg, run.mono fun _ _ _ => kindSample_harmonics.mpr, rfl⟩
  · obtain ⟨reg, run⟩ := synthPwm_run (x := x) (u := u) (t := t) wf n
    rw [SynthRun, synthTone_pwm kind, loopStart_plain
      (by simp [kind, kindPwm, kindSpectrum, kindDrumset]) (by rw [kind]; decide), kind]
    exact ⟨reg, run.mono fun _ _ _ => kindSample_pwm.mpr, rfl⟩
  · obtain ⟨reg, run⟩ := guitarLoop_run (t := t) wf n (x.cfg.stringRingSize x.sampleRate)
      (pluckAll x t wave t.pitches t.strings rng).1
    rw [SynthRun, synthTone_guitar kind, loopStart_guitar kind, kind]
    exact ⟨reg, run.mono fun _ _ _ => kindSample_guitar.mpr, rfl⟩

end

end Sys2Proof.Machine
end

section
set_option Elab.async false

/-! PROOFS. The eight synth loops in direct mode (R86, R141, R240, R265, R310). -/

namespace Sys2Proof.Machine

/-! The wave that a loop reads (R86, R141). -/

/-- The entry of a spectrum, drumset or harmonics instrument is one of the builders that transform, of the other kinds
a table's. -/
theorem waveOf_cases {ins : Instrument} {t : Tone} {k : WaveKey} (h : waveOf ins t = some k) :
    (ins.kind = kindSpectrum ∧ k = .spectrum t.instrument) ∨
    (ins.kind = kindDrumset ∧ k = .drum t.instrument t.drumsetPitch) ∨
    (ins.kind = kindHarmonics ∧ k = .harmonics t.instrument) ∨
    (ins.kind ∉ [kindSpectrum, kindDrumset, kindHarmonics] ∧
      (k = .sine ∨ k = .impulse ∨ (∃ u, k = .chip u) ∨ ∃ u, k = .noise u)) := by
  unfold waveOf at h
  split_ifs at h with chip fm noise spectrum drumset harmonics guitar <;> cases h
  · exact .inr (.inr (.inr ⟨by rw [chip]; decide, .inr (.inr (.inl ⟨_, rfl⟩))⟩))
  · exact .inr (.inr (.inr ⟨by rw [fm]; decide, .inl rfl⟩))
  · exact .inr (.inr (.inr ⟨by rw [noise]; decide, .inr (.inr (.inr ⟨_, rfl⟩))⟩))
  · exact .inl ⟨spectrum, rfl⟩
  · exact .inr (.inl ⟨drumset, rfl⟩)
  · exact .inr (.inr (.inl ⟨harmonics, rfl⟩))
  · exact .inr (.inr (.inr ⟨by rw [guitar]; decide, .inr (.inl rfl)⟩))

section
variable {x : Ctx} {ins : Instrument} {t : Tone} {k : WaveKey} {e : Engine}

/-- The builders that transform leave `WORK` from the wave's length on (R131). -/
theorem transformedWave_above (bins : List Num) (table : List Num → List Num) {j : Nat} (h : bins.length ≤ j) :
    (transformedWave x k bins table e).readWork j = e.readWork j :=
  (ifftWork_above x (e.fillWork bins) h).trans (readWork_fillWork_above e h)

variable (named : slotInstrument x.song t.instrument = some ins) (reads : waveOf ins t = some k)
include named reads

/-- The entry's builder fills that entry. -/
theorem buildWave_waves : ∃ d, (buildWave x k e).waves = setWave e.waves k d := by
  rcases waveOf_cases reads with ⟨-, rfl⟩ | ⟨-, rfl⟩ | ⟨-, rfl⟩ | ⟨-, rfl | rfl | ⟨_, rfl⟩ | ⟨_, rfl⟩⟩
  · rw [buildWave_spectrum named]; exact ⟨_, rfl⟩
  · rw [buildWave_drum named]; exact ⟨_, rfl⟩
  · rw [buildWave_harmonics named]; exact ⟨_, rfl⟩
  · exact ⟨_, rfl⟩
  · exact ⟨_, rfl⟩
  · exact ⟨_, rfl⟩
  · exact ⟨_, rfl⟩

theorem ensureWave_valid : ∃ d, findWave (ensureWave x k e).waves k = some d := by
  cases valid : findWave e.waves k with
  | some d => exact ⟨d, by rw [ensureWave_of_some valid, valid]⟩
  | none =>
    obtain ⟨d, built⟩ := buildWave_waves (e := e) named reads
    exact ⟨d, by rw [ensureWave_of_none valid, built, findWave_setWave_same]⟩

theorem ensureWave_other {k' : WaveKey} (ne : k' ≠ k) :
    findWave (ensureWave x k e).waves k' = findWave e.waves k' := by
  cases valid : findWave e.waves k with
  | some d => rw [ensureWave_of_some valid]
  | none =>
    obtain ⟨d, built⟩ := buildWave_waves (e := e) named reads
    rw [ensureWave_of_none valid, built, findWave_setWave_other _ _ ne]

omit named in
/-- A table wave leaves `WORK` open (R493). -/
theorem ensureWave_table_work (clear : findWave e.waves k = none)
    (table : ins.kind ∉ [kindSpectrum, kindDrumset, kindHarmonics]) :
    (ensureWave x k e).work = [] ∧ (ensureWave x k e).workEpoch = x.epoch := by
  rw [ensureWave_of_none clear]
  rcases waveOf_cases reads with ⟨kind, -⟩ | ⟨kind, -⟩ | ⟨kind, -⟩ | ⟨-, key⟩
  · simp [kind] at table
  · simp [kind] at table
  · simp [kind] at table
  · exact buildWave_table_work x e key

theorem ensureWave_harmonics_above (kind : ins.kind = kindHarmonics) {j : Nat} (h : x.cfg.harmonicsWaveLength ≤ j) :
    (ensureWave x k e).readWork j = e.readWork j := by
  cases valid : findWave e.waves k with
  | some d => rw [ensureWave_of_some valid]
  | none =>
    have key : k = .harmonics t.instrument := by
      simpa [waveOf, kind, kindChip, kindFm, kindNoise, kindSpectrum, kindDrumset, kindHarmonics, eq_comm] using reads
    rw [ensureWave_of_none valid, key, buildWave_harmonics named]
    exact transformedWave_above _ _ ((harmonicsBins_length ..).trans_le h)

theorem ensureWave_spectrum_above (kind : ins.kind ∈ [kindSpectrum, kindDrumset]) {j : Nat}
    (h : x.cfg.spectrumWaveLength ≤ j) : (ensureWave x k e).readWork j = e.readWork j := by
  cases valid : findWave e.waves k with
  | some d => rw [ensureWave_of_some valid]
  | none =>
    rw [ensureWave_of_none valid]
    rcases waveOf_cases reads with ⟨-, rfl⟩ | ⟨-, rfl⟩ | ⟨other, -⟩ | ⟨other, -⟩
    · rw [buildWave_spectrum named]
      exact transformedWave_above _ _ ((spectrumBins_length ..).trans_le h)
    · rw [buildWave_drum named]
      exact transformedWave_above _ _ ((spectrumBins_length ..).trans_le h)
    · simp [other, kindSpectrum, kindDrumset, kindHarmonics] at kind
    · exact absurd kind fun h => other (by simp only [List.mem_cons] at h ⊢; tauto)

end

/-- A lazy build changes the wave caches and `WORK`, nothing else. -/
theorem ensureOptional_frame (x : Ctx) (k : Option WaveKey) (e : Engine) : ensureOptional x k e = { e with
    waves := (ensureOptional x k e).waves, work := (ensureOptional x k e).work
    workEpoch := (ensureOptional x k e).workEpoch } := by
  cases k with
  | none => rfl
  | some k => exact ensureWave_frame x k e

/-- The elements that a loop is given: its entry's, once that is valid. -/
def loopWave (x : Ctx) (ins : Instrument) (t : Tone) (e : Engine) : List Num :=
  match waveOf ins t with
  | some k => waveData k (ensureOptional x (waveOf ins t) e)
  | none => []

/-- What a loop on a slot leaves: its tone, the scratch buffer, the random source, the count of the instrument's tones,
and what the lazy build leaves. -/
theorem synthSlot_eq (x : Ctx) (u n : Nat) (ins : Instrument) (t : Tone) (e : Engine) : synthSlot x u n ins t e =
    (let b := ensureOptional x (waveOf ins t) e
     let r := synthTone x u n ins (loopWave x ins t e) t e.rng e.scratch
     { e with
      tones := e.tones.set u r.1, scratch := r.2.1, rng := r.2.2
      slots := e.slots.modify t.instrument (fun i => { i with tonesThisTick := i.tonesThisTick + 1 })
      waves := b.waves, work := b.work, workEpoch := b.workEpoch }) := by
  have frame := ensureOptional_frame x (waveOf ins t) e
  unfold synthSlot loopWave
  generalize ensureOptional x (waveOf ins t) e = b at frame ⊢
  rw [frame] <;> rfl

/-- A loop whose entry is valid is given that entry; pwm reads none. -/
theorem synthTone_loopWave {x : Ctx} {u n : Nat} {ins : Instrument} {t : Tone} {e : Engine} {data : List Num}
    (known : ins.kind ∈ synthKinds) (valid : ∀ k, waveOf ins t = some k → findWave e.waves k = some data) :
    synthTone x u n ins (loopWave x ins t e) t e.rng e.scratch = synthTone x u n ins data t e.rng e.scratch := by
  cases reads : waveOf ins t with
  | some k =>
    have built : ensureOptional x (waveOf ins t) e = e := by rw [reads]; exact ensureWave_of_some (valid k reads)
    have wave : loopWave x ins t e = data := by
      rw [loopWave, built, reads]
      simp [waveData, valid k reads]
    rw [wave]
  | none =>
    have kind : ins.kind = kindPwm := by
      simp only [synthKinds, List.mem_cons, List.not_mem_nil, or_false] at known
      unfold waveOf at reads
      split_ifs at reads
      simp_all
    rw [synthTone_pwm kind, synthTone_pwm kind]

/-! The commands (R240). -/

/-- The eight commands with the kind of each. -/
def synthCommands (u n : Nat) : List (Instr × Nat) :=
  [(.synChip u n, kindChip), (.synFm u n, kindFm), (.synNoise u n, kindNoise), (.synSpectrum u n, kindSpectrum),
    (.synDrumset u n, kindDrumset), (.synHarmonics u n, kindHarmonics), (.synPwm u n, kindPwm),
    (.synGuitar u n, kindGuitar)]

theorem exec_synth {u n kind : Nat} {i : Instr} (h : (i, kind) ∈ synthCommands u n) (s : State) :
    exec i s = .next (onEngine s (synthDirect (s.ctx Config.cfg i) kind u n s.eng)) := by
  simp only [synthCommands, List.mem_cons, Prod.mk.injEq, List.not_mem_nil, or_false] at h
  rcases h with ⟨rfl, rfl⟩ | ⟨rfl, rfl⟩ | ⟨rfl, rfl⟩ | ⟨rfl, rfl⟩ | ⟨rfl, rfl⟩ | ⟨rfl, rfl⟩ |
    ⟨rfl, rfl⟩ | ⟨rfl, rfl⟩ <;> rfl

theorem mem_synthKinds {u n kind : Nat} {i : Instr} (h : (i, kind) ∈ synthCommands u n) : kind ∈ synthKinds :=
  List.mem_map_of_mem (f := Prod.snd) h

theorem synthDirect_of_kind {x : Ctx} {e : Engine} {u n : Nat} {t : Tone} {ins : Instrument}
    (slot : e.tones[u]? = some t) (used : t.state ≠ .free) (named : slotInstrument x.song t.instrument = some ins)
    (least : 1 ≤ n) (most : n ≤ e.runMax x.cfg) :
    synthDirect x ins.kind u n e = .ok (synthSlot x u n ins t e) := by
  have legal : runLengthLegal x.cfg e n = true := by simp [runLengthLegal, least, most]
  simp [synthDirect, liveTone_eq_ok slot used, named, legal]

end Sys2Proof.Machine

namespace Sys2Proof.Proofs

open Sys2Proof.Machine

section
variable {s : State} {u n : Nat} {i : Instr} {a : Tone} {ins : Instrument}
  (command : (i, ins.kind) ∈ synthCommands u n) (clear : s.fault = false) (slot : s.eng.tones[u]? = some a)
  (used : a.state ≠ .free) (named : slotInstrument s.song a.instrument = some ins) (least : 1 ≤ n)
  (most : n ≤ s.eng.runMax Config.cfg)
include command clear slot used named least most

theorem exec_synth_ok : exec i s = .next { s with eng :=
    (let x := s.ctx Config.cfg i
     let b := ensureOptional x (waveOf ins a) s.eng
     let r := synthTone x u n ins (loopWave x ins a s.eng) a s.eng.rng s.eng.scratch
     { s.eng with
      tones := s.eng.tones.set u r.1, scratch := r.2.1, rng := r.2.2
      slots := s.eng.slots.modify a.instrument (fun i => { i with tonesThisTick := i.tonesThisTick + 1 })
      waves := b.waves, work := b.work, workEpoch := b.workEpoch }) } := by
  rw [exec_synth command, synthDirect_of_kind slot used named least most, synthSlot_eq]
  exact congrArg _ (onEngine_ok clear _)

end

/-- Settles O42: each command is its kind's loop on the slot, which iterates one sample's step (`SynthRun`). -/
theorem synthLoops : Obligations.SynthLoops := by
  refine ⟨?frame, ?samples⟩
  case frame =>
    intro s u n kind i a ins command clear slot used named isKind least most wf
    subst isKind
    have known := mem_synthKinds command
    obtain ⟨reg, run, source⟩ := synthTone_run (s.ctx Config.cfg i) u n ins
      (loopWave (s.ctx Config.cfg i) ins a s.eng) a s.eng.rng wf known
    have left := synthTone_looped (s.ctx Config.cfg i) u n ins (loopWave (s.ctx Config.cfg i) ins a s.eng) a s.eng.rng
      s.eng.scratch known
    refine ⟨_, _, exec_synth_ok command clear slot used named least most, rfl, rfl, fun unread => ?_,
      fun k reads => ?_, run.above, fun still => source.trans ?_, left.frame, left.width, left.strings, left.feedback,
      left.smoothed, left.integrals⟩
    · rw [unread]; rfl
    · let x := s.ctx Config.cfg i
      have key : waveOf ins a = some k := reads
      have built : ensureOptional x (waveOf ins a) s.eng = ensureWave x k s.eng := by rw [key]; rfl
      have read (j : Nat) := congrArg (fun e => Engine.readWork e j) built
      rw [reads]
      exact ⟨ensureWave_valid (x := x) named key, fun k' ne => ensureWave_other (x := x) named key ne,
        fun d valid => ensureWave_of_some valid, fun none table => ensureWave_table_work key none table,
        fun kind j above => (read j).trans (ensureWave_harmonics_above (x := x) named key kind above),
        fun kind j above => (read j).trans (ensureWave_spectrum_above (x := x) named key kind above)⟩
    · have quiet : ¬ (ins.kind = kindSpectrum ∨ ins.kind = kindDrumset) ∧ ins.kind ≠ kindGuitar := by
        simp only [List.mem_cons, List.not_mem_nil, or_false] at still
        tauto
      rw [loopStart_plain (fun h => quiet.1 h.1) quiet.2]
  case samples =>
    intro s u n kind i a0 ins data command clear slot used named isKind least most wf valid
    subst isKind
    have known := mem_synthKinds command
    obtain ⟨reg, run, source⟩ := synthTone_run (s.ctx Config.cfg i) u n ins data a0 s.eng.rng wf known
    have ends := exec_synth_ok command clear slot used named least most
    rw [← synthTone_loopWave (e := s.eng) known valid] at run source
    refine ⟨_, reg, ends, congrArg (s.eng.tones.set u) run.finish, fun drawing => ?_, fun guitar => ?_,
      fun drawing guitar => ?_, fun j below => ?_⟩
    · have start := loopStart_drawing (x := s.ctx Config.cfg i) (wave := data) (rng := s.eng.rng) drawing
      exact ⟨source.trans (congrArg Prod.snd start), run.start.trans (congrArg Prod.fst start)⟩
    · have start := loopStart_guitar (x := s.ctx Config.cfg i) (wave := data) (t := a0) (rng := s.eng.rng) guitar
      exact ⟨source.trans (congrArg Prod.snd start), run.start.trans (congrArg Prod.fst start)⟩
    · have start := loopStart_plain (x := s.ctx Config.cfg i) (wave := data) (rng := s.eng.rng) drawing guitar
      exact ⟨source.trans (congrArg Prod.snd start), run.start.trans (congrArg Prod.fst start)⟩
    · obtain ⟨v, one⟩ := run.sample j below
      obtain ⟨chip, pwm, noise, spectrum, fm, guitar⟩ := one.own
      exact ⟨v, ⟨one.filters, one.heard⟩, one.ramp, chip, pwm, noise, spectrum, fm, guitar⟩

end Sys2Proof.Proofs
end

section
/-! PROOFS. The envelope curves, the vibrato LFO and the scalar helpers (`42_envelope_lfo.md` R181 to R198,
`43_tone_voicing.md` R214): which operands lie inside a domain, the value there, and how the commands end. -/

namespace Sys2Proof

/-! The order of `Num` (R7). -/

theorem Num.lt_iff {x y : Num} : x.lt y = true ↔ x.isNaN = false ∧ y.isNaN = false ∧ x.key < y.key := by
  simp [Num.lt, and_assoc]

theorem Num.le_iff {x y : Num} : x.le y = true ↔ x.isNaN = false ∧ y.isNaN = false ∧ x.key ≤ y.key := by
  simp [Num.le, and_assoc]

theorem Num.lt_eq_false_of_le {x y : Num} (h : x.le y = true) : y.lt x = false := by
  obtain ⟨-, -, order⟩ := Num.le_iff.mp h
  refine Bool.eq_false_iff.mpr fun above => ?_
  obtain ⟨-, -, strict⟩ := Num.lt_iff.mp above
  exact strict.not_ge order

theorem Num.le_eq_false_of_lt {x y : Num} (h : x.lt y = true) : y.le x = false := by
  obtain ⟨-, -, strict⟩ := Num.lt_iff.mp h
  refine Bool.eq_false_iff.mpr fun below => ?_
  obtain ⟨-, -, order⟩ := Num.le_iff.mp below
  exact strict.not_ge order

/-! Arpeggio indices (R214). -/

theorem arpeggioIndex_lt (c : Cfg) {n : Nat} (rhythm k : Nat) (pos : 1 ≤ n) : c.arpeggioIndex n rhythm k < n :=
  Nat.mod_lt _ pos

/-! Named points of `pow` (R7): 0 to the power 1.5 is a zero of either sign, 1 to any power is 1. -/

theorem powOf_zero_threeHalves (c : Cfg) : (c.powOf .zero threeHalves).eq .zero = true := by
  have value : c.powOf .zero threeHalves =
      if (c.numerics.pow .zero threeHalves).eq .zero then c.numerics.pow .zero threeHalves else .zero := rfl
  rw [value]
  split
  next kept => exact kept
  next => decide

theorem powOf_one (c : Cfg) (y : Num) : c.powOf .one y = .one :=
  if_pos (Bool.or_eq_true_iff.mpr (.inr (by decide)))

end Sys2Proof

namespace Sys2Proof.Machine

/-! Domains (R192, R196, U16). -/

theorem outOfDomain_eq_false {x : Num} : outOfDomain x = false ↔ x.isNaN = false ∧ x.lt .zero = false :=
  Bool.or_eq_false_iff

theorem outOfDomain_of_nonneg {x : Num} (h : Num.zero.le x = true) : outOfDomain x = false := by
  obtain ⟨-, number, -⟩ := Num.le_iff.mp h
  exact outOfDomain_eq_false.mpr ⟨number, Num.lt_eq_false_of_le h⟩

theorem outOfDomain_pair {x y : Num}
    (h : (x.isNaN = false ∧ x.lt .zero = false) ∧ y.isNaN = false ∧ y.lt .zero = false) :
    (outOfDomain x || outOfDomain y) = false :=
  Bool.or_eq_false_iff.mpr (h.imp outOfDomain_eq_false.mpr outOfDomain_eq_false.mpr)

/-! Vibrato periods (R193). -/

theorem vibratoPeriods_positive {v : Vibrato} {p : Num} (mem : p ∈ vibratoPeriods v) : Num.zero.lt p = true := by
  obtain ⟨q, -, rfl⟩ := List.mem_map.mp mem
  split
  next positive => exact positive
  next => decide

theorem vibratoPeriods_ne_nil (v : Vibrato) : vibratoPeriods v ≠ [] := List.cons_ne_nil _ _

/-! `EXPR` (R196) and `RELSCALE` (R197). -/

theorem exprOf_inside (c : Cfg) {x : Num} (free : Num) (low : Num.zero.le x = true)
    (high : x.le (Num.ofNat 3) = true) : exprOf c x free = c.powOf (x.div (Num.ofNat 3)) threeHalves := by
  have inside : (outOfDomain x || (Num.ofNat expressionMax).lt x) = false :=
    Bool.or_eq_false_iff.mpr ⟨outOfDomain_of_nonneg low, Num.lt_eq_false_of_le high⟩
  rw [exprOf, inside]
  rfl

theorem exprOf_zero (c : Cfg) (free : Num) : (exprOf c .zero free).eq .zero = true := by
  rw [exprOf_inside c free (by decide) (by decide +kernel),
    show Num.zero.div (Num.ofNat 3) = .zero by decide +kernel]
  exact powOf_zero_threeHalves c

theorem exprOf_three (c : Cfg) (free : Num) : exprOf c (Num.ofNat 3) free = .one := by
  rw [exprOf_inside c free (by decide +kernel) (by decide +kernel),
    show (Num.ofNat 3).div (Num.ofNat 3) = .one by decide +kernel]
  exact powOf_one c _

theorem relscaleOf_done (c : Cfg) (x free : Num) {y : Num} (h : y.le .zero = true) : relscaleOf c x y free = .zero :=
  if_pos h

theorem relscaleOf_inside (c : Cfg) {x y : Num} (free : Num) (since : Num.zero.le x = true)
    (ticks : Num.zero.lt y = true) :
    relscaleOf c x y free = c.powOf (Num.max .zero (Num.one.sub (x.div y))) threeHalves := by
  have inside : (outOfDomain x || y.isNaN) = false :=
    Bool.or_eq_false_iff.mpr ⟨outOfDomain_of_nonneg since, (positive_facts ticks).1⟩
  rw [relscaleOf, Num.le_eq_false_of_lt ticks, inside]
  rfl

/-! `VIB.RAMP` (R194). -/

theorem vibRampOf_eq (ticks delay : Num) :
    vibRampOf ticks delay = Num.max .zero (Num.min .one ((ticks.sub delay).div .two)) := by
  rw [vibRampOf, show Num.ofNat vibratoRampTicks = .two by decide +kernel]
  rfl

/-! How the commands end. -/

section
variable {s : State} {i : Instr} (clear : s.fault = false)
include clear

/-- A command without checks leaves its one value in `r[0]` and nothing else. -/
theorem answer_given {x : Num} (run : exec i s = .next (command s (.ok (answer s [x])))) :
    ∃ t, exec i s = .next t ∧ s.onlyResults t 1 ∧ t.result 0 = some x := by
  rw [command_ok clear] at run
  exact ⟨_, run, answer_onlyResults s _, (result_answer_one s x).1⟩

/-- A command with a domain leaves one value for every operand, inside the domain the value of its rule. -/
theorem curve_given {free x : Num} {out : Bool} {dom : Prop} (inside : dom → out = false)
    (run : exec i s = .next (command s (.ok (answer s [if out then free else x])))) :
    ∃ t, exec i s = .next t ∧ s.onlyResults t 1 ∧ (dom → t.result 0 = some x) := by
  obtain ⟨t, ends, only, shown⟩ := answer_given clear run
  refine ⟨t, ends, only, fun holds => ?_⟩
  rw [shown, inside holds]
  rfl

theorem lfo_given {u : Nat} {tau : Num} {v : Vibrato} (found : Config.cfg.vibratos.get? u = some v) :
    ∃ t, exec (.lfo u tau) s = .next t ∧ s.onlyResults t 1 ∧ t.result 0 = some (lfoSum Config.cfg v tau) := by
  refine answer_given clear ?_
  show Host.Outcome.next (lfoWith (s.ctx Config.cfg (.lfo u tau)) s u tau) = _
  rw [lfoWith, show (s.ctx Config.cfg (.lfo u tau)).cfg.vibratos.get? u = some v from found]
  rfl

/-- A vibrato outside the table is `BadIndex` (R453). -/
theorem lfo_refused {u : Nat} {tau : Num} (missing : Config.cfg.vibratos.get? u = none) :
    exec (.lfo u tau) s = .next (s.withFault 2#8 (headerInfo (Instr.header (.lfo u tau)))) := by
  show Host.Outcome.next (lfoWith (s.ctx Config.cfg (.lfo u tau)) s u tau) = _
  rw [lfoWith, show (s.ctx Config.cfg (.lfo u tau)).cfg.vibratos.get? u = none from missing]
  exact congrArg _ ((command_error clear _).trans (raise_eq_withFault clear _))

end

/-- The checks of `ARP.INDEX` (R214). -/
theorem arpIndexLegal_iff {c : Cfg} {n rhythm : Nat} :
    (decide (1 ≤ n) && decide (n ≤ c.maxChordSize) && decide (rhythm < c.rhythmCount)) = true ↔
      1 ≤ n ∧ n ≤ c.maxChordSize ∧ rhythm < c.rhythmCount := by
  simp [and_assoc]

end Sys2Proof.Machine

namespace Sys2Proof.Proofs

open Sys2Proof.Machine

/-- Settles O36: the two curves without a domain by their value, each other one by the operands that its rule admits. -/
theorem envelopeCurves : Obligations.EnvelopeCurves := by
  intro s t b v e clear
  refine ⟨?steady, ?custom, ?twang, ?swell, ?tremolo, ?tremolo2, ?punch, ?flare, ?decay⟩
  case steady =>
    obtain ⟨s', run, only, shown⟩ := answer_given (i := .envSteady t b v e) clear rfl
    exact ⟨s', run, only, fun _ => shown⟩
  case custom =>
    obtain ⟨s', run, only, shown⟩ := answer_given (i := .envCustom t b v e) clear rfl
    exact ⟨s', run, only, fun _ => shown⟩
  case twang => exact curve_given (i := .envTwang t b v e) clear outOfDomain_pair rfl
  case swell => exact curve_given (i := .envSwell t b v e) clear outOfDomain_pair rfl
  case tremolo => exact curve_given (i := .envTremolo t b v e) clear outOfDomain_pair rfl
  case tremolo2 => exact curve_given (i := .envTremolo2 t b v e) clear outOfDomain_pair rfl
  case punch => exact curve_given (i := .envPunch t b v e) clear outOfDomain_eq_false.mpr rfl
  case flare => exact curve_given (i := .envFlare t b v e) clear outOfDomain_pair rfl
  case decay => exact curve_given (i := .envDecay t b v e) clear outOfDomain_pair rfl

/-- Settles O37: each command by the value that it answers, that value by the points and the domain of its rule;
`LFO` and `ARP.INDEX` by their checks first. -/
theorem voiceHelpers : Obligations.VoiceHelpers := by
  intro s u n rhythm k x y clear
  refine ⟨fun vib found => ⟨fun _ => vibratoPeriods_positive, vibratoPeriods_ne_nil vib, ?lfo⟩,
    lfo_refused clear, ?expr, ?relscale, ?ramp, ?pitch, fun least most known => ?arp, fun outside => ?arpRefused⟩
  case lfo =>
    obtain ⟨t, run, only, shown⟩ := lfo_given (tau := x) clear found
    exact ⟨t, _, run, only, shown, rfl⟩
  case expr =>
    obtain ⟨t, run, only, shown⟩ := answer_given (i := .expr x) clear rfl
    refine ⟨t, _, run, only, shown, fun zero => ?_, fun three => ?_, exprOf_inside _ _⟩
    · subst zero
      exact exprOf_zero _ _
    · subst three
      exact exprOf_three _ _
  case relscale =>
    obtain ⟨t, run, only, shown⟩ := answer_given (i := .relscale x y) clear rfl
    exact ⟨t, _, run, only, shown, relscaleOf_done _ _ _, relscaleOf_inside _ _⟩
  case ramp =>
    obtain ⟨t, run, only, shown⟩ := answer_given (i := .vibRamp x y) clear rfl
    exact ⟨t, _, run, only, shown, vibRampOf_eq x y⟩
  case pitch =>
    obtain ⟨t, run, only, shown⟩ := answer_given (i := .pitchHz x) clear rfl
    exact ⟨t, _, run, only, shown, rfl⟩
  case arp =>
    obtain ⟨t, run, only, shown⟩ :=
      value_given (i := .arpIndex n rhythm k) clear rfl (arpIndexLegal_iff.mpr ⟨least, most, known⟩)
    exact ⟨t, _, run, only, shown, _, arpeggioIndex_lt Config.cfg rhythm k least, rfl⟩
  case arpRefused =>
    refine value_refused (i := .arpIndex n rhythm k) clear rfl (Bool.eq_false_iff.mpr fun legal => ?_)
    obtain ⟨least, most, known⟩ := arpIndexLegal_iff.mp legal
    simp only [State.ctx] at most known
    omega

end Sys2Proof.Proofs
end

section
/-! PROOFS. Where `TONE.COMPUTE` faults (`43_tone_voicing.md` R212, R217, `60_exceptions.md` R453, R458): an envelope of
no known type that the update evaluates stops the step that evaluates it, and the fault names such an envelope. -/

namespace Sys2Proof.Machine

/-! One envelope (R217, R453). -/

/-- The fault of tone slot `u` at an entry of the envelope table (R453). -/
def unknownEnvelopeAt (c : Cfg) (u entry : Nat) : Raise :=
  ⟨.unknownEnvelope, BitVec.ofNat 32 (u % 2 ^ 16 + (c.envelopes.get entry).kind % 2 ^ 8 * 2 ^ 16)⟩

/-- `r` is the fault at an entry of `entries` whose type is none of the nine. -/
def StopsAt {α : Type} (c : Cfg) (u : Nat) (entries : List Nat) (r : Except Raise α) : Prop :=
  ∃ k ∈ entries, 9 ≤ (c.envelopes.get k).kind ∧ r = .error (unknownEnvelopeAt c u k)

/-- What passes a fault on stops where the step that raised it did, though that step evaluates fewer envelopes. -/
theorem StopsAt.pass {α β : Type} {c : Cfg} {u : Nat} {few many : List Nat} {r : Except Raise α}
    {q : Except Raise β} (stop : StopsAt c u few r) (sub : few ⊆ many)
    (passes : ∀ f, r = .error f → q = .error f) : StopsAt c u many q := by
  obtain ⟨k, used, unknown, fault⟩ := stop
  exact ⟨k, sub used, unknown, passes _ fault⟩

/-- Beyond the nine numbers of R180 there is no curve. -/
theorem envelopeCurve_of_unknown (c : Cfg) {kind : Nat} (unknown : 9 ≤ kind) (t b s n o : Num) :
    envelopeCurve c kind t b s n o = none := by
  obtain ⟨m, rfl⟩ := Nat.exists_eq_add_of_le' unknown
  rfl

theorem envelopeEnds_of_unknown {x : Ctx} {entry : Nat} (unknown : 9 ≤ (x.cfg.envelopes.get entry).kind) (u key : Nat)
    (s b n : Ends) : envelopeEnds x u key entry s b n = .error (unknownEnvelopeAt x.cfg u entry) := by
  simp only [envelopeEnds, envelopeCurve_of_unknown _ unknown, unknownEnvelopeAt]

/-! The steps of the update. -/

theorem updatePulse_of_unknown {x : Ctx} {v : Voice} (t : Tone) (pwm : v.ins.kind = kindPwm)
    (unknown : 9 ≤ (x.cfg.envelopes.get v.ins.pulseEnvelope).kind) :
    updatePulse x v t = .error (unknownEnvelopeAt x.cfg v.u v.ins.pulseEnvelope) := by
  rw [updatePulse, if_pos pwm, envelopeEnds_of_unknown unknown]
  rfl

/-- The operators stop at the first one whose envelope is unknown. -/
theorem updateOperators_stopsAt {x : Ctx} {v : Voice} (k : Nat) {ops : List Operator} (t : Tone)
    (unknown : ∃ o ∈ ops, 9 ≤ (x.cfg.envelopes.get o.envelope).kind) :
    StopsAt x.cfg v.u (ops.map Operator.envelope) (updateOperators x v k ops t) := by
  induction ops generalizing k t with
  | nil =>
    obtain ⟨o, ho, -⟩ := unknown
    nomatch ho
  | cons o rest ih =>
    by_cases known : (x.cfg.envelopes.get o.envelope).kind < 9
    · obtain ⟨env, henv⟩ := Voice.envelope_of_known known (v := v) (40 + 2 * k)
      have later : ∃ o ∈ rest, 9 ≤ (x.cfg.envelopes.get o.envelope).kind := by
        simpa [Nat.not_le.mpr known] using unknown
      rw [updateOperators_cons henv]
      exact (ih (k + 1) _ later).pass (List.subset_cons_self ..) fun _ => id
    · have first := Nat.le_of_not_lt known
      refine ⟨o.envelope, List.mem_cons_self, first, ?_⟩
      rw [updateOperators, envelopeEnds_of_unknown first]

/-- The fm step stops at an operator or, with every operator's envelope known, at the feedback. -/
theorem updateLevels_stopsAt {x : Ctx} {v : Voice} (t : Tone) (fm : v.ins.kind = kindFm)
    (unknown : ∃ k ∈ v.ins.feedbackEnvelope :: v.ins.operators.map Operator.envelope,
      9 ≤ (x.cfg.envelopes.get k).kind) :
    StopsAt x.cfg v.u (v.ins.feedbackEnvelope :: v.ins.operators.map Operator.envelope) (updateLevels x v t) := by
  rw [updateLevels, if_pos fm]
  by_cases operator : ∃ o ∈ v.ins.operators, 9 ≤ (x.cfg.envelopes.get o.envelope).kind
  · refine (updateOperators_stopsAt 0 t operator).pass (List.subset_cons_self ..) fun f fault => ?_
    rw [fault]
  · have known : ∀ o ∈ v.ins.operators, (x.cfg.envelopes.get o.envelope).kind < 9 := fun o ho =>
      Nat.lt_of_not_le fun high => operator ⟨o, ho, high⟩
    obtain ⟨starts, deltas, run, -, -⟩ := updateOperators_spec (v := v) 0 t known
    have feedback : 9 ≤ (x.cfg.envelopes.get v.ins.feedbackEnvelope).kind := by
      obtain ⟨k, hk, high⟩ := unknown
      obtain rfl | mapped := List.mem_cons.mp hk
      · exact high
      · obtain ⟨o, ho, rfl⟩ := List.mem_map.mp mapped
        exact absurd ⟨o, ho, high⟩ operator
    refine ⟨_, List.mem_cons_self, feedback, ?_⟩
    rw [run]
    dsimp only [updateFeedback]
    rw [envelopeEnds_of_unknown feedback]
    rfl

theorem updateFilters_of_unknown {x : Ctx} {v : Voice} {t : Tone} (points : v.ins.filter.isEmpty = false)
    (unknown : 9 ≤ (x.cfg.envelopes.get (filterEntry v.ins t)).kind) :
    updateFilters x v t = .error (unknownEnvelopeAt x.cfg v.u (filterEntry v.ins t)) := by
  unfold filterEntry at unknown ⊢
  rw [updateFilters, if_neg (by simp [points])]
  dsimp only
  rw [envelopeEnds_of_unknown unknown]
  rfl

/-! Where a step completes, it hands the drum's pitch on to the filter (R217). -/

theorem exists_updatePulse {x : Ctx} {v : Voice} (t : Tone)
    (known : v.ins.kind = kindPwm → (x.cfg.envelopes.get v.ins.pulseEnvelope).kind < 9) :
    ∃ b, updatePulse x v t = .ok b ∧ b.drumsetPitch = t.drumsetPitch :=
  let ⟨_, _, run, _⟩ := updatePulse_spec t known
  ⟨_, run, rfl⟩

theorem exists_updateLevels {x : Ctx} {v : Voice} (t : Tone)
    (known : v.ins.kind = kindFm → ∀ k ∈ v.ins.feedbackEnvelope :: v.ins.operators.map Operator.envelope,
      (x.cfg.envelopes.get k).kind < 9) :
    ∃ b, updateLevels x v t = .ok b ∧ b.drumsetPitch = t.drumsetPitch :=
  let ⟨_, _, _, _, run, _⟩ := updateLevels_spec t fun fm =>
    ⟨known fm _ List.mem_cons_self, fun _ ho => known fm _ (List.mem_cons_of_mem _ (List.mem_map_of_mem ho))⟩
  ⟨_, run, rfl⟩

/-! The whole update (R212). -/

/-- The envelopes that the update evaluates, by the step that evaluates them. -/
theorem mem_usedEnvelopes {ins : Instrument} {t : Tone} {k : Nat} : k ∈ usedEnvelopes ins t ↔
    (ins.kind = kindPwm ∧ k = ins.pulseEnvelope) ∨
    (ins.kind = kindFm ∧ k ∈ ins.feedbackEnvelope :: ins.operators.map Operator.envelope) ∨
    (ins.filter.isEmpty = false ∧ k = if ins.kind = kindDrumset then ins.drumEnvelopes.getD (drumsetPitchOf t) 0
      else ins.filterEnvelope) := by
  rw [usedEnvelopes, ← apply_ite (· :: []), List.mem_append, List.mem_append, List.mem_ite_nil_left,
    List.mem_ite_nil_right, List.mem_ite_nil_right, List.mem_singleton, List.mem_singleton, Bool.not_eq_true]
  tauto

/-- A kind outside the eight stops the update before its first step. -/
theorem computeTone_of_unknownKind {x : Ctx} {ins : Instrument} {t : Tone} (k : Clock) (u n : Nat)
    (unknown : 8 ≤ ins.kind) : computeTone x k u n ins t =
      .error ⟨.unknownInstrument, BitVec.ofNat 32 (t.instrument % 2 ^ 16 + ins.kind % 2 ^ 8 * 2 ^ 16)⟩ :=
  if_pos unknown

/-- The update of a tone of a known kind stops where it evaluates an unknown envelope: at the first of the steps pulse
width, levels and filter that evaluates one (assumption 69). -/
theorem computeTone_stopsAt {x : Ctx} {ins : Instrument} {t : Tone} (k : Clock) (u n : Nat) (kind : ins.kind < 8)
    (unknown : ∃ k ∈ usedEnvelopes ins t, 9 ≤ (x.cfg.envelopes.get k).kind) :
    StopsAt x.cfg u (usedEnvelopes ins t) (computeTone x k u n ins t) := by
  obtain ⟨t1, marked, drum⟩ : ∃ t1, (if ins.kind = kindDrumset then
        { markLastTick x.cfg ins t with drumsetPitch := drumsetPitchOf (markLastTick x.cfg ins t) }
      else markLastTick x.cfg ins t) = t1 ∧
      t1.drumsetPitch = if ins.kind = kindDrumset then drumsetPitchOf t else t.drumsetPitch :=
    let ⟨_, marked, _⟩ := marked_spec x ins t
    ⟨_, marked, rfl⟩
  rw [computeTone, if_neg (Nat.not_le.mpr kind)]
  dsimp only
  rw [marked]
  by_cases pulse : ins.kind = kindPwm ∧ 9 ≤ (x.cfg.envelopes.get ins.pulseEnvelope).kind
  case pos =>
    obtain ⟨pwm, high⟩ := pulse
    refine ⟨_, mem_usedEnvelopes.mpr (.inl ⟨pwm, rfl⟩), high, ?_⟩
    rw [updatePulse_of_unknown (v := voiceOf x k u n ins t) t1 pwm high]
    rfl
  obtain ⟨t2, pulsed, same2⟩ := exists_updatePulse (x := x) (v := voiceOf x k u n ins t) t1 fun pwm =>
    Nat.lt_of_not_le fun high => pulse ⟨pwm, high⟩
  rw [pulsed]
  dsimp only
  by_cases levels : ins.kind = kindFm ∧
    ∃ k ∈ ins.feedbackEnvelope :: ins.operators.map Operator.envelope, 9 ≤ (x.cfg.envelopes.get k).kind
  case pos =>
    obtain ⟨fm, high⟩ := levels
    refine (updateLevels_stopsAt (v := voiceOf x k u n ins t) t2 fm high).pass
      (fun k used => mem_usedEnvelopes.mpr (.inr (.inl ⟨fm, used⟩))) fun f fault => ?_
    rw [fault]
  obtain ⟨t3, levelled, same3⟩ := exists_updateLevels (x := x) (v := voiceOf x k u n ins t) t2 fun fm k used =>
    Nat.lt_of_not_le fun high => levels ⟨fm, k, used, high⟩
  rw [levelled]
  dsimp only
  have entry := filterEntry_of_drum (same3.trans (same2.trans drum))
  obtain ⟨e, used, high⟩ := unknown
  obtain ⟨pwm, rfl⟩ | ⟨fm, member⟩ | ⟨points, taken⟩ := mem_usedEnvelopes.mp used
  · exact absurd ⟨pwm, high⟩ pulse
  · exact absurd ⟨fm, e, member, high⟩ levels
  · rw [← entry] at taken
    subst taken
    refine ⟨_, used, high, ?_⟩
    rw [updateFilters_of_unknown (v := voiceOf x k u n ins t) points high]
    rfl

/-! The command (R212, R453, R458). -/

section

variable {x : Ctx} {s : State} {u n : Nat} {a : Tone} (clear : s.fault = false) (ha : s.eng.tones[u]? = some a)
include clear ha

/-- A free slot has no tone to update. -/
theorem toneComputeWith_of_free (free : a.state = .free) : toneComputeWith x s u n = s.withFault 2#8 x.info := by
  rw [toneComputeWith, if_neg (by simp [clear]), liveTone_eq_error ha free]
  exact raise_eq_withFault clear _

/-- A run length outside `1` to `runMax`. -/
theorem toneComputeWith_of_badLength (used : a.state ≠ .free) (bad : n = 0 ∨ s.eng.runMax x.cfg < n) :
    toneComputeWith x s u n = s.withFault 4#8 x.info := by
  have illegal : ¬ runLengthLegal x.cfg s.eng n = true := by
    simp only [runLengthLegal, Bool.and_eq_true, decide_eq_true_eq]
    omega
  rw [toneComputeWith, if_neg (by simp [clear]), liveTone_eq_ok ha used]
  dsimp only
  rw [if_neg illegal]
  exact raise_eq_withFault clear _

/-- An update that stops leaves the slot's own fields open, and the state around them as it was. -/
theorem toneComputeWith_of_error {ins : Instrument} {f : Raise} (used : a.state ≠ .free)
    (hins : slotInstrument x.song a.instrument = some ins) (positive : 1 ≤ n) (inside : n ≤ s.eng.runMax x.cfg)
    (stop : computeTone x s.eng.clock u n ins a = .error f) :
    toneComputeWith x s u n =
      { s with eng := { s.eng with tones := s.eng.tones.set u (wreckTone x u a) } }.withFault f.kind.code f.info := by
  have legal : runLengthLegal x.cfg s.eng n = true :=
    Bool.and_eq_true_iff.mpr ⟨decide_eq_true positive, decide_eq_true inside⟩
  have slot : computeSlot x u n s.eng a = .error f := by
    rw [computeSlot, hins]
    dsimp only
    rw [stop]
    rfl
  rw [toneComputeWith, if_neg (by simp [clear]), liveTone_eq_ok ha used]
  dsimp only
  rw [if_pos legal, slot]
  exact raise_eq_withFault (s := { s with eng := s.eng.setTone u (wreckTone x u a) }) clear f

end

end Sys2Proof.Machine

namespace Sys2Proof.Proofs

open Sys2Proof.Machine

/-- Settles O41: the checks before the update by what the slot and the run length are, the faults of the update by where
it stops. -/
theorem toneComputeFaults : Obligations.ToneComputeFaults := by
  refine ⟨fun s u n a ins clear ha hins => ⟨fun free => ?free, fun used bad => ?length,
    fun used positive inside kind => ?kind⟩, fun _ _ _ => rfl,
    fun x s u n a ins clear ha used hins kind positive inside unknown => ?envelope⟩
  case free => exact congrArg Host.Outcome.next (toneComputeWith_of_free clear ha free)
  case length => exact congrArg Host.Outcome.next (toneComputeWith_of_badLength clear ha used bad)
  case kind =>
    exact ⟨_, congrArg Host.Outcome.next (toneComputeWith_of_error clear ha used hins positive inside
      (computeTone_of_unknownKind _ u n kind))⟩
  case envelope =>
    obtain ⟨k, evaluated, high, stop⟩ := computeTone_stopsAt s.eng.clock u n kind unknown
    exact ⟨_, k, evaluated, high, toneComputeWith_of_error clear ha used hins positive inside stop⟩

end Sys2Proof.Proofs
end

section
set_option Elab.async false
/-! PROOFS. How `SONG.LOAD` ends (`47_system.md` R380), by whether the payload is a song and whether that song is
accepted. -/

namespace Sys2Proof.Machine

variable {s : State} {rest : List Payload} {v : Song}

/-- The state behind a refused load: the payload taken, and `BadConfig`. -/
def State.refusedLoad (s : State) (rest : List Payload) : State :=
  { s with payload := rest }.withFault 3#8 (headerInfo (Instr.header .songLoad))

theorem raise_badConfig_songLoad (clear : s.fault = false) :
    raise ⟨.badConfig, commandInfo .songLoad⟩ { s with payload := rest } = s.refusedLoad rest :=
  raise_eq_withFault (s := { s with payload := rest }) clear _

theorem exec_songLoad_accepted (clear : s.fault = false) (payload : s.payload = .song v :: rest)
    (accepted : songAccepted Config.cfg v = true) :
    exec .songLoad s = .next (installSong Config.cfg v { s with payload := rest }) := by
  show Host.Outcome.next (songLoadWith (s.ctx Config.cfg .songLoad) s) = _
  simp [songLoadWith, clear, payload, State.ctx, accepted]

theorem exec_songLoad_refused (clear : s.fault = false) (payload : s.payload = .song v :: rest)
    (refused : songAccepted Config.cfg v = false) : exec .songLoad s = .next (s.refusedLoad rest) := by
  rw [← raise_badConfig_songLoad clear]
  show Host.Outcome.next (songLoadWith (s.ctx Config.cfg .songLoad) s) = _
  simp [songLoadWith, clear, payload, State.ctx, refused]

theorem exec_songLoad_noSong {e : SongEdit} (clear : s.fault = false) (payload : s.payload = .edit e :: rest) :
    exec .songLoad s = .next (s.refusedLoad rest) := by
  rw [← raise_badConfig_songLoad clear]
  show Host.Outcome.next (songLoadWith (s.ctx Config.cfg .songLoad) s) = _
  simp [songLoadWith, clear, payload, State.ctx]

/-- A load writes the song and the engine alone. -/
theorem installSong_frame (c : Cfg) (v : Song) (s : State) :
    installSong c v s = { s with song := v, eng := (installSong c v s).eng } := rfl

end Sys2Proof.Machine

namespace Sys2Proof.Proofs

open Sys2Proof.Machine

/-- Settles O24: an accepted song is installed, which leaves the engine of `State.restarted`; every other payload is
refused. -/
theorem songLoad : Obligations.SongLoad := by
  intro s rest clear badConfig
  refine ⟨fun v payload => ?song, fun e payload => exec_songLoad_noSong clear payload⟩
  cases accepted : songAccepted Config.cfg v with
  | true =>
    exact ⟨_, exec_songLoad_accepted clear payload accepted,
      fun _ => ⟨installSong_frame Config.cfg v { s with payload := rest }, installSong_restarted s v rest⟩,
      nofun⟩
  | false =>
    exact ⟨_, exec_songLoad_refused clear payload accepted, nofun, fun _ => rfl⟩

end Sys2Proof.Proofs
end

section
set_option Elab.async false
/-! PROOFS. Where the synth loops fault (`44_synth.md` R240, `60_exceptions.md` R452, R458): the checks of `synthDirect`
in their order, the slot and its kind before the run length. -/

namespace Sys2Proof.Machine

section
variable {x : Ctx} {e : Engine} {u n kind : Nat} {t : Tone} {ins : Instrument} (slot : e.tones[u]? = some t)
include slot

theorem synthDirect_of_free (free : t.state = .free) : synthDirect x kind u n e = .error x.badIndex := by
  rw [synthDirect, liveTone_eq_error slot free]

variable (named : slotInstrument x.song t.instrument = some ins)
include named

/-- The slot is checked before the kind, and a free one is refused alike. -/
theorem synthDirect_of_otherKind (other : ins.kind ≠ kind) : synthDirect x kind u n e = .error x.badIndex := by
  by_cases free : t.state = .free
  · exact synthDirect_of_free slot free
  · rw [synthDirect, liveTone_eq_ok slot free]
    dsimp only
    rw [named]
    exact if_pos other

theorem synthDirect_of_badLength (used : t.state ≠ .free) (same : ins.kind = kind)
    (bad : n = 0 ∨ e.runMax x.cfg < n) : synthDirect x kind u n e = .error x.badOperand := by
  have illegal : ¬ runLengthLegal x.cfg e n = true := by
    simp only [runLengthLegal, Bool.and_eq_true, decide_eq_true_eq]
    omega
  rw [synthDirect, liveTone_eq_ok slot used]
  dsimp only
  rw [named]
  dsimp only
  rw [if_neg (not_not_intro same), if_neg illegal]

end

/-- A loop that is refused leaves the state before it, with the fault taken. -/
theorem exec_synth_error {s : State} {u n kind : Nat} {i : Instr} {f : Raise} (command : (i, kind) ∈ synthCommands u n)
    (clear : s.fault = false) (refused : synthDirect (s.ctx Config.cfg i) kind u n s.eng = .error f) :
    exec i s = .next (s.withFault f.kind.code f.info) := by
  rw [exec_synth command, refused, onEngine_error_eq clear]

end Sys2Proof.Machine

namespace Sys2Proof.Proofs

open Sys2Proof.Machine

/-- Settles O43, by the check that fails. -/
theorem synthLoopsRefused : Obligations.SynthLoopsRefused := by
  intro s u n kind i a ins command clear slot named
  refine ⟨?_, fun used same bad =>
    exec_synth_error command clear (synthDirect_of_badLength slot named used same bad)⟩
  rintro (free | other)
  · exact exec_synth_error command clear (synthDirect_of_free slot free)
  · exact exec_synth_error command clear (synthDirect_of_otherKind slot named other)

end Sys2Proof.Proofs
end

section
set_option Elab.async false
/-! PROOFS. The tail of an instrument slot at a tick (`45_effects.md` R310 to R312). -/

namespace Sys2Proof.Machine

section
variable {x : Ctx} {samplesPerTick : Num} {ins : Instrument} {i : Slot}

/-! The attenuation wait (R311), case by case. -/

theorem attenuate_of_tones (tones : 0 < i.tonesThisTick) : attenuate x samplesPerTick ins i = { i with
    attenuationProgress := .zero, flushing := false, flushedSamples := .zero, delayInputMult := .one } :=
  if_pos tones

theorem attenuate_of_flushing (silent : i.tonesThisTick = 0) (flushing : i.flushing = true) :
    attenuate x samplesPerTick ins i = i := by
  rw [attenuate, if_neg (by omega), if_pos flushing]

/-- The progress of a slot that waits for its tail to fall (R311). -/
def nextAttenuation (x : Ctx) (samplesPerTick : Num) (ins : Instrument) (i : Slot) : Num :=
  i.attenuationProgress.add (Num.one.div (x.cfg.tailTicksOf ins x.sampleRate samplesPerTick))

section
variable (silent : i.tonesThisTick = 0) (calm : i.flushing = false)
include silent calm

theorem attenuate_of_fallen (fallen : Num.one.le (nextAttenuation x samplesPerTick ins i) = true) :
    attenuate x samplesPerTick ins i = { i with
      attenuationProgress := nextAttenuation x samplesPerTick ins i
      flushing := true, delayInputMult := .zero, flushedSamples := .zero } := by
  rw [attenuate, if_neg (by omega), if_neg (by simp [calm])]
  exact if_pos fallen

theorem attenuate_of_waiting (waiting : Num.one.le (nextAttenuation x samplesPerTick ins i) = false) :
    attenuate x samplesPerTick ins i = { i with
      attenuationProgress := nextAttenuation x samplesPerTick ins i } := by
  rw [attenuate, if_neg (by omega), if_neg (by simp [calm])]
  exact if_neg (Bool.eq_false_iff.mp waiting)

end

/-! The flush count (R312). -/

/-- Whether a slot has flushed as many samples as its delays hold (R312). -/
def tailFlushed (x : Ctx) (ins : Instrument) (flushed : Num) : Bool :=
  (Num.ofNat (delayCapacity x.cfg x.sampleRate ins)).le flushed

/-- A flush sets the flag for deactivation and never clears it. -/
theorem flush_eq : flush x samplesPerTick ins i = { i with
    flushedSamples := i.flushedSamples.add samplesPerTick
    deactivateAfterThisTick :=
      tailFlushed x ins (i.flushedSamples.add samplesPerTick) || i.deactivateAfterThisTick } := by
  rw [flush, tailFlushed]
  cases (Num.ofNat (delayCapacity x.cfg x.sampleRate ins)).le (i.flushedSamples.add samplesPerTick) <;> rfl

/-! The whole update, by the flag at the start of the tick (assumption 102). -/

theorem tailTick_of_calm (calm : i.flushing = false) : tailTick x samplesPerTick ins i =
    { attenuate x samplesPerTick ins i with tonesThisTick := 0 } := by
  rw [tailTick, calm]
  rfl

theorem tailTick_of_flushing (flushing : i.flushing = true) : tailTick x samplesPerTick ins i =
    { flush x samplesPerTick ins (attenuate x samplesPerTick ins i) with tonesThisTick := 0 } := by
  rw [tailTick, flushing]
  rfl

end

/-- `FX.TAIL` on a slot writes that slot alone (R310). -/
theorem exec_fxTail {s : State} {u : Nat} {i : Slot} {ins : Instrument} (clear : s.fault = false)
    (hi : s.eng.slots[u]? = some i) (hins : slotInstrument s.song u = some ins) :
    exec (.fxTail u) s = .next { s with
      eng := s.eng.setSlot u (tailTick (s.ctx Config.cfg (.fxTail u)) s.eng.clock.samplesPerTick ins i) } := by
  show Host.Outcome.next (fxTailWith (s.ctx Config.cfg (.fxTail u)) s u) = _
  rw [fxTailWith, slotAt_of_some hi hins]
  exact congrArg Host.Outcome.next (onEngine_ok clear _)

end Sys2Proof.Machine

namespace Sys2Proof.Proofs

open Sys2Proof.Machine

/-- Settles O48, by whether the slot had tones and whether it was flushing. -/
theorem tailUpdate : Obligations.TailUpdate := by
  intro s u i ins clear hi hins leaves ticks p n first full
  have of_tick {j : Slot} (h : tailTick (s.ctx Config.cfg (.fxTail u)) s.eng.clock.samplesPerTick ins i = j) :
      leaves j := h ▸ exec_fxTail clear hi hins
  refine ⟨fun tones calm => of_tick ?opened, fun tones flushing => of_tick ?reopened,
    fun silent calm fallen => of_tick ?fallen, fun silent calm waiting => of_tick ?waiting,
    fun silent flushing => of_tick ?flushed⟩
  case opened => rw [tailTick_of_calm calm, attenuate_of_tones tones]
  case reopened =>
    rw [tailTick_of_flushing flushing, attenuate_of_tones tones, flush_eq]
    rfl
  case fallen =>
    rw [tailTick_of_calm calm, attenuate_of_fallen (x := s.ctx Config.cfg (.fxTail u)) silent calm fallen, silent]
    rfl
  case waiting =>
    rw [tailTick_of_calm calm, attenuate_of_waiting (x := s.ctx Config.cfg (.fxTail u)) silent calm waiting, silent]
    rfl
  case flushed =>
    rw [tailTick_of_flushing flushing, attenuate_of_flushing silent flushing, flush_eq, silent]
    rfl

end Sys2Proof.Proofs
end

section
set_option Elab.async false
/-! SUPPORT. What a tick boundary does to tones and slots before the clock moves (`46_master_orchestrator.md` R340), and
`PART.END` in a silent block (R341, R345). -/

namespace Sys2Proof.Machine

/-! Released tones at a tick boundary (R340). -/

/-- A released tone after the boundary: freed on its last tick, else older by a tick. -/
def Tone.aged (t : Tone) : Tone :=
  if t.isLastTick then { t with state := .free } else { t with ticksSinceReleased := t.ticksSinceReleased + 1 }

theorem Tone.aged_of_last {t : Tone} (last : t.isLastTick = true) : t.aged = { t with state := .free } := if_pos last

theorem Tone.aged_of_not_last {t : Tone} (more : t.isLastTick = false) :
    t.aged = { t with ticksSinceReleased := t.ticksSinceReleased + 1 } := if_neg (Bool.eq_false_iff.mp more)

theorem ageTone_tones (e : Engine) (u : Nat) : (ageTone e u).tones = e.tones.modify u Tone.aged := by
  unfold ageTone
  split
  next missing => exact (List.modify_eq_self (List.getElem?_eq_none_iff.mp missing)).symm
  next t ht =>
    rw [modify_eq_set_of_some ht]
    split
    next last =>
      rw [Tone.aged_of_last last]
      exact modify_eq_set_of_some ht _
    next more =>
      rw [Tone.aged_of_not_last (Bool.eq_false_iff.mpr more)]
      rfl

theorem ageTone_outsideTones (e : Engine) (u : Nat) : (ageTone e u).outsideTones = e.outsideTones := by
  unfold ageTone
  split
  · rfl
  · split <;> rfl

/-- No tone ages by the clock. -/
theorem ageTone_withClock (e : Engine) (k : Clock) (u : Nat) :
    ageTone { e with clock := k } u = { ageTone e u with clock := k } := by
  unfold ageTone
  dsimp only
  split
  · rfl
  · split <;> rfl

/-- The engine whose released tones have aged. -/
def Engine.aged (e : Engine) : Engine := e.releasedTones.flatten.foldl ageTone e

theorem foldl_ageTone_tone {l : List Nat} (once : l.Nodup) (e : Engine) (v : Nat) :
    (l.foldl ageTone e).tones[v]? = (e.tones[v]?).map (fun a => if v ∈ l then a.aged else a) := by
  induction l generalizing e with
  | nil => simp
  | cons u rest ih =>
    obtain ⟨first, once⟩ := List.nodup_cons.mp once
    rw [List.foldl_cons, ih once, ageTone_tones, List.getElem?_modify]
    cases e.tones[v]? with
    | none => rfl
    | some a =>
      by_cases same : u = v
      · subst same
        simp [first]
      · simp [same, Ne.symm same]

theorem foldl_ageTone_withClock (l : List Nat) (e : Engine) (k : Clock) :
    l.foldl ageTone { e with clock := k } = { l.foldl ageTone e with clock := k } := by
  induction l generalizing e with
  | nil => rfl
  | cons u rest ih => rw [List.foldl_cons, ageTone_withClock, ih, List.foldl_cons]

theorem Engine.aged_withClock (e : Engine) (k : Clock) : Engine.aged { e with clock := k } = { e.aged with clock := k } :=
  foldl_ageTone_withClock _ e k

/-- Tones age; the queues lose the freed ones, and every other part stays. -/
theorem Engine.aged_frame (e : Engine) : e.aged = { e with
    tones := e.aged.tones, activeTones := e.aged.activeTones, releasedTones := e.aged.releasedTones } :=
  Engine.eq_of_outsideTones (foldl_keeps _ Engine.outsideTones ageTone_outsideTones _ e)

theorem Engine.aged_slots (e : Engine) : e.aged.slots = e.slots := by rw [e.aged_frame]

theorem Engine.aged_tone {e : Engine} (once : e.releasedTones.flatten.Nodup) {u : Nat} {a : Tone}
    (ha : e.tones[u]? = some a) :
    e.aged.tones[u]? = some (if u ∈ e.releasedTones.flatten then a.aged else a) := by
  rw [Engine.aged, foldl_ageTone_tone once, ha, Option.map_some]

theorem Engine.aged_of_no_released {e : Engine} (none : ∀ q ∈ e.releasedTones, q = []) : e.aged = e := by
  rw [Engine.aged, List.flatten_eq_nil_iff.mpr none, List.foldl_nil]

/-! Slots at a tick boundary (R310 to R313). -/

set_option smartUnfolding false in
theorem tailTick_withInfo (x : Ctx) (info : BitVec 32) (samplesPerTick : Num) (ins : Instrument) (i : Slot) :
    tailTick (x.withInfo info) samplesPerTick ins i = tailTick x samplesPerTick ins i := by rfl

/-- A slot of the boundary before the sweep: a flagged one falls asleep, an awake one has its tail updated. -/
def tickSlot (x : Ctx) (samplesPerTick : Num) (u : Nat) (i : Slot) : Slot :=
  let i1 := if i.deactivateAfterThisTick then deactivate i else i
  if i1.awake then
    match slotInstrument x.song u with
    | some ins => tailTick x samplesPerTick ins i1
    | none => i1
  else i1

section
variable (x : Ctx) (samplesPerTick : Num) (u : Nat) {i : Slot}

theorem tickSlot_of_flagged (flagged : i.deactivateAfterThisTick = true) :
    tickSlot x samplesPerTick u i = deactivate i := by
  rw [tickSlot, if_pos flagged]
  rfl

theorem tickSlot_of_asleep (stays : i.deactivateAfterThisTick = false) (asleep : i.awake = false) :
    tickSlot x samplesPerTick u i = i := by
  rw [tickSlot, stays]
  exact if_neg (Bool.eq_false_iff.mp asleep)

theorem tickSlot_of_awake {ins : Instrument} (stays : i.deactivateAfterThisTick = false) (awake : i.awake = true)
    (hins : slotInstrument x.song u = some ins) : tickSlot x samplesPerTick u i = tailTick x samplesPerTick ins i := by
  rw [tickSlot, stays, hins]
  exact if_pos awake

end

/-! The sweep (R343). -/

theorem sanitizeSlot_of_asleep {i : Slot} (asleep : i.awake = false) : sanitizeSlot i = i :=
  if_neg (Bool.eq_false_iff.mp asleep)

@[simp] theorem sanitizeTone_state (song : Song) (t : Tone) : (sanitizeTone song t).state = t.state := by
  unfold sanitizeTone
  split <;> rfl

@[simp] theorem sanitizeTone_ticksSinceReleased (song : Song) (t : Tone) :
    (sanitizeTone song t).ticksSinceReleased = t.ticksSinceReleased := by
  unfold sanitizeTone
  split <;> rfl

theorem sanitize_slot (song : Song) {e : Engine} {u : Nat} {i : Slot} (hi : e.slots[u]? = some i) :
    (sanitize song e).slots[u]? = some (sanitizeSlot i) := by
  show (e.slots.map sanitizeSlot)[u]? = _
  rw [List.getElem?_map, hi, Option.map_some]

/-! The boundary (R340). -/

theorem Engine.withClock_congr {e e' : Engine} (h : e = e') (k : Clock) :
    ({ e with clock := k } : Engine) = { e' with clock := k } := by rw [h]

theorem tickBoundary_eq (x : Ctx) (e : Engine) : tickBoundary x e = sanitize x.song
    { e.aged with slots := e.aged.slots.mapIdx (tickSlot x e.clock.samplesPerTick) } := by rfl

/-- The boundary moves no clock, and of the clock it reads the length of the tick alone. -/
theorem tickBoundary_withClock (x : Ctx) (e : Engine) {k : Clock} (same : k.samplesPerTick = e.clock.samplesPerTick) :
    tickBoundary x { e with clock := k } = { tickBoundary x e with clock := k } := by
  rw [tickBoundary_eq, Engine.aged_withClock, same]
  rfl

theorem tickBoundary_frame (x : Ctx) (e : Engine) : tickBoundary x e = { e with
    tones := (tickBoundary x e).tones, activeTones := e.aged.activeTones, releasedTones := e.aged.releasedTones
    slots := (tickBoundary x e).slots } :=
  congrArg (fun e' : Engine => { e' with tones := (tickBoundary x e).tones, slots := (tickBoundary x e).slots })
    e.aged_frame

theorem tickBoundary_tone (x : Ctx) {e : Engine} (once : e.releasedTones.flatten.Nodup) {u : Nat} {a : Tone}
    (ha : e.tones[u]? = some a) : (tickBoundary x e).tones[u]? =
      some (sanitizeTone x.song (if u ∈ e.releasedTones.flatten then a.aged else a)) := by
  show (e.aged.tones.map (sanitizeTone x.song))[u]? = _
  rw [List.getElem?_map, Engine.aged_tone once ha, Option.map_some]

theorem tickBoundary_slot (x : Ctx) {e : Engine} {u : Nat} {i : Slot} (hi : e.slots[u]? = some i) :
    (tickBoundary x e).slots[u]? = some (sanitizeSlot (tickSlot x e.clock.samplesPerTick u i)) := by
  rw [tickBoundary_eq]
  refine sanitize_slot x.song ?_
  rw [List.getElem?_mapIdx, e.aged_slots, hi, Option.map_some]

/-! `TICK.END` by whether the part ends (R337, R338, R340). -/

theorem tickEnd_of_inside {x : Ctx} {e : Engine} (inside : e.clock.tick + 1 ≠ x.cfg.ticksPerPart) :
    tickEnd x e = .ok { tickBoundary x e with clock := retime x { e.clock with tick := e.clock.tick + 1 } } := by
  rw [tickEnd, (tickBoundary_sameFrame x e).clock]
  exact if_neg inside

theorem tickEnd_of_last {x : Ctx} {e : Engine} (last : e.clock.tick + 1 = x.cfg.ticksPerPart) :
    tickEnd x e = (partEnd x { tickBoundary x e with clock := { e.clock with tick := 0 } }).map
      (fun e2 => { e2 with clock := retime x e2.clock }) := by
  rw [tickEnd, (tickBoundary_sameFrame x e).clock]
  exact if_pos last

theorem tickEnd_of_partEnd {x : Ctx} {e e2 : Engine} (last : e.clock.tick + 1 = x.cfg.ticksPerPart)
    (h : partEnd x { tickBoundary x e with clock := { e.clock with tick := 0 } } = .ok e2) :
    tickEnd x e = .ok { e2 with clock := retime x e2.clock } := by
  rw [tickEnd_of_last last, h]
  rfl

/-- A tick number past the last one is inside no part: the boundary alone, and the next number. -/
theorem tickEnd_of_past (x : Ctx) (e : Engine) :
    tickEnd x { e with clock := { e.clock with tick := x.cfg.ticksPerPart } } =
      .ok { tickBoundary x e with clock := retime x { e.clock with tick := x.cfg.ticksPerPart + 1 } } := by
  have swept := tickBoundary_withClock x e (k := { e.clock with tick := x.cfg.ticksPerPart }) rfl
  exact (tickEnd_of_inside (Nat.succ_ne_self _)).trans (congrArg Except.ok (Engine.withClock_congr swept _))

theorem exec_tickEnd_of_ok {s : State} {e : Engine} (clear : s.fault = false)
    (h : tickEnd (s.ctx Config.cfg .tickEnd) s.eng = .ok e) : exec .tickEnd s = .next { s with eng := e } := by
  show Host.Outcome.next (onEngine s (tickEnd (s.ctx Config.cfg .tickEnd) s.eng)) = _
  rw [h, onEngine_ok clear]

theorem exec_partEnd_unfaulted {s t : State} (h : exec .partEnd s = .next t) (unfaulted : t.fault = false) :
    ∃ e, partEnd (s.ctx Config.cfg .partEnd) s.eng = .ok e ∧ t = { s with eng := e } := by
  obtain rfl := Host.Outcome.next.inj h
  exact onEngine_unfaulted unfaulted

theorem exec_sanitize {s : State} (clear : s.fault = false) :
    exec .sanitize s = .next { s with eng := sanitize s.song s.eng } :=
  congrArg Host.Outcome.next (onEngine_ok clear _)

/-! `PART.END`. -/

set_option smartUnfolding false in
theorem partEnd_withInfo (x : Ctx) (info : BitVec 32) (e : Engine) : partEnd (x.withInfo info) e = partEnd x e := by rfl

theorem advancePart_withTick (c : Cfg) (song : Song) (k : Clock) (tick : Nat) :
    advancePart c song { k with tick := tick } = { advancePart c song k with tick := tick } := by
  unfold advancePart
  dsimp only
  split
  · split <;> rfl
  · rfl

/-! A silent block (R335, R345). -/

/-- No tone of any channel or instrument slot. -/
structure Engine.Idle (e : Engine) : Prop where
  active : ∀ q ∈ e.activeTones, q = []
  released : ∀ q ∈ e.releasedTones, q = []

theorem getD_of_all_nil {α : Type} {l : List (List α)} (h : ∀ q ∈ l, q = []) (c : Nat) : l.getD c [] = [] := by
  rw [List.getD_eq_getElem?_getD]
  cases hq : l[c]? with
  | none => rfl
  | some q => exact h q (List.mem_of_getElem? hq)

/-- Patterns without notes play nothing. -/
theorem voicingNow_of_no_notes {x : Ctx} (noteless : ∀ ch ∈ x.song.channels, ∀ p ∈ ch.patterns, p.notes = [])
    (c : Nat) (e : Engine) : voicingNow x c e = none := by
  cases hch : x.song.channels[c]? with
  | none => rw [voicingNow, currentPattern, hch, Option.bind_none]
  | some ch =>
    refine voicingNow_eq_none hch ?_
    cases hb : ch.bars.getD e.clock.bar 0 with
    | zero => exact .inr (.inl rfl)
    | succ b =>
      refine .inr (.inr ⟨b, rfl, fun p hp note mem => ?_⟩)
      rw [noteless ch (List.mem_of_getElem? hch) p (List.mem_of_getElem? hp)] at mem
      nomatch mem

theorem tickBoundary_of_idle (x : Ctx) {e : Engine} (idle : e.Idle) : tickBoundary x e =
    { e with tones := (tickBoundary x e).tones, slots := (tickBoundary x e).slots } := by
  have frame := tickBoundary_frame x e
  rwa [Engine.aged_of_no_released idle.released] at frame

theorem capTones_of_idle {e : Engine} (idle : e.Idle) (x : Ctx) (c : Nat) : capTones x c e = e := by
  have none : releasedNewestFirst x.song e c = [] :=
    List.flatMap_eq_nil_iff.mpr fun i _ => by rw [getD_of_all_nil idle.released, List.reverse_nil]
  simp only [capTones, none, List.drop_nil, List.contains_nil, Bool.false_eq_true, if_false, mapIdx_self]

section
variable {x : Ctx} (noteless : ∀ ch ∈ x.song.channels, ∀ p ∈ ch.patterns, p.notes = []) {e : Engine} (idle : e.Idle)
include noteless idle

theorem syncTones_of_idle (c : Nat) : syncTones x c e = .ok e := by
  rw [syncTones_of_silent (voicingNow_of_no_notes noteless c e), getD_of_all_nil idle.active]
  exact congrArg Except.ok (capTones_of_idle idle x c)

theorem syncFrom_of_idle (n c : Nat) : syncFrom x n c e = .ok e := by
  induction n generalizing c with
  | zero => rfl
  | succ n ih =>
    rw [syncFrom_succ, syncTones_of_idle noteless idle]
    exact ih (c + 1)

/-- Where nothing sounds and no note stands, the end of a part moves the clock alone. -/
theorem partEnd_of_idle : partEnd x e = .ok { e with clock := advancePart x.cfg x.song e.clock } :=
  syncFrom_of_idle (e := { e with clock := advancePart x.cfg x.song e.clock }) noteless ⟨idle.active, idle.released⟩
    x.song.channelCount 0

/-- A part that ends in a silent block: the boundary's tones and slots, and the clock moved on (R338, R340). -/
theorem tickEnd_of_idle (last : e.clock.tick + 1 = x.cfg.ticksPerPart) : tickEnd x e =
    .ok { tickBoundary x e with clock := retime x { advancePart x.cfg x.song e.clock with tick := 0 } } := by
  have boundary := tickBoundary_of_idle x idle
  have quiet : Engine.Idle { tickBoundary x e with clock := { e.clock with tick := 0 } } := by
    rw [boundary]
    exact ⟨idle.active, idle.released⟩
  rw [tickEnd_of_last last, partEnd_of_idle noteless quiet, ← advancePart_withTick]
  rfl

end

end Sys2Proof.Machine

namespace Sys2Proof.Proofs

open Sys2Proof.Machine

/-- Settles O51: a tick inside a part by what the boundary leaves of each tone and slot, the end of a part by `PART.END`
of what the boundary leaves. -/
theorem tickBoundary : Obligations.TickBoundary := by
  refine ⟨fun s clear inside once => ?inside, fun s clear last silent => ?silent,
    fun s b p t clear last hb hp ht unfaulted => ?sounding⟩
  case inside =>
    refine ⟨_, exec_tickEnd_of_ok clear (tickEnd_of_inside inside), rfl, ?frame, fun u a ha =>
      ⟨_, tickBoundary_tone _ once ha, fun mem last => ?freed, fun mem more => ?older, fun out => ?other⟩,
      fun u i hi => ⟨_, tickBoundary_slot _ hi, fun flagged => ?fallen, fun stays asleep => ?asleep,
        fun stays awake ins hins => ?awake⟩⟩
    case frame => exact Engine.withClock_congr (tickBoundary_frame ..) _
    case freed => rw [if_pos mem, Tone.aged_of_last last, sanitizeTone_state]
    case older =>
      rw [if_pos mem, Tone.aged_of_not_last more, sanitizeTone_state, sanitizeTone_ticksSinceReleased]
      exact ⟨rfl, rfl⟩
    case other =>
      rw [if_neg out, sanitizeTone_state, sanitizeTone_ticksSinceReleased]
      exact ⟨rfl, rfl⟩
    case fallen =>
      rw [tickSlot_of_flagged _ _ u flagged]
      exact sanitizeSlot_of_asleep rfl
    case asleep => rw [tickSlot_of_asleep _ _ u stays asleep, sanitizeSlot_of_asleep asleep]
    case awake =>
      have inside : u < s.eng.slots.length := (List.getElem?_eq_some_iff.mp hi).1
      have tail := List.getElem?_set_self (l := s.eng.slots) (i := u)
        (a := tailTick (s.ctx Config.cfg (.fxTail u)) s.eng.clock.samplesPerTick ins i) inside
      refine ⟨_, _, _, exec_fxTail clear hi hins, tail, exec_sanitize clear, ?_⟩
      rw [tickSlot_of_awake (x := s.ctx Config.cfg .tickEnd) _ u stays awake hins,
        ← tailTick_withInfo (s.ctx Config.cfg .tickEnd) (commandInfo (.fxTail u))]
      exact sanitize_slot s.song tail
  case silent =>
    have idle : s.eng.Idle := ⟨silent.active, silent.released⟩
    refine ⟨_, exec_tickEnd_of_ok clear (tickEnd_of_idle silent.notes idle last), rfl, ?_⟩
    exact Engine.withClock_congr (tickBoundary_of_idle _ idle) _
  case sounding =>
    have boundary := exec_tickEnd_of_ok
      (s := { s with eng := { s.eng with clock := { s.eng.clock with tick := Config.cfg.ticksPerPart } } }) clear
      (tickEnd_of_past (s.ctx Config.cfg .tickEnd) s.eng)
    obtain rfl := Host.Outcome.next.inj (boundary.symm.trans hb)
    subst hp
    obtain ⟨e2, ended, rfl⟩ := exec_partEnd_unfaulted ht unfaulted
    exact exec_tickEnd_of_ok clear (tickEnd_of_partEnd last
      ((partEnd_withInfo (s.ctx Config.cfg .tickEnd) _ _).symm.trans ended))

end Sys2Proof.Proofs
end

section
set_option Elab.async false
/-! SUPPORT. The loop of `FX.RUN` (`45_effects.md` R280, R300): what it makes of `SCRATCH`, of the mix and of its slot. -/

namespace Sys2Proof.Machine

/-! One sample moved from `SCRATCH` into the mix (R300). -/

/-- Element `j` of `SCRATCH` zeroed, and two outputs added to the mix at `pos + j`. -/
def Engine.mixSample (e : Engine) (pos j : Nat) (l r : Num) : Engine :=
  { e with scratch := Memory.setNum e.scratch j .zero }.addMix (pos + j) l r

theorem chainLoop_succ (x : Ctx) (ins : Instrument) (pos n j : Nat) (i : Slot) (e : Engine) :
    chainLoop x ins pos (n + 1) j i e =
      let y := chainSample x ins i (Memory.getNum e.scratch j)
      chainLoop x ins pos n (j + 1) y.2.2 (e.mixSample pos j y.1 y.2.1) := rfl

@[simp] theorem Engine.mixSample_scratch (e : Engine) (pos j : Nat) (l r : Num) :
    (e.mixSample pos j l r).scratch = Memory.setNum e.scratch j .zero := rfl

theorem Engine.mixSample_setSlot (e : Engine) (pos j : Nat) (l r : Num) (u : Nat) (i : Slot) :
    (e.setSlot u i).mixSample pos j l r = (e.mixSample pos j l r).setSlot u i := rfl

theorem Engine.mixSample_readMix_same (e : Engine) (pos j : Nat) (l r : Num) :
    (e.mixSample pos j l r).readMixL (pos + j) = (e.readMixL (pos + j)).add l ∧
      (e.mixSample pos j l r).readMixR (pos + j) = (e.readMixR (pos + j)).add r := by
  constructor
  · exact congrArg (Option.getD · _) (Memory.find_write_none_same ..)
  · exact congrArg (Option.getD · _) (Memory.find_write_none_same ..)

theorem Engine.mixSample_readMix_other (e : Engine) {pos j k : Nat} (l r : Num) (ne : k ≠ pos + j) :
    (e.mixSample pos j l r).readMixL k = e.readMixL k ∧ (e.mixSample pos j l r).readMixR k = e.readMixR k := by
  constructor
  · exact congrArg (Option.getD · _) (Memory.find_write_none_other _ ne)
  · exact congrArg (Option.getD · _) (Memory.find_write_none_other _ ne)

/-! The buffers after the loop. -/

section
variable (x : Ctx) (ins : Instrument) (pos n j : Nat) (i : Slot) (e : Engine)

theorem chainLoop_frame : (chainLoop x ins pos n j i e).2 = { e with
    scratch := (chainLoop x ins pos n j i e).2.scratch, mixL := (chainLoop x ins pos n j i e).2.mixL
    mixR := (chainLoop x ins pos n j i e).2.mixR } := by
  induction n generalizing j i e with
  | zero => rfl
  | succ n ih => exact ih (j + 1) _ (e.mixSample pos j _ _)

/-- Every element of the run is zeroed as it is read (R79). -/
theorem chainLoop_scratch (wf : Memory.numWf e.scratch = true) (k : Nat) :
    Memory.getNum (chainLoop x ins pos n j i e).2.scratch k =
      if j ≤ k ∧ k < j + n then .zero else Memory.getNum e.scratch k := by
  induction n generalizing j i e with
  | zero => exact (if_neg (by omega)).symm
  | succ n ih =>
    rw [chainLoop_succ, ih _ _ _ (Memory.numWf_setNum wf j .zero), Engine.mixSample_scratch]
    by_cases here : k = j
    · subst here
      rw [if_neg (by omega), if_pos (by omega), Memory.getNum_setNum_same wf]
    · rw [Memory.getNum_setNum_other wf _ here]
      exact if_congr (by omega) rfl rfl

theorem chainLoop_mix_outside {k : Nat} (out : k < pos + j ∨ pos + j + n ≤ k) :
    (chainLoop x ins pos n j i e).2.readMixL k = e.readMixL k ∧
      (chainLoop x ins pos n j i e).2.readMixR k = e.readMixR k := by
  induction n generalizing j i e with
  | zero => exact ⟨rfl, rfl⟩
  | succ n ih =>
    obtain ⟨left, right⟩ := ih (j + 1) _ (e.mixSample pos j _ _) (by omega)
    obtain ⟨left', right'⟩ := e.mixSample_readMix_other _ _ (show k ≠ pos + j by omega)
    exact ⟨left.trans left', right.trans right'⟩

end

/-! A slot with no effect enabled (R280). -/

section
variable {x : Ctx} {ins : Instrument} {i : Slot} (plain : ins.effects = 0) (unfiltered : i.fxFilterCount = 0)
include plain unfiltered

theorem chainSample_of_plain (v : Num) : chainSample x ins i v = (v, v, i) := by
  simp [chainSample, effectOn, plain, unfiltered]

theorem chainLoop_mix_of_plain {pos n j k : Nat} {e : Engine} (wf : Memory.numWf e.scratch = true) (from_j : j ≤ k)
    (below : k < j + n) :
    (chainLoop x ins pos n j i e).2.readMixL (pos + k) = (e.readMixL (pos + k)).add (Memory.getNum e.scratch k) ∧
      (chainLoop x ins pos n j i e).2.readMixR (pos + k) =
        (e.readMixR (pos + k)).add (Memory.getNum e.scratch k) := by
  induction n generalizing j e with
  | zero => omega
  | succ n ih =>
    rw [chainLoop_succ, chainSample_of_plain plain unfiltered]
    dsimp only
    by_cases here : k = j
    · subst here
      obtain ⟨left, right⟩ := chainLoop_mix_outside x ins pos n (k + 1) i
        (e.mixSample pos k (Memory.getNum e.scratch k) (Memory.getNum e.scratch k)) (.inl (Nat.lt_succ_self (pos + k)))
      rw [left, right]
      exact e.mixSample_readMix_same ..
    · have other := e.mixSample_readMix_other (Memory.getNum e.scratch j) (Memory.getNum e.scratch j)
        (show pos + k ≠ pos + j by omega)
      have later := ih (e := e.mixSample pos j (Memory.getNum e.scratch j) (Memory.getNum e.scratch j))
        (Memory.numWf_setNum wf j .zero) (show j + 1 ≤ k by omega) (by omega)
      rwa [other.1, other.2, Engine.mixSample_scratch, Memory.getNum_setNum_other wf _ here] at later

end

/-! The slot after the loop: its stages change their own registers. -/

/-- The registers of a slot that no stage of its effects writes. -/
def Slot.standing (i : Slot) : Bool × Nat × Nat := (i.awake, i.tonesThisTick, i.fxFilterCount)

theorem bitcrush_standing (x : Ctx) (ins : Instrument) (i : Slot) (v : Num) :
    (bitcrush x ins i v).2.standing = i.standing := by
  unfold bitcrush
  dsimp only
  split <;> rfl

theorem chainSample_standing (x : Ctx) (ins : Instrument) (i : Slot) (v : Num) :
    (chainSample x ins i v).2.2.standing = i.standing := by
  unfold chainSample
  extract_lets s1 a b p q
  have crushed : a.2.standing = i.standing := by
    show (ite _ _ _ : Num × Slot).2.standing = _
    split
    · exact bitcrush_standing ..
    · rfl
  have filtered : b.2.standing = a.2.standing := by
    show (ite _ _ _ : Num × Slot).2.standing = _
    split <;> rfl
  have panned : p.2.2.standing = b.2.standing := by
    show (ite _ _ _ : Num × Num × Slot).2.2.standing = _
    split <;> rfl
  have chorused : q.2.2.standing = p.2.2.standing := by
    show (ite _ _ _ : Num × Num × Slot).2.2.standing = _
    split <;> rfl
  rw [← crushed, ← filtered, ← panned, ← chorused]
  split <;> rfl

theorem chainLoop_standing (x : Ctx) (ins : Instrument) (pos n j : Nat) (i : Slot) (e : Engine) :
    (chainLoop x ins pos n j i e).1.standing = i.standing := by
  induction n generalizing j i e with
  | zero => rfl
  | succ n ih => exact (ih ..).trans (chainSample_standing ..)

end Sys2Proof.Machine
end

section
set_option Elab.async false
/-! PROOFS. `FX.RUN` (`45_effects.md` R280, R286, R300): its loop against the commands of its stages, one sample behind the
other. -/

namespace Sys2Proof.Machine

/-! The detail word of a command is read by its own faults alone. -/

theorem bitcrush_withInfo (x : Ctx) (info : BitVec 32) : bitcrush (x.withInfo info) = bitcrush x := rfl

theorem pan_withInfo (x : Ctx) (info : BitVec 32) : pan (x.withInfo info) = pan x := rfl

theorem chorus_withInfo (x : Ctx) (info : BitVec 32) : chorus (x.withInfo info) = chorus x := rfl

theorem reverb_withInfo (x : Ctx) (info : BitVec 32) : reverb (x.withInfo info) = reverb x := rfl

/-! States between two stages. -/

theorem value_answer_one (s : State) (y : Num) : (answer s [y]).value 0 = y :=
  congrArg (Option.getD · Num.zero) (result_answer_one s y).1

theorem value_setResult_same (s : State) {k : Nat} (inside : k < 16) (v : Num) : (s.setResult k v).value k = v := by
  simp [State.value, State.result, inside]

theorem value_setResult_other (s : State) {k m : Nat} (ne : k ≠ m) (v : Num) : (s.setResult k v).value m = s.value m := by
  simp [State.value, State.result, ne]

theorem Engine.setSlot_setSlot (e : Engine) (u : Nat) (i j : Slot) : (e.setSlot u i).setSlot u j = e.setSlot u j := by
  simp [Engine.setSlot]

/-- `w` is `s` with the engine `e`, slot `u` of it and the first result being those of a sample of one side. -/
structure State.Mono (s : State) (u : Nat) (e : Engine) (w : State) (y : Num × Slot) : Prop where
  state : s.At w (e.setSlot u y.2)
  first : w.value 0 = y.1

/-- `w` is `s` with the engine `e`, slot `u` of it and the first two results being those of a sample of two sides. -/
structure State.Stereo (s : State) (u : Nat) (e : Engine) (w : State) (y : Num × Num × Slot) : Prop where
  state : s.At w (e.setSlot u y.2.2)
  first : w.value 0 = y.1
  second : w.value 1 = y.2.1

theorem State.Mono.ite {s w w' : State} {u : Nat} {e : Engine} {y y' : Num × Slot} {p : Prop} [Decidable p]
    (on : s.Mono u e w y) (off : s.Mono u e w' y') : s.Mono u e (if p then w else w') (if p then y else y') := by
  by_cases h : p
  · rwa [if_pos h, if_pos h]
  · rwa [if_neg h, if_neg h]

theorem State.Stereo.ite {s w w' : State} {u : Nat} {e : Engine} {y y' : Num × Num × Slot} {p : Prop} [Decidable p]
    (on : s.Stereo u e w y) (off : s.Stereo u e w' y') : s.Stereo u e (if p then w else w') (if p then y else y') := by
  by_cases h : p
  · rwa [if_pos h, if_pos h]
  · rwa [if_neg h, if_neg h]

section
variable {s w : State} {e : Engine} (h : s.At w e)
include h

theorem State.At.eng_eq : w.eng = e := by
  obtain ⟨r, rfl⟩ := h
  rfl

theorem State.At.fault_eq : w.fault = s.fault := by
  obtain ⟨r, rfl⟩ := h
  rfl

theorem State.At.song_eq : w.song = s.song := by
  obtain ⟨r, rfl⟩ := h
  rfl

theorem State.At.ctx_eq (c i : Instr) : w.ctx Config.cfg i = (s.ctx Config.cfg c).withInfo (commandInfo i) := by
  obtain ⟨r, rfl⟩ := h
  rfl

theorem State.At.setResult (k : Nat) (v : Num) : s.At (w.setResult k v) e := by
  obtain ⟨r, rfl⟩ := h
  exact ⟨_, rfl⟩

/-- `SETR` (R382). -/
theorem State.At.after_setr (clear : s.fault = false) {k : Nat} (inside : k < 16) (v : Num) :
    w.after (.setr k v) = w.setResult k v := by
  show setrWith (w.ctx Config.cfg (.setr k v)) w k v = _
  rw [setrWith, need, if_pos (decide_eq_true inside)]
  exact command_ok (h.fault_eq.trans clear) _

end

theorem State.At.answer_setSlot {s w : State} {u : Nat} {e : Engine} {i : Slot} (h : s.At w (e.setSlot u i)) (j : Slot)
    (l : List Num) : s.At (answer { w with eng := w.eng.setSlot u j } l) (e.setSlot u j) := by
  obtain ⟨r, rfl⟩ := h
  rw [← e.setSlot_setSlot u i j]
  exact ⟨_, rfl⟩

section
variable {s w : State} {u : Nat} {e : Engine} {ins : Instrument} (clear : s.fault = false)
  (inside : u < e.slots.length) (hins : slotInstrument s.song u = some ins)
include clear inside hins

theorem State.At.slot {i : Slot} (h : s.At w (e.setSlot u i)) : w.fault = false ∧ w.eng.slots[u]? = some i ∧
    slotInstrument w.song u = some ins := by
  rw [h.fault_eq, h.eng_eq, h.song_eq]
  exact ⟨clear, List.getElem?_set_self inside, hins⟩

/-- A mono stage behind another one. -/
theorem State.Mono.after {y : Num × Slot} {op : Instr} {f : Instrument → Slot → Num × Slot} (h : s.Mono u e w y)
    (run : exec op w = .next (monoStage (w.ctx Config.cfg op) w u f)) : s.Mono u e (w.after op) (f ins y.2) := by
  obtain ⟨fault, slot, song⟩ := h.state.slot clear inside hins
  rw [State.after_next run, monoStage_of_slot fault slot song]
  exact ⟨h.state.answer_setSlot _ _, value_answer_one ..⟩

/-- A stereo stage behind a stage of either kind. -/
theorem State.At.after_stereo {i : Slot} {op : Instr} {f : Instrument → Slot → Num × Num × Slot}
    (h : s.At w (e.setSlot u i)) (run : exec op w = .next (stereoStage (w.ctx Config.cfg op) w u f)) :
    s.Stereo u e (w.after op) (f ins i) := by
  obtain ⟨fault, slot, song⟩ := h.slot clear inside hins
  rw [State.after_next run, stereoStage_of_slot fault slot song]
  obtain ⟨first, second⟩ := value_answer_pair { w with eng := w.eng.setSlot u (f ins i).2.2 } (f ins i).1 (f ins i).2.1
  exact ⟨h.answer_setSlot _ _, first, second⟩

/-! Each stage as a command (R282 to R296). -/

theorem State.Mono.distort {y : Num × Slot} (h : s.Mono u e w y) :
    s.Mono u e (w.after (.fxDistort u (w.value 0))) (Machine.distort Config.cfg ins y.1, y.2) := by
  rw [← h.first]
  exact h.after (f := fun ins i => (Machine.distort Config.cfg ins (w.value 0), i)) clear inside hins rfl

theorem State.Mono.bitcrush {y : Num × Slot} (h : s.Mono u e w y) (c : Instr) :
    s.Mono u e (w.after (.fxBitcrush u (w.value 0))) (Machine.bitcrush (s.ctx Config.cfg c) ins y.2 y.1) := by
  rw [← bitcrush_withInfo _ (commandInfo (.fxBitcrush u (w.value 0))), ← h.state.ctx_eq c, ← h.first]
  exact h.after (f := fun ins i => Machine.bitcrush (w.ctx Config.cfg _) ins i (w.value 0)) clear inside hins rfl

theorem State.Mono.filter {y : Num × Slot} (h : s.Mono u e w y) :
    s.Mono u e (w.after (.fxFilter u (w.value 0))) (effectFilter y.2 y.1) := by
  rw [← h.first]
  exact h.after (f := fun _ i => effectFilter i (w.value 0)) clear inside hins rfl

theorem State.Mono.pan {y : Num × Slot} (h : s.Mono u e w y) (c : Instr) :
    s.Stereo u e (w.after (.fxPan u (w.value 0))) (Machine.pan (s.ctx Config.cfg c) ins y.2 y.1) := by
  rw [← pan_withInfo _ (commandInfo (.fxPan u (w.value 0))), ← h.state.ctx_eq c, ← h.first]
  exact h.state.after_stereo (f := fun ins i => Machine.pan (w.ctx Config.cfg _) ins i (w.value 0)) clear inside hins
    rfl

omit inside hins in
/-- Without panning both sides are the one sample (R280). -/
theorem State.Mono.both {y : Num × Slot} (h : s.Mono u e w y) :
    s.Stereo u e (w.after (.setr 1 (w.value 0))) (y.1, y.1, y.2) := by
  rw [h.state.after_setr clear (by decide), h.first]
  exact ⟨h.state.setResult 1 y.1, (value_setResult_other w (by decide) y.1).trans h.first,
    value_setResult_same w (by decide) y.1⟩

theorem State.Stereo.chorus {y : Num × Num × Slot} (h : s.Stereo u e w y) (c : Instr) :
    s.Stereo u e (w.after (.fxChorus u (w.value 0) (w.value 1)))
      (Machine.chorus (s.ctx Config.cfg c) y.2.2 y.1 y.2.1) := by
  rw [← chorus_withInfo _ (commandInfo (.fxChorus u (w.value 0) (w.value 1))), ← h.state.ctx_eq c, ← h.first, ← h.second]
  exact h.state.after_stereo (f := fun _ i => Machine.chorus (w.ctx Config.cfg _) i (w.value 0) (w.value 1)) clear
    inside hins rfl

theorem State.Stereo.reverb {y : Num × Num × Slot} (h : s.Stereo u e w y) (c : Instr) :
    s.Stereo u e (w.after (.fxReverb u (w.value 0) (w.value 1)))
      (Machine.reverb (s.ctx Config.cfg c) ins y.2.2 y.1 y.2.1) := by
  rw [← reverb_withInfo _ (commandInfo (.fxReverb u (w.value 0) (w.value 1))), ← h.state.ctx_eq c, ← h.first, ← h.second]
  exact h.state.after_stereo (f := fun ins i => Machine.reverb (w.ctx Config.cfg _) ins i (w.value 0) (w.value 1)) clear
    inside hins rfl

/-- A sample through the enabled stages as commands is a sample through the chain (R280). -/
theorem State.At.effectStages {i : Slot} (h : s.At w (e.setSlot u i)) (c : Instr) (v : Num)
    (counted : i.fxFilterCount = ins.distortionFilter.length) :
    s.Stereo u e (w.effectStages u ins v) (chainSample (s.ctx Config.cfg c) ins i v) := by
  unfold State.effectStages chainSample
  extract_lets w0 w1 w2 w3 w4 w5 s1 a b p q
  have started : s.Mono u e w0 (v, i) := by
    show s.Mono u e (w.after (.setr 0 v)) (v, i)
    rw [h.after_setr clear (by decide)]
    exact ⟨h.setResult 0 v, value_setResult_same w (by decide) v⟩
  have distorted : s.Mono u e w1 (s1, i) := by
    show s.Mono u e (ite _ _ _) (ite _ _ _, i)
    rw [apply_ite (fun z : Num => (z, i))]
    exact (started.distort clear inside hins).ite started
  have crushed : s.Mono u e w2 a := (distorted.bitcrush clear inside hins c).ite distorted
  have counts : a.2.fxFilterCount = ins.distortionFilter.length := by
    show (ite _ _ _ : Num × Slot).2.fxFilterCount = _
    split
    · exact (congrArg (·.2.2) (bitcrush_standing _ ins i s1)).trans counted
    · exact counted
  have filtered : s.Mono u e w3 b := by
    show s.Mono u e (ite _ _ _) (ite _ _ _)
    rw [counts]
    cases ins.distortionFilter with
    | nil => exact crushed
    | cons => exact crushed.filter clear inside hins
  have panned : s.Stereo u e w4 p := by
    show s.Stereo u e (w3.after (ite _ _ _)) (ite _ _ _)
    rw [apply_ite w3.after]
    exact (filtered.pan clear inside hins c).ite (filtered.both clear)
  have chorused : s.Stereo u e w5 q := (panned.chorus clear inside hins c).ite panned
  exact (chorused.reverb clear inside hins c).ite chorused

/-- One sample of the run as commands is one of the loop (R300). -/
theorem State.At.effectSample {i : Slot} (h : s.At w (e.setSlot u i)) (c : Instr) (pos j : Nat)
    (counted : i.fxFilterCount = ins.distortionFilter.length) :
    let y := chainSample (s.ctx Config.cfg c) ins i (Memory.getNum e.scratch j)
    s.At (w.effectSample u pos ins j) ((e.mixSample pos j y.1 y.2.1).setSlot u y.2.2) := by
  intro y
  have scratch : w.eng.scratch = e.scratch := by
    rw [h.eng_eq]
    rfl
  obtain ⟨⟨r, left⟩, first, second⟩ := h.effectStages clear inside hins c (Memory.getNum e.scratch j) counted
  unfold State.effectSample
  rw [scratch]
  dsimp only
  rw [first, second, left, ← Engine.mixSample_setSlot]
  exact ⟨r, rfl⟩

/-- The samples `j, j + 1, …` of the run as commands are those of the loop. -/
theorem State.At.effectSamples {i : Slot} (h : s.At w (e.setSlot u i)) (c : Instr) (pos n j : Nat)
    (counted : i.fxFilterCount = ins.distortionFilter.length) :
    let z := chainLoop (s.ctx Config.cfg c) ins pos n j i e
    s.At ((List.range' j n).foldl (State.effectSample u pos ins) w) (z.2.setSlot u z.1) := by
  induction n generalizing j i e w with
  | zero => exact h
  | succ n ih =>
    have next := h.effectSample clear inside hins c pos j counted
    exact ih (e := e.mixSample pos j _ _) inside next (j + 1)
      ((congrArg (·.2.2) (chainSample_standing _ ins i _)).trans counted)

end

/-- The filter of a run, loaded (R286). -/
theorem State.loadedSlot_eq (s : State) (c : Instr) (ins : Instrument) (n : Nat) (i : Slot) :
    s.loadedSlot ins n i = loadEffectFilter (s.ctx Config.cfg c) ins n i := by
  rw [State.loadedSlot, loadEffectFilter, loadEffectStages_eq]
  rfl

/-! `FX.RUN` as a command (R300). -/

section
variable {x : Ctx} {s : State} {u pos n : Nat} {i : Slot} {ins : Instrument} (clear : s.fault = false)
  (hi : s.eng.slots[u]? = some i)
include clear hi

theorem fxRunWith_of_legal (hins : slotInstrument x.song u = some ins) (positive : 1 ≤ n)
    (short : n ≤ s.eng.runMax x.cfg) (fits : pos + n ≤ s.eng.mixSize x.cfg) :
    fxRunWith x s u pos n = { s with eng := runEffects x u pos n ins i s.eng } := by
  have legal : (runLengthLegal x.cfg s.eng n && decide (pos + n ≤ s.eng.mixSize x.cfg)) = true := by
    simp [runLengthLegal, positive, short, fits]
  rw [fxRunWith, slotAt_of_some hi hins]
  dsimp only
  rw [if_pos legal, onEngine_ok clear]

theorem fxRunWith_of_badLength (hins : slotInstrument x.song u = some ins)
    (bad : n = 0 ∨ s.eng.runMax x.cfg < n ∨ s.eng.mixSize x.cfg < pos + n) :
    fxRunWith x s u pos n = s.withFault 4#8 x.info := by
  have illegal : ¬ (runLengthLegal x.cfg s.eng n && decide (pos + n ≤ s.eng.mixSize x.cfg)) = true := by
    simp only [runLengthLegal, Bool.and_eq_true, decide_eq_true_eq]
    omega
  rw [fxRunWith, slotAt_of_some hi hins]
  dsimp only
  rw [if_neg illegal, onEngine_error_eq clear]
  rfl

variable (hins : slotInstrument s.song u = some ins)
include hins

theorem exec_fxRun (positive : 1 ≤ n) (short : n ≤ s.eng.runMax Config.cfg)
    (fits : pos + n ≤ s.eng.mixSize Config.cfg) : exec (.fxRun u pos n) s = .next { s with
      eng := runEffects (s.ctx Config.cfg (.fxRun u pos n)) u pos n ins i s.eng } :=
  congrArg Host.Outcome.next (fxRunWith_of_legal clear hi hins positive short fits)

theorem exec_fxRun_of_badLength
    (bad : n = 0 ∨ s.eng.runMax Config.cfg < n ∨ s.eng.mixSize Config.cfg < pos + n) :
    exec (.fxRun u pos n) s = .next (s.withFault 4#8 (headerInfo (Instr.header (.fxRun u pos n)))) :=
  congrArg Host.Outcome.next (fxRunWith_of_badLength clear hi hins bad)

/-- The loop of a run as commands, sample by sample (R280, R300). -/
theorem runEffects_of_samples (c : Instr) :
    let loaded : State := { s with eng := { s.eng with slots := s.eng.slots.set u (s.loadedSlot ins n i) } }
    ((List.range n).foldl (State.effectSample u pos ins) loaded).eng =
      runEffects (s.ctx Config.cfg c) u pos n ins i s.eng := by
  intro loaded
  have inside : u < s.eng.slots.length := (List.getElem?_eq_some_iff.mp hi).1
  have start : s.At loaded (s.eng.setSlot u (loadEffectFilter (s.ctx Config.cfg c) ins n i)) := by
    rw [← s.loadedSlot_eq c ins n i]
    exact ⟨s.r, rfl⟩
  rw [List.range_eq_range']
  exact (start.effectSamples clear inside hins c pos n 0 rfl).eng_eq

end

end Sys2Proof.Machine

namespace Sys2Proof.Proofs

open Sys2Proof.Machine

/-- Settles O47: the frame and the buffers by what the loop leaves, the samples by the commands of their stages. -/
theorem effectChain : Obligations.EffectChain := by
  intro s u pos n i ins clear hi hins
  let x := s.ctx Config.cfg (.fxRun u pos n)
  let loaded := loadEffectFilter x ins n i
  refine ⟨fun positive short fits wf => ⟨_, (chainLoop x ins pos n 0 loaded s.eng).1,
    exec_fxRun clear hi hins positive short fits, rfl, ?frame, fun k below => ?zeroed, fun k above => ?kept,
    fun k out => ?outside, fun none unfiltered k below => ?plain, ?standing⟩,
    fun positive short fits => ?samples, exec_fxRun_of_badLength clear hi hins⟩
  case frame =>
    exact congrArg (fun e : Engine => e.setSlot u (chainLoop x ins pos n 0 loaded s.eng).1)
      (chainLoop_frame x ins pos n 0 loaded s.eng)
  case zeroed => exact (chainLoop_scratch x ins pos n 0 loaded s.eng wf k).trans (if_pos (by omega))
  case kept => exact (chainLoop_scratch x ins pos n 0 loaded s.eng wf k).trans (if_neg (by omega))
  case outside => exact chainLoop_mix_outside x ins pos n 0 loaded s.eng (by omega)
  case plain =>
    have count : loaded.fxFilterCount = 0 := congrArg List.length unfiltered
    exact chainLoop_mix_of_plain none count wf (Nat.zero_le k) (by omega)
  case standing =>
    have stands := chainLoop_standing x ins pos n 0 loaded s.eng
    exact ⟨congrArg (·.1) stands, congrArg (·.2.1) stands, congrArg (·.2.2) stands⟩
  case samples =>
    rw [exec_fxRun clear hi hins positive short fits]
    dsimp only
    rw [runEffects_of_samples clear hi hins (.fxRun u pos n)]

end Sys2Proof.Proofs
end

section
set_option Elab.async false
/-! PROOFS. The song clock (`46_master_orchestrator.md` R336 to R341): `BAR.NEXT`, `PART.END` and `CLK.ADV`. -/

namespace Sys2Proof.Machine

/-! The carry chain (R338, R339). -/

theorem nextBar_of_last {song : Song} {bar : Nat}
    (last : bar + 1 = song.loopStart + song.loopLength ∨ song.barCount ≤ bar + 1) : nextBar song bar = song.loopStart :=
  if_pos last

theorem nextBar_of_inside {song : Song} {bar : Nat} (loops : bar + 1 ≠ song.loopStart + song.loopLength)
    (ends : bar + 1 < song.barCount) : nextBar song bar = bar + 1 := if_neg (by omega)

section
variable {c : Cfg} {song : Song} {k : Clock}

theorem advancePart_of_inside (inside : k.part + 1 ≠ c.partsPerBeat) :
    advancePart c song k = { k with part := k.part + 1 } := if_neg inside

variable (last : k.part + 1 = c.partsPerBeat)
include last

theorem advancePart_of_last_part (inside : k.beat + 1 ≠ song.beatsPerBar) :
    advancePart c song k = { k with part := 0, beat := k.beat + 1 } := by
  rw [advancePart, if_pos last, if_neg inside]

theorem advancePart_of_last_beat (ends : k.beat + 1 = song.beatsPerBar) : advancePart c song k =
    { k with part := 0, beat := 0, bar := nextBar song k.bar, barsPassed := k.barsPassed + 1 } := by
  rw [advancePart, if_pos last, if_pos ends]
  rfl

end

/-- The carry chain neither reads nor writes the countdown. -/
theorem advancePart_withCountdown (c : Cfg) (song : Song) (k : Clock) (left : Num) :
    advancePart c song { k with tickSampleCountdown := left } =
      { advancePart c song k with tickSampleCountdown := left } := by
  unfold advancePart
  dsimp only
  split
  · split <;> rfl
  · rfl

theorem exec_barNext {s : State} (clear : s.fault = false) :
    exec .barNext s = .next { s with eng := { s.eng with clock := s.eng.clock.advanceBar s.song } } :=
  congrArg Host.Outcome.next (onEngine_ok clear _)

/-! `PART.END` against `SYNC.TONES` of each channel (R341). -/

theorem exec_partEnd_of_ok {s : State} {e : Engine} (clear : s.fault = false)
    (h : partEnd (s.ctx Config.cfg .partEnd) s.eng = .ok e) : exec .partEnd s = .next { s with eng := e } := by
  show Host.Outcome.next (onEngine s (partEnd (s.ctx Config.cfg .partEnd) s.eng)) = _
  rw [h, onEngine_ok clear]

/-- `SYNC.TONES` that takes no fault is the synchronisation of its channel, whatever command asks for it. -/
theorem exec_syncTones_unfaulted {s t : State} {c : Nat} (i : Instr) (h : exec (.syncTones c) s = .next t)
    (unfaulted : t.fault = false) :
    ∃ e, syncTones (s.ctx Config.cfg i) c s.eng = .ok e ∧ t = { s with eng := e } := by
  obtain rfl := Host.Outcome.next.inj h
  obtain ⟨e, done, left⟩ := onEngine_unfaulted unfaulted
  split at done
  · exact ⟨e, (syncTones_withInfo (s.ctx Config.cfg i) _ c s.eng).symm.trans done, left⟩
  · nomatch done

/-- The channels `c` to `c + n − 1`, one command behind the other. -/
theorem syncFrom_of_trace {s : State} (i : Instr) {trace : Nat → State} {n c : Nat} {e : Engine}
    (start : trace c = { s with eng := e })
    (steps : ∀ d, c ≤ d → d < c + n →
      exec (.syncTones d) (trace d) = .next (trace (d + 1)) ∧ (trace (d + 1)).fault = false) :
    ∃ e', syncFrom (s.ctx Config.cfg i) n c e = .ok e' ∧ trace (c + n) = { s with eng := e' } := by
  induction n generalizing c e with
  | zero => exact ⟨e, rfl, start⟩
  | succ n ih =>
    obtain ⟨run, unfaulted⟩ := steps c (Nat.le_refl c) (by omega)
    obtain ⟨e1, synced, left⟩ := exec_syncTones_unfaulted i run unfaulted
    rw [start] at synced left
    obtain ⟨e', rest, final⟩ := ih left fun d above below => steps d (by omega) (by omega)
    have first : syncTones (s.ctx Config.cfg i) c e = .ok e1 := synced
    refine ⟨e', ?_, by rw [← final, Nat.succ_add_eq_add_succ]⟩
    rw [syncFrom_succ, first]
    exact rest

/-! `CLK.ADV` by where the countdown falls (R336). -/

theorem advanceClock_of_inside {x : Ctx} {n : Nat} {e : Engine}
    (inside : (e.clock.tickSampleCountdown.sub (Num.ofNat n)).le .zero = false) : advanceClock x n e =
      .ok { e with clock :=
        { e.clock with tickSampleCountdown := e.clock.tickSampleCountdown.sub (Num.ofNat n) } } :=
  if_neg (Bool.eq_false_iff.mp inside)

/-- At a tick's end the clock is what `TICK.END` leaves of the fallen countdown, with a tick's length added. -/
theorem advanceClock_of_tickEnd {x : Ctx} {n : Nat} {e e2 : Engine}
    (ends : (e.clock.tickSampleCountdown.sub (Num.ofNat n)).le .zero = true)
    (h : tickEnd x { e with clock :=
      { e.clock with tickSampleCountdown := e.clock.tickSampleCountdown.sub (Num.ofNat n) } } = .ok e2) :
    advanceClock x n e = .ok { e2 with clock :=
      { e2.clock with tickSampleCountdown := e2.clock.tickSampleCountdown.add e2.clock.samplesPerTick } } := by
  rw [advanceClock]
  dsimp only
  rw [if_pos ends, h]
  rfl

section
variable {s : State} {n : Nat} (clear : s.fault = false)
include clear

theorem exec_clkAdv_of_ok {e : Engine} (positive : 1 ≤ n) (fits : n ≤ ceilCount s.eng.clock.tickSampleCountdown)
    (h : advanceClock (s.ctx Config.cfg (.clkAdv n)) n s.eng = .ok e) :
    exec (.clkAdv n) s = .next { s with eng := e } := by
  show Host.Outcome.next (clkAdvWith (s.ctx Config.cfg (.clkAdv n)) s n) = _
  rw [clkAdvWith, if_pos (by simp [positive, fits]), h, onEngine_ok clear]

theorem exec_clkAdv_of_badLength (bad : n = 0 ∨ ceilCount s.eng.clock.tickSampleCountdown < n) :
    exec (.clkAdv n) s = .next (s.withFault 4#8 (headerInfo (Instr.header (.clkAdv n)))) := by
  have illegal : ¬ (decide (1 ≤ n) && decide (n ≤ ceilCount s.eng.clock.tickSampleCountdown)) = true := by
    simp only [Bool.and_eq_true, decide_eq_true_eq]
    omega
  show Host.Outcome.next (clkAdvWith (s.ctx Config.cfg (.clkAdv n)) s n) = _
  rw [clkAdvWith, if_neg illegal, onEngine_error_eq clear]
  rfl

end

end Sys2Proof.Machine

namespace Sys2Proof.Proofs

open Sys2Proof.Machine

/-- Settles O53, by whether the bar is the loop's or the song's last. -/
theorem barNext : Obligations.BarNext := fun _ clear =>
  ⟨_, exec_barNext clear, nextBar_of_last, nextBar_of_inside⟩

/-- Settles O52: in a silent block by the three lengths of the carry chain, else channel by channel. -/
theorem partBoundary : Obligations.PartBoundary := by
  refine ⟨fun s clear silent => ?silent, fun s trace clear start steps => ?sounding⟩
  case silent =>
    intro k bar leaves
    have of_chain {k' : Clock} (h : advancePart Config.cfg s.song k = k') : leaves k' :=
      h ▸ exec_partEnd_of_ok clear (partEnd_of_idle silent.notes ⟨silent.active, silent.released⟩)
    exact ⟨fun inside => of_chain (advancePart_of_inside inside),
      fun last inside => of_chain (advancePart_of_last_part last inside),
      fun last ends => of_chain (advancePart_of_last_beat last ends)⟩
  case sounding =>
    obtain ⟨e, synced, final⟩ := syncFrom_of_trace (n := s.song.channelCount) .partEnd start
      fun d _ below => steps d (by omega)
    rw [Nat.zero_add] at final
    rw [final]
    exact exec_partEnd_of_ok clear synced

/-- Settles O50, by where the countdown falls and whether the tick ends its part. -/
theorem clockAdvance : Obligations.ClockAdvance := by
  intro s n clear k left spt
  refine ⟨fun positive fits inside => exec_clkAdv_of_ok clear positive fits (advanceClock_of_inside inside),
    fun positive fits ends more => ?tick, fun positive fits ends last silent => ?part, exec_clkAdv_of_badLength clear⟩
  case tick =>
    refine ⟨_, exec_clkAdv_of_ok clear positive fits (advanceClock_of_tickEnd ends (tickEnd_of_inside more)), rfl, ?_⟩
    exact Engine.withClock_congr (tickBoundary_frame ..) _
  case part =>
    have idle : Engine.Idle { s.eng with clock := { k with tickSampleCountdown := left } } :=
      ⟨silent.active, silent.released⟩
    refine ⟨_, exec_clkAdv_of_ok clear positive fits
      (advanceClock_of_tickEnd ends (tickEnd_of_idle silent.notes idle last)), rfl, ?_⟩
    rw [advancePart_withCountdown]
    exact Engine.withClock_congr (tickBoundary_of_idle _ idle) _

end Sys2Proof.Proofs
end

section
set_option Elab.async false
/-! PROOFS. `LIMIT` (`46_master_orchestrator.md` R320 to R322). -/

namespace Sys2Proof.Machine

/-! The protected follower (R322). -/

theorem protectLimit_of_kept {v : Num} (finite : v.isFinite = true) (large : v.abs.lt sanitizeMin = false) :
    protectLimit v = v := by
  simp [protectLimit, finite, large]

theorem protectLimit_of_cleared {v : Num} (bad : v.isFinite = false ∨ v.abs.lt sanitizeMin = true) :
    protectLimit v = .zero := by
  simp [protectLimit, bad]

/-- A protected value is cleared or kept. -/
theorem protectLimit_cases (v : Num) :
    protectLimit v = .zero ∨ (protectLimit v = v ∧ v.isFinite = true ∧ v.abs.lt sanitizeMin = false) := by
  by_cases bad : v.isFinite = false ∨ v.abs.lt sanitizeMin = true
  · exact .inl (protectLimit_of_cleared bad)
  · rw [not_or, Bool.not_eq_false, Bool.not_eq_true] at bad
    obtain ⟨finite, large⟩ := bad
    exact .inr ⟨protectLimit_of_kept finite large, finite, large⟩

theorem protectLimit_isFinite (v : Num) : (protectLimit v).isFinite = true := by
  obtain zero | ⟨kept, finite, -⟩ := protectLimit_cases v
  · rw [zero]
    decide
  · rwa [kept]

theorem protectLimit_zero_or_large (v : Num) :
    protectLimit v = .zero ∨ (protectLimit v).abs.lt sanitizeMin = false := by
  obtain zero | ⟨kept, -, large⟩ := protectLimit_cases v
  · exact .inl zero
  · exact .inr (by rwa [kept])

/-! The follower (R321). -/

theorem peakOf_of_not_isNaN {l r : Num} (left : l.isNaN = false) (right : r.isNaN = false) :
    peakOf l r = Num.max l.abs r.abs := by
  simp [peakOf, left, right]

/-- The follower moves towards the peak, at the rate of a rise or of a fall. -/
theorem followPeak_eq (sampleRate limit peak : Num) : followPeak sampleRate limit peak =
    limit.add ((peak.sub limit).mul (if limit.lt peak then limitRiseNum.div sampleRate
      else (limitDecayNum.div sampleRate).mul (Num.one.add limit))) := by
  unfold followPeak
  split <;> rfl

/-! `LIMIT` as a command (R321). -/

theorem exec_limit {s : State} (clear : s.fault = false) (l r : Num) :
    let m := nextLimit s.sampleRate s.eng.limit l r
    exec (.limit l r) s = .next (answer { s with eng := { s.eng with limit := m } }
      [limiterOutput s.volume m l, limiterOutput s.volume m r]) :=
  congrArg Host.Outcome.next (command_ok clear _)

end Sys2Proof.Machine

namespace Sys2Proof.Proofs

open Sys2Proof.Machine

/-- Settles O49: the new `limit` is the follower's value after protection. -/
theorem limiter : Obligations.Limiter := by
  intro s l r clear div peak rate next
  let m := nextLimit s.sampleRate s.eng.limit l r
  obtain ⟨first, second, above⟩ := result_answer_pair { s with eng := { s.eng with limit := m } }
    (limiterOutput s.volume m l) (limiterOutput s.volume m r)
  refine ⟨_, m, exec_limit clear l r, rfl, above, protectLimit_isFinite _, protectLimit_zero_or_large _, first, second,
    fun left right => ?_⟩
  have followed : m = protectLimit next := by
    show protectLimit (followPeak _ _ _) = _
    rw [peakOf_of_not_isNaN left right, followPeak_eq]
    rfl
  rw [followed]
  exact ⟨protectLimit_of_kept, protectLimit_of_cleared⟩

end Sys2Proof.Proofs
end

section
set_option Elab.async false
/-! SUPPORT. What a sweep makes of a unit of values, of a biquad, of a ring, of a string (`46_master_orchestrator.md`
R343). -/

namespace Sys2Proof

/-! Entries and elements of a memory (R70). -/

theorem Memory.mem_of_find {α : Type} {m : Memory α} {k : Nat} {v : α} (h : Memory.find m k = some v) : (k, v) ∈ m := by
  induction m with
  | nil => nomatch h
  | cons p rest ih =>
    obtain ⟨j, w⟩ := p
    unfold Memory.find at h
    split at h
    next here =>
      cases h
      exact here ▸ List.mem_cons_self
    next =>
      split at h
      · nomatch h
      · exact List.mem_cons_of_mem _ (ih h)

theorem Memory.find_of_mem {α : Type} {lo : Nat} {m : Memory α} (sorted : Memory.sortedFrom lo m = true) {k : Nat}
    {v : α} (h : (k, v) ∈ m) : Memory.find m k = some v := by
  induction m generalizing lo with
  | nil => nomatch h
  | cons p rest ih =>
    obtain ⟨j, w⟩ := p
    simp only [Memory.sortedFrom, Bool.and_eq_true, decide_eq_true_eq] at sorted
    obtain ⟨-, sorted⟩ := sorted
    obtain here | later := List.mem_cons.mp h
    · cases here
      exact if_pos rfl
    · have found := ih sorted later
      have above : j < k := by
        by_contra below
        rw [Memory.find_below sorted (by omega)] at found
        nomatch found
      rw [Memory.find, if_neg (by omega), if_neg (by omega), found]

/-- A filter of the entries by their values is a filter of every element. -/
theorem Memory.find_filter {α : Type} [DecidableEq α] {lo : Nat} {m : Memory α}
    (sorted : Memory.sortedFrom lo m = true) (q : α → Bool) (k : Nat) :
    Memory.find (m.filter (fun p => q p.2)) k = (Memory.find m k).filter q := by
  cases found : Memory.find m k with
  | none =>
    cases kept : Memory.find (m.filter (fun p => q p.2)) k with
    | none => rfl
    | some v =>
      have mem := (List.mem_filter.mp (Memory.mem_of_find kept)).1
      exact nomatch found.symm.trans (Memory.find_of_mem sorted mem)
  | some v =>
    have mem := Memory.mem_of_find found
    have sorted' := Memory.sortedFrom_filter sorted (fun p => q p.2)
    cases keeps : q v with
    | true =>
      rw [Memory.find_of_mem sorted' (List.mem_filter.mpr ⟨mem, keeps⟩), Option.filter_some, if_pos keeps]
    | false =>
      rw [Option.filter_some, if_neg (by simp [keeps])]
      cases kept : Memory.find (m.filter (fun p => q p.2)) k with
      | none => rfl
      | some w =>
        obtain ⟨mem', keeps'⟩ := List.mem_filter.mp (Memory.mem_of_find kept)
        cases found.symm.trans (Memory.find_of_mem sorted mem')
        exact nomatch keeps.symm.trans keeps'

end Sys2Proof

namespace Sys2Proof.Machine

/-! Values (R343). -/

theorem cleaned_eq (v : Num) :
    cleaned v = if v.isNaN = true ∨ (v.eq .zero = false ∧ v.abs.lt sanitizeMin = true) then .zero else v := by
  simp [cleaned, needsZero]

/-- What a sweep of the unit `l` makes of a value in it. -/
def sweptIn (l : List Num) (v : Num) : Num := if l.any blowsUp then .zero else cleaned v

theorem sanitizeUnit_eq_map (l : List Num) : sanitizeUnit l = l.map (sweptIn l) := by
  unfold sanitizeUnit sweptIn
  split <;> rfl

/-- A value on its own is a unit of one. -/
theorem sanitizeUnit_singleton (v : Num) : sanitizeUnit [v] = [sanitizeOne v] := by
  rw [sanitizeUnit_eq_map, List.map_singleton, sweptIn, List.any_cons, List.any_nil, Bool.or_false]
  rfl

theorem sanitizeUnit_toList (v : Vector Num 4) :
    (if v.toList.any blowsUp then zeros4 else v.map cleaned).toList = sanitizeUnit v.toList := by
  unfold sanitizeUnit
  split
  · rw [List.map_const', Vector.length_toList]
    rfl
  · exact Vector.toList_map

/-! Biquads (R24). -/

/-- `g` is `f` after a sweep of its histories. -/
def Biquad.SweptTo (f g : Biquad) : Prop :=
  g = { f with in1 := g.in1, in2 := g.in2, out1 := g.out1, out2 := g.out2 } ∧
    [g.in1, g.in2, g.out1, g.out2] = sanitizeUnit [f.in1, f.in2, f.out1, f.out2]

theorem Biquad.sanitize_eq (f : Biquad) :
    let swept := sweptIn [f.in1, f.in2, f.out1, f.out2]
    f.sanitize = { f with in1 := swept f.in1, in2 := swept f.in2, out1 := swept f.out1, out2 := swept f.out2 } := by
  rw [Biquad.sanitize, sanitizeUnit_eq_map]
  rfl

theorem Biquad.sweptTo_sanitize (f : Biquad) : f.SweptTo f.sanitize := by
  rw [f.sanitize_eq]
  exact ⟨rfl, (sanitizeUnit_eq_map [f.in1, f.in2, f.out1, f.out2]).symm⟩

theorem sanitizeFirst_biquad {n k : Nat} {l : List Biquad} {f : Biquad} (hf : l[k]? = some f) :
    (sanitizeFirst n l)[k]? = some (if k < n then f.sanitize else f) := by
  rw [sanitizeFirst, List.getElem?_mapIdx, hf, Option.map_some]

/-! Rings. -/

/-- `m'` is the ring `m` after a sweep, element by element. -/
def RingSweptTo (m m' : Memory Num) : Prop := Memory.numWf m = true →
  ((∃ k, blowsUp (Memory.getNum m k) = true) → ∀ k, Memory.getNum m' k = .zero) ∧
    ((∀ k, blowsUp (Memory.getNum m k) = false) → ∀ k, Memory.getNum m' k = cleaned (Memory.getNum m k))

/-- A ring has a value that blows up among its entries where it has one among its elements. -/
theorem any_blowsUp_iff {m : Memory Num} (wf : Memory.numWf m = true) :
    m.any (fun p => blowsUp p.2) = true ↔ ∃ k, blowsUp (Memory.getNum m k) = true := by
  obtain ⟨sorted, -⟩ := Memory.wf_iff.mp wf
  rw [List.any_eq_true]
  constructor
  · rintro ⟨⟨k, v⟩, mem, big⟩
    exact ⟨k, by rwa [Memory.getNum, Memory.find_of_mem sorted mem]⟩
  · rintro ⟨k, big⟩
    unfold Memory.getNum at big
    cases found : Memory.find m k with
    | none =>
      rw [found] at big
      exact absurd big (by decide)
    | some v =>
      rw [found] at big
      exact ⟨(k, v), Memory.mem_of_find found, big⟩

theorem ringSweptTo_sanitizeRing (m : Memory Num) : RingSweptTo m (sanitizeRing m) := by
  intro wf
  constructor
  · intro big k
    rw [sanitizeRing, if_pos ((any_blowsUp_iff wf).mpr big)]
    rfl
  · intro calm k
    have none_big : ¬ m.any (fun p => blowsUp p.2) = true := fun some_big => by
      obtain ⟨j, big⟩ := (any_blowsUp_iff wf).mp some_big
      exact nomatch (calm j).symm.trans big
    rw [sanitizeRing, if_neg none_big, Memory.getNum,
      Memory.find_filter (Memory.wf_iff.mp wf).1 (fun v => !needsZero v), Memory.getNum]
    cases Memory.find m k with
    | none => decide
    | some v =>
      rw [Option.filter_some, Option.getD_some, cleaned]
      cases needsZero v <;> rfl

/-! Strings (R25). -/

/-- `z` is the string `w` after a sweep. -/
def StringState.SweptTo (w z : StringState) : Prop :=
  z = { w with
    fracIn1 := z.fracIn1, fracOut1 := z.fracOut1, dispersion := z.dispersion, shelf := z.shelf, ring := z.ring } ∧
  [z.fracIn1, z.fracOut1] = sanitizeUnit [w.fracIn1, w.fracOut1] ∧ w.dispersion.SweptTo z.dispersion ∧
  w.shelf.SweptTo z.shelf ∧ RingSweptTo w.ring z.ring

theorem StringState.sanitize_eq (w : StringState) :
    let swept := sweptIn [w.fracIn1, w.fracOut1]
    w.sanitize = { w with
      fracIn1 := swept w.fracIn1, fracOut1 := swept w.fracOut1, dispersion := w.dispersion.sanitize
      shelf := w.shelf.sanitize, ring := sanitizeRing w.ring } := by
  rw [StringState.sanitize, sanitizeUnit_eq_map]
  rfl

theorem StringState.sweptTo_sanitize (w : StringState) : w.SweptTo w.sanitize := by
  rw [w.sanitize_eq]
  exact ⟨rfl, (sanitizeUnit_eq_map [w.fracIn1, w.fracOut1]).symm, w.dispersion.sweptTo_sanitize, w.shelf.sweptTo_sanitize,
    ringSweptTo_sanitizeRing w.ring⟩

/-! Slots and tones. -/

theorem sanitizeSlot_of_awake {i : Slot} (awake : i.awake = true) : sanitizeSlot i = { i with
    fxFilters := i.fxFilters.map Biquad.sanitize
    reverbLP := if i.reverbLP.toList.any blowsUp then zeros4 else i.reverbLP.map cleaned
    crushHold := sanitizeOne i.crushHold, panRing := sanitizeRing i.panRing
    chorusRingL := sanitizeRing i.chorusRingL, chorusRingR := sanitizeRing i.chorusRingR
    reverbRing := sanitizeRing i.reverbRing } := if_pos awake

theorem sanitizeTone_of_free (song : Song) {t : Tone} (free : t.state = .free) : sanitizeTone song t = t := by
  rw [sanitizeTone, free]

/-- Whether a tone's instrument has strings. -/
def Tone.isGuitar (song : Song) (t : Tone) : Bool :=
  (slotInstrument song t.instrument).elim false (fun ins => ins.kind == kindGuitar)

theorem Tone.isGuitar_of_kind {song : Song} {t : Tone} {ins : Instrument}
    (hins : slotInstrument song t.instrument = some ins) (kind : ins.kind = kindGuitar) : t.isGuitar song = true := by
  rw [Tone.isGuitar, hins, Option.elim_some, kind, beq_self_eq_true]

theorem Tone.not_isGuitar {song : Song} {t : Tone}
    (other : ∀ ins, slotInstrument song t.instrument = some ins → ins.kind ≠ kindGuitar) :
    t.isGuitar song = false := by
  rw [Tone.isGuitar]
  cases hins : slotInstrument song t.instrument with
  | none => rfl
  | some ins => exact beq_false_of_ne (other ins hins)

theorem sanitizeTone_of_used {song : Song} {t : Tone} (used : t.state ≠ .free) : sanitizeTone song t = { t with
    filters := sanitizeFirst t.filterCount t.filters, noiseSample := sanitizeOne t.noiseSample
    strings := if t.isGuitar song then t.strings.map StringState.sanitize else t.strings } := by
  unfold sanitizeTone
  split
  next free => exact absurd free used
  next => rfl

theorem sanitize_tone (song : Song) {e : Engine} {u : Nat} {a : Tone} (ha : e.tones[u]? = some a) :
    (sanitize song e).tones[u]? = some (sanitizeTone song a) := by
  show (e.tones.map (sanitizeTone song))[u]? = _
  rw [List.getElem?_map, ha, Option.map_some]

/-- Every element of a mapped list is one of the list, mapped. -/
theorem related_of_map {α β : Type} {R : α → β → Prop} {f : α → β} (h : ∀ a, R a (f a)) {l : List α} {k : Nat} {a : α}
    {b : β} (ha : l[k]? = some a) (hb : (l.map f)[k]? = some b) : R a b := by
  rw [List.getElem?_map, ha, Option.map_some] at hb
  cases hb
  exact h a

end Sys2Proof.Machine
end

section
set_option Elab.async false
/-! PROOFS. `SANITIZE` (`46_master_orchestrator.md` R343), slot by slot and tone by tone. -/

namespace Sys2Proof.Proofs

open Sys2Proof.Machine

/-- Settles O54, by what a sweep makes of each awake slot and of each tone in use. -/
theorem sanitize : Obligations.Sanitize := by
  intro s clear
  refine ⟨_, exec_sanitize clear, rfl, ?_⟩
  intro zero big clean unit biquad ring
  have clean_eq : clean = cleaned := funext fun v => (cleaned_eq v).symm
  have unit_eq : unit = sanitizeUnit := funext fun l => by
    show (if l.any big then l.map (fun _ => zero) else l.map clean) = sanitizeUnit l
    rw [clean_eq]
    rfl
  have biquad_eq : biquad = Biquad.SweptTo := funext₂ fun f g => by
    show (_ ∧ _ = unit _) = _
    rw [unit_eq]
    rfl
  have ring_eq : ring = RingSweptTo := funext₂ fun m m' => by
    show (_ → _ ∧ (_ → ∀ k, _ = clean _)) = _
    rw [clean_eq]
    rfl
  clear_value ring biquad unit
  subst unit_eq biquad_eq ring_eq
  refine ⟨fun u i hi => ⟨_, sanitize_slot s.song hi, sanitizeSlot_of_asleep, fun awake => ?slot⟩,
    fun u a ha => ⟨_, sanitize_tone s.song ha, sanitizeTone_of_free s.song, fun used => ?tone⟩⟩
  case slot =>
    rw [sanitizeSlot_of_awake awake]
    exact ⟨rfl, (sanitizeUnit_singleton _).symm, sanitizeUnit_toList _, List.length_map _,
      fun k f g => related_of_map Biquad.sweptTo_sanitize, ringSweptTo_sanitizeRing _, ringSweptTo_sanitizeRing _,
      ringSweptTo_sanitizeRing _, ringSweptTo_sanitizeRing _⟩
  case tone =>
    rw [sanitizeTone_of_used used]
    refine ⟨rfl, (sanitizeUnit_singleton _).symm, List.length_mapIdx, fun k f g hf hg => ?filter,
      fun other => ?plain, fun ins hins kind => ?guitar⟩
    case filter =>
      cases (sanitizeFirst_biquad hf).symm.trans hg
      constructor
      · intro below
        rw [if_pos below]
        exact f.sweptTo_sanitize
      · exact fun above => if_neg (Nat.not_lt.mpr above)
    case plain => exact if_neg (Bool.eq_false_iff.mp (Tone.not_isGuitar other))
    case guitar =>
      rw [if_pos (Tone.isGuitar_of_kind hins kind)]
      exact ⟨List.length_map _, fun k w z => related_of_map StringState.sweptTo_sanitize⟩

end Sys2Proof.Proofs
end

section
set_option Elab.async false
/-! SUPPORT. Zeros through the master stage (`46_master_orchestrator.md` R321, R322, `00_scope.md` R7), and the phases of a
`RUN` in a silent block (R330 to R341). -/

namespace Sys2Proof

/-! Zeros of either sign (R7). -/

theorem isNaN_eq_false_of_isFinite {y : Num} (finite : y.isFinite = true) : y.isNaN = false := by
  have exponent : y.expField ≠ 2047 := by simpa [Num.isFinite] using finite
  simp [Num.isNaN, exponent]

theorem isInf_eq_false_of_isFinite {y : Num} (finite : y.isFinite = true) : y.isInf = false := by
  have exponent : y.expField ≠ 2047 := by simpa [Num.isFinite] using finite
  simp [Num.isInf, exponent]

theorem isFinite_eq_false_of_isNaN {y : Num} (nan : y.isNaN = true) : y.isFinite = false :=
  Bool.eq_false_iff.mpr fun finite => nomatch (isNaN_eq_false_of_isFinite finite).symm.trans nan

theorem isNaN_or_isInf_of_not_isFinite {y : Num} (infinite : y.isFinite = false) : y.isNaN = true ∨ y.isInf = true := by
  have exponent : y.expField = 2047 := by simpa [Num.isFinite] using infinite
  by_cases frac : y.fracField = 0
  · exact .inr (by simp [Num.isInf, exponent, frac])
  · exact .inl (by simp [Num.isNaN, exponent, frac])

theorem round_zero_mant (sign : Bool) (e : Int) : Num.round sign 0 e = Num.zeroOf sign := by
  cases sign <;> rfl

theorem zero_mul_of_isFinite {y : Num} (finite : y.isFinite = true) : Num.zero.mul y = Num.zeroOf y.sign := by
  rw [Num.mul, isNaN_eq_false_of_isFinite finite, isInf_eq_false_of_isFinite finite]
  show Num.round _ (0 * y.mant) _ = _
  rw [Nat.zero_mul, round_zero_mant]
  exact congrArg Num.zeroOf (Bool.false_bne y.sign)

theorem zero_mul_isNaN_of_not_isFinite {y : Num} (infinite : y.isFinite = false) : (Num.zero.mul y).isNaN = true := by
  unfold Num.mul
  obtain nan | inf := isNaN_or_isInf_of_not_isFinite infinite
  · rw [nan]
    exact nanOf_isNaN _ _
  · rw [inf]
    split <;> exact nanOf_isNaN _ _

theorem zero_add_zeroOf (sign : Bool) : Num.zero.add (Num.zeroOf sign) = .zero := by
  cases sign <;> decide

theorem round32_zeroOf (sign : Bool) : (Num.zeroOf sign).round32.toNat % 2 ^ 31 = 0 := by
  cases sign <;> decide

end Sys2Proof

namespace Sys2Proof.Machine

/-! The master stage in silence (R321, R322). -/

/-- Whatever the rate, a follower that stands at 0 stays there in silence: a rate that is no number is protected. -/
theorem nextLimit_of_silence (sampleRate : Num) : nextLimit sampleRate .zero .zero .zero = .zero := by
  have peak : peakOf .zero .zero = .zero := by decide
  have still : Num.zero.sub .zero = .zero := by decide
  rw [nextLimit, peak, followPeak_eq, still]
  generalize (if Num.zero.lt .zero then limitRiseNum.div sampleRate
    else (limitDecayNum.div sampleRate).mul (Num.one.add .zero)) = rate
  cases finite : rate.isFinite with
  | true =>
    rw [zero_mul_of_isFinite finite, zero_add_zeroOf]
    exact protectLimit_of_cleared (.inr (by decide))
  | false =>
    have nan := add_isNaN (x := .zero) (.inr (zero_mul_isNaN_of_not_isFinite finite))
    exact protectLimit_of_cleared (.inl (isFinite_eq_false_of_isNaN nan))

theorem limiterOutput_of_silence {volume : Num} (finite : volume.isFinite = true) :
    limiterOutput volume .zero .zero = Num.zeroOf volume.sign := by
  have divisor : limiterDivisor .zero = quarter := by decide +kernel
  rw [limiterOutput, divisor, zero_mul_of_isFinite finite]
  cases volume.sign <;> decide +kernel

/-! A silent engine. -/

/-- No tone in any queue and no slot awake (R335). -/
structure Engine.Hushed (e : Engine) : Prop where
  idle : e.Idle
  asleep : ∀ i ∈ e.slots, i.awake = false

/-- Silence is in the queues and the slots alone. -/
theorem Engine.Hushed.congr {e e' : Engine} (h : e.Hushed) (active : e'.activeTones = e.activeTones)
    (released : e'.releasedTones = e.releasedTones) (slots : e'.slots = e.slots) : e'.Hushed :=
  ⟨⟨active ▸ h.idle.active, released ▸ h.idle.released⟩, slots ▸ h.asleep⟩

/-- An output element is a zero of either sign on both sides. -/
def Engine.OutZero (e : Engine) (j : Nat) : Prop :=
  ∃ l r, Memory.find e.outL j = some l ∧ Memory.find e.outR j = some r ∧
    l.toNat % 2 ^ 31 = 0 ∧ r.toNat % 2 ^ 31 = 0

/-- A silent engine in a run of `n` samples, of which `pos` are made. -/
structure Engine.SilentRun (n pos : Nat) (e : Engine) : Prop where
  hushed : e.Hushed
  limit : e.limit = .zero
  mix : ∀ j, j < n → e.readMixL j = .zero ∧ e.readMixR j = .zero
  out : ∀ j, j < pos → e.OutZero j

/-! The voices (R331). -/

theorem tonesOf_of_idle {e : Engine} (idle : e.Idle) (channel islot : Nat) : tonesOf e channel islot = [] := by
  rw [tonesOf, getD_of_all_nil idle.active, getD_of_all_nil idle.released]
  rfl

theorem voiceSlot_of_hushed {e : Engine} (hushed : e.Hushed) (x : Ctx) (pos n channel islot : Nat) :
    voiceSlot x pos n channel islot e = .ok e := by
  rw [voiceSlot, tonesOf_of_idle hushed.idle, voiceTones]
  dsimp only
  split
  next i ins hi _ =>
    rw [hushed.asleep i (List.mem_of_getElem? hi)]
    rfl
  next => rfl

theorem voiceSlots_of_hushed {e : Engine} (hushed : e.Hushed) (x : Ctx) (pos n count i : Nat) :
    voiceSlots x pos n count i e = .ok e := by
  induction count generalizing i with
  | zero => rfl
  | succ count ih =>
    rw [voiceSlots_succ, voiceSlot_of_hushed hushed]
    exact ih (i + 1)

/-! The master stage of a run (R334). -/

/-- One sample of the master stage in a silent run. -/
theorem Engine.SilentRun.limitSample {x : Ctx} (volume : x.volume.isFinite = true) {n pos : Nat} {e : Engine}
    (h : e.SilentRun n pos) (inside : pos < n) : (limiterLoop x 1 pos e).SilentRun n (pos + 1) := by
  obtain ⟨left, right⟩ := h.mix pos inside
  have limit : nextLimit x.sampleRate e.limit (e.readMixL pos) (e.readMixR pos) = .zero := by
    rw [h.limit, left, right, nextLimit_of_silence]
  refine ⟨h.hushed.congr rfl rfl rfl, limit, h.mix, fun j below => ?_⟩
  obtain earlier | here := Nat.lt_succ_iff_lt_or_eq.mp below
  · obtain ⟨l, r, hl, hr, zeros⟩ := h.out j earlier
    exact ⟨l, r, (Memory.find_write_none_other _ earlier.ne).trans hl,
      (Memory.find_write_none_other _ earlier.ne).trans hr, zeros⟩
  · subst here
    have zero : (limiterOutput x.volume .zero .zero).round32.toNat % 2 ^ 31 = 0 := by
      rw [limiterOutput_of_silence volume, round32_zeroOf]
    refine ⟨_, _, Memory.find_write_none_same .., Memory.find_write_none_same .., ?_⟩
    rw [limit, left, right]
    exact ⟨zero, zero⟩

theorem Engine.SilentRun.limiterLoop {x : Ctx} (volume : x.volume.isFinite = true) {n pos k : Nat} {e : Engine}
    (h : e.SilentRun n pos) (fits : pos + k ≤ n) : (limiterLoop x k pos e).SilentRun n (pos + k) := by
  induction k generalizing pos e with
  | zero => exact h
  | succ k ih =>
    rw [limiterLoop_succ, Nat.add_comm k, ← Nat.add_assoc]
    exact ih (h.limitSample volume (by omega)) (by omega)

/-! The clock (R336 to R341). -/

theorem sanitizeSlot_awake (i : Slot) : (sanitizeSlot i).awake = i.awake := by
  unfold sanitizeSlot
  split <;> rfl

theorem tickSlot_asleep (x : Ctx) (samplesPerTick : Num) (u : Nat) {i : Slot} (asleep : i.awake = false) :
    (tickSlot x samplesPerTick u i).awake = false := by
  cases flagged : i.deactivateAfterThisTick with
  | true =>
    rw [tickSlot_of_flagged x samplesPerTick u flagged]
    rfl
  | false => rwa [tickSlot_of_asleep x samplesPerTick u flagged asleep]

/-- No slot wakes at a tick boundary. -/
theorem tickBoundary_asleep (x : Ctx) {e : Engine} (asleep : ∀ i ∈ e.slots, i.awake = false) :
    ∀ i ∈ (tickBoundary x e).slots, i.awake = false := by
  rw [tickBoundary_eq]
  refine List.forall_mem_map.mpr fun i mem => (sanitizeSlot_awake i).trans ?_
  exact forall_mem_mapIdx (P := fun i => i.awake = false) (by rwa [e.aged_slots])
    (fun u _ => tickSlot_asleep x _ u) i mem

/-- What the clock's operations leave of a silent engine: slots still asleep, and all but tones, slots and clock. -/
structure Engine.KeepsHush (e e' : Engine) : Prop where
  frame : e' = { e with tones := e'.tones, slots := e'.slots, clock := e'.clock }
  asleep : ∀ i ∈ e'.slots, i.awake = false

theorem Engine.KeepsHush.silentRun {n pos : Nat} {e e' : Engine} (h : e.KeepsHush e') (silent : e.SilentRun n pos) :
    e'.SilentRun n pos := by
  have asleep := h.asleep
  rw [h.frame] at asleep ⊢
  exact ⟨⟨⟨silent.hushed.idle.active, silent.hushed.idle.released⟩, asleep⟩, silent.limit, silent.mix, silent.out⟩

theorem tickBoundary_keepsHush (x : Ctx) {e : Engine} (hushed : e.Hushed) (k : Clock) :
    e.KeepsHush { tickBoundary x e with clock := k } :=
  ⟨Engine.withClock_congr (tickBoundary_of_idle x hushed.idle) k, tickBoundary_asleep x hushed.asleep⟩

section
variable {x : Ctx} (noteless : ∀ ch ∈ x.song.channels, ∀ p ∈ ch.patterns, p.notes = []) {e : Engine}
  (hushed : e.Hushed)
include noteless hushed

theorem tickEnd_of_hushed : ∃ e', tickEnd x e = .ok e' ∧ e.KeepsHush e' := by
  by_cases last : e.clock.tick + 1 = x.cfg.ticksPerPart
  · exact ⟨_, tickEnd_of_idle noteless hushed.idle last, tickBoundary_keepsHush x hushed _⟩
  · exact ⟨_, tickEnd_of_inside last, tickBoundary_keepsHush x hushed _⟩

theorem advanceClock_of_hushed (n : Nat) : ∃ e', advanceClock x n e = .ok e' ∧ e.KeepsHush e' := by
  cases ends : (e.clock.tickSampleCountdown.sub (Num.ofNat n)).le .zero with
  | false => exact ⟨_, advanceClock_of_inside ends, rfl, hushed.asleep⟩
  | true =>
    have fallen : Engine.Hushed { e with clock :=
        { e.clock with tickSampleCountdown := e.clock.tickSampleCountdown.sub (Num.ofNat n) } } :=
      hushed.congr rfl rfl rfl
    obtain ⟨e2, ticked, keeps⟩ := tickEnd_of_hushed noteless fallen
    exact ⟨_, advanceClock_of_tickEnd ends ticked, Engine.withClock_congr keeps.frame _, keeps.asleep⟩

end

/-! The loop (R330, R333). -/

theorem nextRunLength_range {remaining : Nat} (positive : 0 < remaining) (runMax : Nat) (k : Clock) :
    1 ≤ nextRunLength remaining runMax k ∧ nextRunLength remaining runMax k ≤ remaining := by
  unfold nextRunLength
  omega

theorem openBuffers_silentRun (x : Ctx) (n : Nat) {e : Engine} (hushed : e.Hushed) (limit : e.limit = .zero) :
    (openBuffers x n e).SilentRun n 0 where
  hushed := hushed.congr rfl rfl rfl
  limit := limit
  mix _ below := ⟨congrArg (Option.getD · _) (Memory.find_ofListFrom_replicate below Num.zero),
    congrArg (Option.getD · _) (Memory.find_ofListFrom_replicate below Num.zero)⟩
  out _ below := absurd below (Nat.not_lt_zero _)

section
variable {x : Ctx} (noteless : ∀ ch ∈ x.song.channels, ∀ p ∈ ch.patterns, p.notes = [])
  (volume : x.volume.isFinite = true)
include noteless volume

/-- Every iteration makes at least one sample, and samples that are made are zeros. -/
theorem runOnce_of_silent {pos remaining : Nat} (positive : 0 < remaining) {e : Engine}
    (h : e.SilentRun (pos + remaining) pos) : ∃ k e', runOnce x pos remaining e = .ok (k, e') ∧
      1 ≤ k ∧ k ≤ remaining ∧ e'.SilentRun (pos + remaining) (pos + k) := by
  obtain ⟨progress, fits⟩ := nextRunLength_range positive (e.runMax x.cfg) e.clock
  have limited := h.limiterLoop volume (k := nextRunLength remaining (e.runMax x.cfg) e.clock) (by omega)
  obtain ⟨e', advanced, keeps⟩ := advanceClock_of_hushed noteless limited.hushed
    (nextRunLength remaining (e.runMax x.cfg) e.clock)
  refine ⟨_, e', ?_, progress, fits, keeps.silentRun limited⟩
  rw [runOnce, syncAll, syncFrom_of_idle noteless h.hushed.idle]
  dsimp only
  rw [voiceSlots_of_hushed h.hushed]
  dsimp only
  rw [advanced]
  rfl

theorem runLoop_of_silent {fuel pos remaining n : Nat} (enough : remaining ≤ fuel)
    (total : pos + remaining = n) {e : Engine} (h : e.SilentRun n pos) :
    ∃ e', runLoop x fuel pos remaining e = .ok e' ∧ e'.SilentRun n n := by
  subst total
  induction fuel generalizing pos remaining e with
  | zero =>
    obtain rfl := Nat.le_zero.mp enough
    exact ⟨e, rfl, h⟩
  | succ fuel ih =>
    rw [runLoop]
    obtain done | positive := Nat.eq_zero_or_pos remaining
    · subst done
      exact ⟨e, if_pos rfl, h⟩
    · obtain ⟨k, e1, once, progress, fits, silent⟩ :=
        runOnce_of_silent (x := { x with pos := pos }) noteless volume positive h
      have samples : pos + k + (remaining - k) = pos + remaining := by omega
      rw [if_neg positive.ne', once, ← samples]
      rw [← samples] at silent
      exact ih (by omega) silent

theorem runEngine_of_silent (n : Nat) {e : Engine} (hushed : e.Hushed) (limit : e.limit = .zero) :
    ∃ e', runEngine x n e = .ok e' ∧ e'.SilentRun n n := by
  obtain ⟨e', looped, silent⟩ := runLoop_of_silent noteless volume (Nat.le_refl n) (Nat.zero_add n)
    (openBuffers_silentRun x n hushed limit)
  refine ⟨forgetWork x e', ?_, silent.hushed.congr rfl rfl rfl, silent.limit, silent.mix, silent.out⟩
  rw [runEngine, looped]
  rfl

end

end Sys2Proof.Machine
end

section
set_option Elab.async false
/-! PROOFS. A song without notes plays exact silence (`46_master_orchestrator.md` R330, R334, R335). -/

namespace Sys2Proof.Proofs

open Sys2Proof.Machine

/-- Settles O27: each iteration of the run keeps the engine silent and makes zeros. -/
theorem runOfSilentSong : Obligations.RunOfSilentSong := by
  intro s n clear playing positive fits controls limit silent
  obtain ⟨-, ⟨volume, -⟩, -⟩ := controls
  obtain ⟨e, run, zeros⟩ := runEngine_of_silent (x := s.runCtx n) silent.notes volume n
    ⟨⟨silent.active, silent.released⟩, silent.asleep⟩ limit
  refine ⟨{ s with eng := e }, ?_, rfl, ⟨silent.notes, zeros.hushed.idle.active, zeros.hushed.idle.released,
    zeros.hushed.asleep⟩, zeros.limit, zeros.out⟩
  rw [exec_run, runWith_playing clear positive fits playing, runPlaying_ok run]

end Sys2Proof.Proofs
end

section
set_option Elab.async false
/-! PROOFS. Playback control, the writes and reads of `r` and `WORK`, and a set latch (`47_system.md` R374 to R376, R382,
R384, R386, `60_exceptions.md` R456, R457). -/

namespace Sys2Proof.Machine

/-! Playback control (R374 to R376). -/

theorem exec_play {s : State} (clear : s.fault = false) : exec .play s = .next (play Config.cfg s) :=
  congrArg Host.Outcome.next (command_ok clear _)

theorem exec_pause {s : State} (clear : s.fault = false) : exec .pause s = .next (pause s) :=
  congrArg Host.Outcome.next (command_ok clear _)

theorem exec_live {s : State} (clear : s.fault = false) : exec .live s = .next (live s) :=
  congrArg Host.Outcome.next (command_ok clear _)

/-! Result registers and `WORK` (R382, R384, R386). -/

theorem exec_setr_inside {s : State} {u : Nat} (v : Num) (clear : s.fault = false) (inside : u ≤ 15) :
    exec (.setr u v) s = .next (s.setResult u v) := by
  have lt : u < 16 := by omega
  show Host.Outcome.next (command s ((need (decide (u < 16)) _).map _)) = _
  rw [decide_eq_true lt]
  exact congrArg Host.Outcome.next (command_ok clear _)

theorem exec_setr_outside {s : State} {u : Nat} (v : Num) (clear : s.fault = false) (outside : 15 < u) :
    exec (.setr u v) s = .next (s.withFault 2#8 (headerInfo (Instr.header (.setr u v)))) := by
  have ge : ¬ u < 16 := by omega
  show Host.Outcome.next (command s ((need (decide (u < 16)) _).map _)) = _
  rw [decide_eq_false ge]
  exact congrArg Host.Outcome.next ((command_error clear _).trans (raise_eq_withFault clear _))

theorem setResult_result_same (s : State) {u : Nat} (v : Num) (inside : u ≤ 15) :
    (s.setResult u v).result u = some v := by
  have lt : u < 16 := by omega
  simp [State.result, lt]

theorem setResult_result_other (s : State) {u k : Nat} (v : Num) (ne : k ≠ u) :
    (s.setResult u v).result k = s.result k := by
  simp [State.result, ne.symm]

theorem exec_wrw_inside {s : State} {index : Nat} (v : Num) (clear : s.fault = false)
    (inside : index < Config.cfg.workSize) :
    exec (.wrw index v) s = .next { s with eng := s.eng.writeWork index v } := by
  show Host.Outcome.next (onEngine s ((need (decide (index < Config.cfg.workSize)) _).map _)) = _
  rw [decide_eq_true inside]
  exact congrArg Host.Outcome.next (onEngine_ok clear _)

theorem exec_wrw_outside {s : State} {index : Nat} (v : Num) (clear : s.fault = false)
    (outside : Config.cfg.workSize ≤ index) :
    exec (.wrw index v) s = .next (s.withFault 2#8 (headerInfo (Instr.header (.wrw index v)))) := by
  show Host.Outcome.next (onEngine s ((need (decide (index < Config.cfg.workSize)) _).map _)) = _
  rw [decide_eq_false (Nat.not_lt.mpr outside)]
  exact congrArg Host.Outcome.next ((onEngine_error clear _).trans (raise_eq_withFault clear _))

theorem exec_rdw_inside (s : State) {index : Nat} (inside : index < Config.cfg.workSize) :
    exec (.rdw index) s = .next { s with responses := s.responses ++ [(s.eng.readWork index).response] } := by
  show Host.Outcome.next (readCommand s ((need (decide (index < Config.cfg.workSize)) _).map _)) = _
  rw [decide_eq_true inside]
  rfl

/-- Outside `WORK` a read is one that raises. -/
theorem exec_rdw_outside (s : State) {index : Nat} (outside : Config.cfg.workSize ≤ index) :
    exec (.rdw index) s =
      .next (readCommand s (.error ⟨.badIndex, headerInfo (Instr.header (.rdw index))⟩)) := by
  show Host.Outcome.next (readCommand s ((need (decide (index < Config.cfg.workSize)) _).map _)) = _
  rw [decide_eq_false (Nat.not_lt.mpr outside)]
  rfl

theorem spaceWord_work {s : State} {index : Nat} (inside : index < Config.cfg.workSize) :
    s.spaceWord 0 0 0 index = some (s.eng.readWork index).response := if_pos ⟨rfl, rfl, inside⟩

/-! A set latch (R456, R457). -/

theorem onEngine_faulted {s : State} (set : s.fault = true) (r : Except Raise Engine) : onEngine s r = s :=
  command_faulted set _

/-- A read that would raise does nothing under a set latch. -/
theorem readCommand_error_faulted {s : State} (set : s.fault = true) (f : Raise) : readCommand s (.error f) = s := by
  simp [readCommand, set]

/-- Each command but `RESET` and the reads looks at the latch before anything else. -/
theorem exec_of_fault {s : State} {i : Instr} {op : Nat} (set : s.fault = true) (hop : i.opcode = some op)
    (other : op ∉ [0x01, 0x07, 0x0B, 0x0D, 0x0E]) : exec i s = .next s := by
  cases i <;> cases hop
  case reset | cfgr | rdr | rdw | rdm => exact absurd (by decide) other
  case run => exact if_pos set
  case songLoad | songSet | toneCompute => exact congrArg Host.Outcome.next (if_pos set)
  case play | pause | live | cfgw | setr | bqStep | coefLp1 | coefHp1 | coefLp2 | coefHp2 | coefPeak | coefHshelf1
      | coefAp1 | coefFdap | fptHz | fptGain | volcomp | envSteady | envCustom | envTwang | envSwell | envTremolo
      | envTremolo2 | envPunch | envFlare | envDecay | lfo | expr | relscale | vibRamp | pitchHz | toneNew | arpIndex
      | fxDistort | fxBitcrush | fxFilter | fxPan | fxChorus | fxReverb | limit =>
    exact congrArg Host.Outcome.next (command_faulted set _)
  all_goals exact congrArg Host.Outcome.next (onEngine_faulted set _)

/-- The latch of two states is the same and set. -/
def State.KeepsLatch (s t : State) : Prop := t.fault = true ∧ t.faultCode = s.faultCode ∧ t.faultInfo = s.faultInfo

theorem State.KeepsLatch.refl {s : State} (set : s.fault = true) : s.KeepsLatch s := ⟨set, rfl, rfl⟩

theorem raise_keepsLatch {s : State} (set : s.fault = true) (f : Raise) : s.KeepsLatch (raise f s) :=
  ⟨raise_fault f s, raise_set set⟩

theorem State.EndsIn.keepsLatch {s t : State} (h : s.EndsIn t) (set : s.fault = true) : s.KeepsLatch t := by
  obtain ⟨u, same, rfl | ⟨f, rfl⟩⟩ := h
  · obtain ⟨fault, code, info⟩ := same.latch
    exact ⟨fault.trans set, code, info⟩
  · obtain ⟨fault, code, info⟩ := same.latch
    obtain ⟨code', info'⟩ := raise_set (f := f) (fault.trans set)
    exact ⟨raise_fault f u, code'.trans code, info'.trans info⟩

/-- An instruction but `RESET` keeps a set latch: one that rewrites the controls is ignored, every other one ends in the
same control state. -/
theorem exec_keepsLatch {i : Instr} {s t : State} (set : s.fault = true) (other : i ≠ .reset)
    (h : exec i s = .next t) : s.KeepsLatch t := by
  by_cases rewrites : Rewrites i
  · have ignored : exec i s = .next s := by
      obtain rfl | ⟨u, value, rfl⟩ | rfl | rfl := rewrites
      · exact absurd rfl other
      all_goals exact exec_of_fault set rfl (by decide)
    rw [ignored] at h
    cases h
    exact .refl set
  · exact (exec_endsIn rewrites h).keepsLatch set

theorem accept_fault (rest : List Word) (s : State) : (accept rest s).fault = s.fault := by rw [accept_frame]

/-- Acceptance does not touch the latch. -/
theorem accept_keepsLatch {rest : List Word} {s t : State} (h : (accept rest s).KeepsLatch t) : s.KeepsLatch t := by
  rw [accept_frame] at h
  exact h

theorem presentBusy_keepsLatch (c : Cfg) {s : State} (set : s.fault = true) : s.KeepsLatch (presentBusy c s) := by
  unfold presentBusy
  split <;> exact .refl set

theorem fetch_command {s : State} {i : Instr} {rest : List Word} (h : fetch s = .command i rest) :
    decodeCommand s.port = .ok (i, rest) := by
  unfold fetch at h
  split at h
  next hd =>
    split at h
    · nomatch h
    · cases h; exact hd
  all_goals nomatch h

theorem engineStep_keepsLatch {s t : State} (set : s.fault = true)
    (other : ∀ rest, decodeCommand s.port ≠ .ok (.reset, rest)) (h : engineStep s = .next t) : s.KeepsLatch t := by
  unfold engineStep at h
  split at h
  next => cases h; exact presentBusy_keepsLatch _ set
  next =>
    split at h
    next => cases h; exact .refl set
    next info rest _ =>
      cases h
      exact accept_keepsLatch (raise_keepsLatch ((accept_fault rest s).trans set) _)
    next i rest fetched =>
      obtain ⟨u, hu, rfl⟩ := complete_eq_next h
      have ne : i ≠ .reset := by rintro rfl; exact other rest (fetch_command fetched)
      have kept := exec_keepsLatch ((accept_fault rest s).trans set) ne hu
      exact accept_keepsLatch (t := { u with busy := false }) kept

/-- No character is the tag of `RESET`. -/
theorem codecStep_keepsLatch {s t : State} (set : s.fault = true) (h : codecStep s = .next t) : s.KeepsLatch t := by
  unfold codecStep at h
  dsimp only at h
  split at h
  case h_7 =>
    split at h
    · cases h; exact .refl set
    · split at h
      · cases h; exact .refl set
      next i tag => exact exec_keepsLatch set (by rintro rfl; nomatch tagCode_of_decodeTag tag) h
  all_goals cases h; exact .refl set

theorem step_keepsLatch {s t : State} (set : s.fault = true) (pin : s.resetPin = false)
    (other : ∀ rest, decodeCommand s.port ≠ .ok (.reset, rest)) (h : step s = .next t) : s.KeepsLatch t := by
  rw [step, if_neg (by simp [pin])] at h
  split at h
  · exact engineStep_keepsLatch set other h
  · exact codecStep_keepsLatch set h

/-! A record under the codec's position (R413, R440). -/

theorem step_of_codec {s : State} (pin : s.resetPin = false) (turn : s.turn = .codec) : step s = codecStep s := by
  simp [step, pin, turn]

theorem codecStep_of_tag {s : State} {ch : Byte} {i : Instr} (records : s.codec.status = .records)
    (under : s.codec.text[s.codec.pos]? = some ch) (tag : decodeTag ch = some i) : codecStep s = exec i s := by
  simp only [codecStep, records, under, tag]

theorem codecStep_of_noTag {s : State} {ch : Byte} (records : s.codec.status = .records)
    (under : s.codec.text[s.codec.pos]? = some ch) (none : decodeTag ch = none) :
    codecStep s = .next { s with codec := codecFail s.codec (some ch) s.codec.pos } := by
  simp only [codecStep, records, under, none]

end Sys2Proof.Machine

namespace Sys2Proof.Proofs

open Sys2Proof.Machine

/-- Settles O21, by which side of `workSize` the index lies on. -/
theorem writeWork : Obligations.WriteWork := fun s index v clear =>
  ⟨⟨rfl, rfl⟩,
    fun inside => ⟨_, exec_wrw_inside v clear inside, rfl, readWork_writeWork_same s.eng index v,
      fun _ ne => readWork_writeWork_other s.eng v ne⟩,
    exec_wrw_outside v clear⟩

/-- Settles O15: each of the three is its command's result, by the flag that it looks at. -/
theorem playbackControl : Obligations.PlaybackControl := by
  intro s clear
  rw [exec_play clear, exec_pause clear, exec_live clear]
  refine ⟨fun playing => ?_, fun paused => ?_, fun disarmed => ?_, fun armed => ?_, rfl⟩
  · rw [play, if_pos playing]
  · rw [play, if_neg (by simp [paused])]
  · rw [pause, if_pos disarmed]
  · rw [pause, if_neg armed]

/-- Settles O19, by which side of 15 the number lies on. -/
theorem setResultRegister : Obligations.SetResultRegister := fun s _ v clear =>
  ⟨⟨rfl, rfl⟩,
    fun inside => ⟨_, exec_setr_inside v clear inside, rfl, setResult_result_same s v inside,
      fun _ => setResult_result_other s v⟩,
    exec_setr_outside v clear⟩

/-- Settles O22: `RDW` and `RDM` of space 0 return the response word of one element. -/
theorem readWork : Obligations.ReadWork := fun s index =>
  ⟨fun inside => ⟨(s.eng.readWork index).response, exec_rdw_inside s inside, exec_rdm_of_some (spaceWord_work inside),
      response_of_not_isNaN⟩,
    fun outside clear => (exec_rdw_outside s outside).trans (congrArg Host.Outcome.next (readCommand_error clear _))⟩

/-- Settles O5: the step looks the character up among the tags. -/
theorem stepReadsTag : Obligations.StepReadsTag := by
  intro s ch pin turn records under
  rw [step_of_codec pin turn]
  exact ⟨fun i => codecStep_of_tag records under, codecStep_of_noTag records under⟩

/-- Settles O8: the commands by `exec_of_fault`, each read by whether it has a value. -/
theorem faultIgnoresCommands : Obligations.FaultIgnoresCommands := by
  intro s set
  refine ⟨fun i op => exec_of_fault set, fun u => ⟨_, exec_cfgr u s⟩, fun u inside => ?rdr, fun u outside => ?noRdr,
    fun k inside => ⟨_, exec_rdw_inside s inside⟩, fun k outside => ?noRdw, fun u v w k unknown => ?noRdm,
    ⟨_, rfl, rfl, rfl, rfl⟩⟩
  case rdr =>
    obtain ⟨v, hv⟩ := exists_result_iff.mpr inside
    exact ⟨_, exec_rdr_of_result hv⟩
  case noRdr =>
    rw [exec_rdr, result_eq_none outside]
    exact congrArg Host.Outcome.next (readCommand_error_faulted set _)
  case noRdw => rw [exec_rdw_outside s outside, readCommand_error_faulted set]
  case noRdm =>
    show Host.Outcome.next (readCommand s (orRaise (s.spaceWord u v w k) _)) = _
    rw [spaceWord_of_unknown_space unknown]
    exact congrArg Host.Outcome.next (readCommand_error_faulted set _)

/-- Settles O9: by instruction, by step, for the illegal descriptor, and for the two registers that show the latch. -/
theorem faultKeepsFirst : Obligations.FaultKeepsFirst := by
  refine ⟨fun i s t set other => exec_keepsLatch set other, fun s t set pin other => step_keepsLatch set pin other,
    fun s h rest set pin turn idle port whole unknown => ?_, fun s =>
    ⟨⟨_, exec_cfgr 5 s, controlRead_faultCode_toNat s⟩, ⟨_, exec_cfgr 6 s, controlRead_faultInfo_toNat s⟩⟩⟩
  obtain ⟨e, he, hw, hi⟩ := checkHeader_error (.inl unknown)
  have fetched := fetch_illegal port whole he hw hi
  have stepped : step s = .next { raise ⟨.illegalCommand, headerInfo h⟩ (accept (rest.drop (headerCount h)) s) with
      busy := false } := by
    simp [step_of_engine pin turn, engineStep, idle, fetched, complete]
  have kept := accept_keepsLatch (raise_keepsLatch ((accept_fault (rest.drop (headerCount h)) s).trans set)
    ⟨.illegalCommand, headerInfo h⟩)
  refine ⟨_, stepped, kept, ?_⟩
  show (raise _ (accept _ s)).port = _
  rw [raise_port, accept_frame]

end Sys2Proof.Proofs
end

section
set_option Elab.async false
/-! SUPPORT. What a record of the codec does with a payload that reads as values: the setters of a record's own values, the
drum envelopes behind them, and the place that the record writes (`49_song_codec.md` R412, R413, R416, R427, R436, R440). -/

namespace Sys2Proof.Machine

/-! The phase and the version. -/

theorem onCodec_records {s : State} (records : s.codec.status = .records) (f : Codec → Codec) :
    onCodec s f = { s with codec := f s.codec } := if_pos records

/-- A tag's record in the records phase. -/
theorem exec_record {s : State} {op : Instr} {f : Codec → Codec} {k' : Codec} (records : s.codec.status = .records)
    (run : exec op s = .next (onCodec s f)) (becomes : f s.codec = k') :
    exec op s = .next { s with codec := k' } := by
  rw [run, onCodec_records records, becomes]

theorem beforeVersion_of_lt {k : Codec} {v : Nat} (h : k.version < v) : beforeVersion k v = true := decide_eq_true h

theorem not_beforeVersion {k : Codec} {v : Nat} (h : v ≤ k.version) : ¬ beforeVersion k v = true := by
  simpa [beforeVersion] using h

/-! Setters (R440). -/

theorem setEnum_inside {α : Type} {n v : Nat} (x : α) (f : Nat → α) (vs : List Nat) (h : v < n) :
    setEnum n x f (v :: vs) = .ok (f v) := if_pos h

theorem setEnum_outside {α : Type} {n v : Nat} (x : α) (f : Nat → α) (vs : List Nat) (h : n ≤ v) :
    setEnum n x f (v :: vs) = .error 0 := if_neg (Nat.not_lt.mpr h)

theorem envelopeIndices_legal {c : Cfg} {vs : List Nat} (h : ∀ e ∈ vs, e < c.envelopes.length) :
    envelopeIndices c vs = .ok vs := by
  have none : vs.findIdx? (fun v => decide (c.envelopes.length ≤ v)) = none :=
    List.findIdx?_eq_none_iff.mpr fun e he => decide_eq_false (Nat.not_le.mpr (h e he))
  rw [envelopeIndices, none]

/-- The control points that a list of values was written from. -/
theorem pointsOf_pointValues {l : List FilterPoint} (h : ∀ p ∈ l, p.kind < 3) : pointsOf (pointValues l) = .ok l := by
  induction l with
  | nil => rfl
  | cons p t ih =>
    have rest := ih fun q hq => h q (List.mem_cons_of_mem _ hq)
    show pointsOf (p.kind :: p.freq :: p.gain :: pointValues t) = _
    rw [pointsOf, if_pos (h p List.mem_cons_self), rest]
    rfl

/-- The control points, and `filterEnvelope` where the tag carries it. -/
theorem setFilter_values {c : Cfg} {version e : Nat} {ins : Instrument} {l : List FilterPoint}
    (kinds : ∀ p ∈ l, p.kind < 3) (inside : e < c.envelopes.length) :
    setFilter c version ins (pointValues l ++ if filterEnvelopePacked c version then [e] else []) =
      .ok { ins with
        filter := l
        filterEnvelope := if filterEnvelopePacked c version then e else ins.filterEnvelope } := by
  unfold setFilter
  split
  next packed =>
    rw [List.dropLast_concat, pointsOf_pointValues kinds, List.length_append, List.length_singleton,
      Nat.add_sub_cancel, List.drop_left]
    simp only [Except.bind, setEnum_inside _ _ _ inside, behind]
  next => rw [List.append_nil, pointsOf_pointValues kinds]; rfl

/-- The feedback amplitude, and the feedback envelope where the tag carries it (R436). -/
theorem setFeedback_values {c : Cfg} {version v e : Nat} {ins : Instrument} (inside : e < c.envelopes.length) :
    setFeedback c version ins (v :: if feedbackEnvelopePacked c version then [e] else []) =
      .ok { ins with
        feedbackAmplitude := v
        feedbackEnvelope := if feedbackEnvelopePacked c version then e else ins.feedbackEnvelope } := by
  unfold setFeedback
  simp only [setNumber, Except.bind]
  split
  · simp only [List.drop_succ_cons, List.drop_zero, setEnum_inside _ _ _ inside, behind]
  · rfl

/-! The operators (R436). -/

section
variable {f : Operator → Nat → Operator}

/-- The field that a row sets holds the row's values. -/
theorem setOperators_map_set {g : Operator → Nat} (set : ∀ o v, g (f o v) = v) {os : List Operator} {vs : List Nat}
    (count : vs.length = os.length) : (setOperators f os vs).map g = vs := by
  induction os generalizing vs with
  | nil =>
    obtain rfl := List.length_eq_zero_iff.mp count
    rfl
  | cons o os ih =>
    cases vs with
    | nil => cases count
    | cons v vs => simp only [setOperators, List.map_cons, set, ih (Nat.succ.inj count)]

/-- A row leaves every other field. -/
theorem setOperators_map_keep {g : Operator → Nat} (keep : ∀ o v, g (f o v) = g o) (os : List Operator)
    (vs : List Nat) : (setOperators f os vs).map g = os.map g := by
  induction os generalizing vs with
  | nil => cases vs <;> rfl
  | cons o os ih =>
    cases vs with
    | nil => rfl
    | cons v vs => simp only [setOperators, List.map_cons, keep, ih]

theorem setOperators_length (os : List Operator) (vs : List Nat) : (setOperators f os vs).length = os.length := by
  induction os generalizing vs with
  | nil => cases vs <;> rfl
  | cons o os ih =>
    cases vs with
    | nil => rfl
    | cons v vs => simp only [setOperators, List.length_cons, ih]

end

/-- The operators with the given envelopes. -/
def withEnvelopes (os : List Operator) (envs : List Nat) : List Operator :=
  setOperators (fun o v => { o with envelope := v }) os envs

theorem withEnvelopes_envelope {os : List Operator} {envs : List Nat} (count : envs.length = os.length) :
    (withEnvelopes os envs).map Operator.envelope = envs := setOperators_map_set (fun _ _ => rfl) count

theorem withEnvelopes_amplitude (os : List Operator) (envs : List Nat) :
    (withEnvelopes os envs).map Operator.amplitude = os.map Operator.amplitude :=
  setOperators_map_keep (f := fun o v => { o with envelope := v }) (fun _ _ => rfl) os envs

theorem withEnvelopes_frequency (os : List Operator) (envs : List Nat) :
    (withEnvelopes os envs).map Operator.frequency = os.map Operator.frequency :=
  setOperators_map_keep (f := fun o v => { o with envelope := v }) (fun _ _ => rfl) os envs

theorem setOperatorEnvelopes_legal {c : Cfg} {ins : Instrument} {envs : List Nat}
    (inside : ∀ e ∈ envs, e < c.envelopes.length) :
    setOperatorEnvelopes c ins envs = .ok { ins with operators := withEnvelopes ins.operators envs } := by
  rw [setOperatorEnvelopes, envelopeIndices_legal inside]
  rfl

/-- The operators that a row of own values leaves, and where it is carried a row of envelopes behind it. -/
def rowOperators (carried : Prop) [Decidable carried] (f : Operator → Nat → Operator) (os : List Operator)
    (own envs : List Nat) : List Operator :=
  if carried then withEnvelopes (setOperators f os own) envs else setOperators f os own

section
variable {carried : Prop} [Decidable carried] {f : Operator → Nat → Operator} {g : Operator → Nat} {os : List Operator}
  {own envs : List Nat}

/-- An envelope row leaves a field that it does not set. -/
theorem rowOperators_map (keep : ∀ (o : Operator) v, g { o with envelope := v } = g o) :
    (rowOperators carried f os own envs).map g = (setOperators f os own).map g := by
  unfold rowOperators withEnvelopes
  split
  · exact setOperators_map_keep keep _ _
  · rfl

theorem rowOperators_envelope (keep : ∀ o v, (f o v).envelope = o.envelope) (count : envs.length = os.length) :
    (rowOperators carried f os own envs).map Operator.envelope =
      if carried then envs else os.map Operator.envelope := by
  unfold rowOperators
  split
  · exact withEnvelopes_envelope (count.trans (setOperators_length os own).symm)
  · exact setOperators_map_keep keep os own

end

/-- A row of own values, and a row of envelopes where the tag carries those. -/
theorem setOperatorRow_values {c : Cfg} {version : Nat} {tag : Byte} {f : Operator → Nat → Operator} {ins : Instrument}
    {own envs : List Nat} (count : own.length = operatorCount) (inside : ∀ e ∈ envs, e < c.envelopes.length) :
    setOperatorRow c version tag f ins (own ++ if operatorEnvelopeTag c version = some tag then envs else []) =
      .ok { ins with
        operators := rowOperators (operatorEnvelopeTag c version = some tag) f ins.operators own envs } := by
  unfold setOperatorRow rowOperators
  split
  · rw [← count, List.take_left, List.drop_left]
    exact congrArg (behind own.length) (setOperatorEnvelopes_legal inside)
  · rw [List.append_nil, List.take_of_length_le (Nat.le_of_eq count)]

/-! The drum envelopes behind a record's own values (R427). -/

/-- The payload of a record reads as its own values and behind them the drum envelopes that it carries. -/
def Codec.Carries (c : Cfg) (k : Codec) (tag : Byte) (own ds : List Nat) (next : Nat) : Prop :=
  payload c k tag = .ok (own ++ ds, next) ∧
    ds.length = if carriesDrums c (shapeContext k) tag then drumCount else 0

section
variable {c : Cfg} {drums : Bool} {f : Instrument → List Nat → Except Nat Instrument} {ins j : Instrument}
  {own ds : List Nat} {n : Nat}

theorem withDrums_ok (count : ds.length = if drums then drumCount else 0) (legal : ∀ e ∈ ds, e < c.envelopes.length)
    (set : f ins own = .ok j) :
    withDrums c drums f ins (own ++ ds) = .ok (if drums then { j with drumEnvelopes := ds } else j) := by
  cases drums with
  | true =>
    have twelve : ds.length = drumCount := count
    have start : (own ++ ds).length - drumCount = own.length := by rw [List.length_append, twelve, Nat.add_sub_cancel]
    simp only [withDrums, if_true, start, List.take_left, List.drop_left, set, Except.bind, setDrums, twelve,
      envelopeIndices_legal legal, Except.map, behind]
  | false =>
    obtain rfl := List.length_eq_zero_iff.mp count
    simpa only [withDrums, List.append_nil, Bool.false_eq_true, if_false] using set

theorem withDrums_error (count : ds.length = if drums then drumCount else 0) (fails : f ins own = .error n) :
    withDrums c drums f ins (own ++ ds) = .error n := by
  cases drums with
  | true =>
    have twelve : ds.length = drumCount := count
    have start : (own ++ ds).length - drumCount = own.length := by rw [List.length_append, twelve, Nat.add_sub_cancel]
    simp only [withDrums, if_true, start, List.take_left, fails, Except.bind]
  | false =>
    obtain rfl := List.length_eq_zero_iff.mp count
    simpa only [withDrums, List.append_nil, Bool.false_eq_true, if_false] using fails

end

/-! A record of the instrument at the cursor (R416). -/

/-- The cursor of a codec from version 3 on stands on an instrument. -/
structure Codec.AtInstrument (k : Codec) (at' : Nat × Nat) (ins : Instrument) : Prop where
  modern : 3 ≤ k.version
  cursor : k.cursor = some at'
  found : codecInstrument k at' = some ins

section
variable {c : Cfg} {k : Codec} {tag : Byte} {f : Instrument → List Nat → Except Nat Instrument}
  {note : Nat × Nat → List Nat → List LegacyFilter → List LegacyFilter} {at' : Nat × Nat} {ins j : Instrument}
  {own ds : List Nat} {next n : Nat}

theorem Codec.AtInstrument.recordPlace_eq (here : k.AtInstrument at' ins) (vs : List Nat) :
    recordPlace k vs = some (at', vs) := by
  simp only [recordPlace, if_neg (not_beforeVersion here.modern), here.cursor, Option.map_some]

theorem placedTag_stores (here : k.AtInstrument at' ins) (has : k.Carries c tag own ds next)
    (legal : ∀ e ∈ ds, e < c.envelopes.length) (set : f ins own = .ok j) :
    placedTag c tag f note k = { k with
      song := modifyInstrument k.song at'
        (fun _ => if carriesDrums c (shapeContext k) tag then { j with drumEnvelopes := ds } else j)
      legacy := note at' (own ++ ds) k.legacy
      pos := next } := by
  obtain ⟨read, count⟩ := has
  simp only [placedTag, read, here.recordPlace_eq, here.found, withDrums_ok count legal set]

theorem placedTag_refuses (here : k.AtInstrument at' ins) (has : k.Carries c tag own ds next)
    (fails : f ins own = .error n) :
    placedTag c tag f note k = codecFail k (some tag) (fieldPosition c k tag n) := by
  obtain ⟨read, count⟩ := has
  simp only [placedTag, read, here.recordPlace_eq, here.found, withDrums_error count fails, Nat.sub_self, Nat.zero_add]

end

/-! The records of a state's codec. -/

/-- A codec in the records phase, its cursor on an instrument, and the drum envelopes of a record, inside their table. -/
structure State.OnInstrument (s : State) (at' : Nat × Nat) (ins : Instrument) (ds : List Nat) : Prop where
  records : s.codec.status = .records
  place : s.codec.AtInstrument at' ins
  legal : ∀ e ∈ ds, e < Config.cfg.envelopes.length

/-- Where the record of `tag` has these values, `op` leaves the instrument `j`, with its drum envelopes, and the legacy
filters `l`, behind the payload. -/
def State.Puts (s : State) (at' : Nat × Nat) (ds : List Nat) (next : Nat) (op : Instr) (tag : Byte) (own : List Nat)
    (j : Instrument) (l : List LegacyFilter) : Prop :=
  s.codec.Carries Config.cfg tag own ds next → exec op s = .next { s with codec := { s.codec with
    song := modifyInstrument s.codec.song at'
      (fun _ => if carriesDrums Config.cfg (shapeContext s.codec) tag then { j with drumEnvelopes := ds } else j)
    legacy := l
    pos := next } }

/-- Where the record of `tag` has these values, `op` fails at the record's field `n`. -/
def State.Rejects (s : State) (ds : List Nat) (next : Nat) (op : Instr) (tag : Byte) (own : List Nat) (n : Nat) : Prop :=
  s.codec.Carries Config.cfg tag own ds next → exec op s = .next { s with codec := { s.codec with
    status := .failed (some tag) (fieldPosition Config.cfg s.codec tag n) } }

section
variable {s : State} {at' : Nat × Nat} {ins j : Instrument} {ds own : List Nat} {next n v : Nat} {op : Instr} {tag : Byte}
  {F : Codec → Codec} {f : Instrument → List Nat → Except Nat Instrument} {vs : List Nat}

theorem State.OnInstrument.puts (h : s.OnInstrument at' ins ds) (own : List Nat) (run : exec op s = .next (onCodec s F))
    (record : F s.codec = instrumentTag Config.cfg tag f s.codec) (set : f ins own = .ok j) :
    s.Puts at' ds next op tag own j s.codec.legacy := fun has =>
  exec_record h.records run (record.trans (placedTag_stores h.place has h.legal set))

/-- A record that the translator of legacy filters is told of (R430). -/
theorem State.OnInstrument.tells {told : Nat → LegacyFilter → LegacyFilter} (h : s.OnInstrument at' ins ds)
    (v : Nat) (vs : List Nat) (run : exec op s = .next (onCodec s F))
    (record : F s.codec = legacyTag Config.cfg tag f told s.codec)
    (set : f ins (v :: vs) = .ok j) :
    s.Puts at' ds next op tag (v :: vs) j (legacyEntry s.codec.legacy at' (told v)) := fun has =>
  exec_record h.records run (record.trans (placedTag_stores h.place has h.legal set))

theorem State.OnInstrument.rejects (h : s.OnInstrument at' ins ds) (run : exec op s = .next (onCodec s F))
    (record : F s.codec = instrumentTag Config.cfg tag f s.codec) (fails : f ins own = .error n) :
    s.Rejects ds next op tag own n := fun has =>
  exec_record h.records run (record.trans (placedTag_refuses h.place has fails))

/-- A record whose first value is an index into a table of `n` entries. -/
theorem State.OnInstrument.index (h : s.OnInstrument at' ins ds) (g : Nat → Instrument) (run : exec op s = .next (onCodec s F))
    (record : F s.codec = instrumentTag Config.cfg tag f s.codec) (set : f ins = setEnum n ins g) :
    (v < n → s.Puts at' ds next op tag (v :: vs) (g v) s.codec.legacy) ∧
      (n ≤ v → s.Rejects ds next op tag (v :: vs) 0) :=
  ⟨fun inside => h.puts _ run record ((congrFun set _).trans (setEnum_inside ins g vs inside)),
    fun outside => h.rejects run record ((congrFun set _).trans (setEnum_outside ins g vs outside))⟩

end

end Sys2Proof.Machine

namespace Sys2Proof.Proofs

open Sys2Proof.Machine

/-- Settles O58: each record is one of the instrument at the cursor, by the setter that its tag and its version name. -/
theorem instrumentTags : Obligations.InstrumentTags := by
  intro s at' ins v vs ds next records modern cursor found legal
  have h : s.OnInstrument at' ins ds := ⟨records, ⟨modern, cursor, found⟩, legal⟩
  refine ⟨h.index (fun v => { ins with vibrato := v }) rfl rfl rfl, h.index (fun v => { ins with transition := v }) rfl rfl rfl,
    h.index (fun v => { ins with interval := v }) rfl rfl rfl, h.index (fun v => { ins with preset := v }) rfl rfl rfl,
    h.index (fun v => { ins with algorithm := v }) rfl rfl rfl, h.index (fun v => { ins with chord := v }) rfl rfl rfl,
    h.index (fun v => { ins with feedbackType := v }) rfl rfl rfl, fun old => ?oldFeedbackEnvelope,
    fun new => ?newFeedbackEnvelope, fun noise => ?noiseWave, fun other => ?chipWave, h.puts (v :: vs) rfl rfl rfl, h.puts (v :: vs) rfl rfl rfl,
    h.puts (v :: vs) rfl rfl rfl, h.puts (v :: vs) rfl rfl rfl, fun new => ?reverb, fun new => ?effects,
    fun old => ?oldEffects, fun new => ?newFilterEnvelope, fun old inside => ?oldFilterEnvelope, fun new => ?newResonance,
    fun old => ?oldResonance⟩
  case oldFeedbackEnvelope =>
    exact h.index (fun v => { ins with feedbackEnvelope := v }) rfl rfl (if_pos (beforeVersion_of_lt old))
  case newFeedbackEnvelope => exact h.puts (v :: vs) rfl rfl (congrFun (if_neg (not_beforeVersion new)) _)
  case noiseWave => exact h.index (fun v => { ins with noiseWave := v }) rfl rfl (if_pos noise)
  case chipWave => exact h.index (fun v => { ins with chipWave := v }) rfl rfl (if_neg other)
  case reverb | effects | newResonance => exact h.puts (v :: vs) rfl (if_neg (not_beforeVersion new)) rfl
  case oldEffects =>
    exact h.index (fun v => { ins with effects := Config.cfg.codec.legacyEffects.getD v 0 }) rfl
      (if_pos (beforeVersion_of_lt old)) rfl
  case newFilterEnvelope =>
    exact h.index (fun v => { ins with filterEnvelope := v }) rfl (if_neg (not_beforeVersion new)) rfl
  case oldFilterEnvelope =>
    exact h.tells (told := fun v l => { l with envelope := some v }) v vs rfl (if_pos (beforeVersion_of_lt old))
      (setEnum_inside _ _ _ inside)
  case oldResonance =>
    exact h.tells (told := fun v l => { l with resonance := some v }) v vs rfl (if_pos (beforeVersion_of_lt old)) rfl

/-- Settles O59: the records of `instrumentTags` again, by the setters of several values; the operators of `P`, `Q` and `E`
are the rows that `setOperators` leaves. -/
theorem compoundTags : Obligations.CompoundTags := by
  intro s at' ins ds next records modern cursor found legal four
  have h : s.OnInstrument at' ins ds := ⟨records, ⟨modern, cursor, found⟩, legal⟩
  refine ⟨fun l e kinds => ⟨fun new inside => ?filter, ?distortionFilter⟩, fun old v vs => ?cutoff,
    fun v w => ⟨h.puts [v, w] rfl rfl rfl, fun inside => ⟨?feedback, ?pulse⟩, fun outside => ?noPulse⟩,
    fun own envs ownCount envCount inside => ?operators⟩
  case filter => exact h.puts _ rfl (if_neg (not_beforeVersion new)) (setFilter_values kinds inside)
  case distortionFilter =>
    exact h.puts _ rfl rfl (congrArg (Except.map fun l => { ins with distortionFilter := l }) (pointsOf_pointValues kinds))
  case cutoff => exact h.tells (told := fun v l => { l with cutoff := some v }) v vs rfl (if_pos (beforeVersion_of_lt old)) rfl
  case feedback => exact h.puts _ rfl rfl (setFeedback_values inside)
  case pulse => exact h.puts [v, w] rfl rfl (congrArg (behind 1) (setEnum_inside _ _ _ inside))
  case noPulse => exact h.rejects rfl rfl (congrArg (behind 1) (setEnum_outside _ _ _ outside))
  case operators =>
    have ownAll : own.length = ins.operators.length := ownCount.trans four.symm
    have envAll : envs.length = ins.operators.length := envCount.trans four.symm
    refine ⟨_, _, withEnvelopes ins.operators envs, h.puts _ rfl rfl (setOperatorRow_values ownCount inside),
      h.puts _ rfl rfl (setOperatorRow_values ownCount inside),
      fun more => ⟨fun old => h.puts _ rfl rfl ?envelopes, fun new => h.puts _ rfl rfl (if_neg (not_beforeVersion new))⟩,
      (rowOperators_map fun _ _ => rfl).trans (setOperators_map_set (fun _ _ => rfl) ownAll),
      rowOperators_envelope (fun _ _ => rfl) envAll,
      (rowOperators_map fun _ _ => rfl).trans
        (setOperators_map_keep (f := fun o v => { o with amplitude := v }) (fun _ _ => rfl) _ _),
      (rowOperators_map fun _ _ => rfl).trans (setOperators_map_set (fun _ _ => rfl) ownAll),
      rowOperators_envelope (fun _ _ => rfl) envAll,
      (rowOperators_map fun _ _ => rfl).trans
        (setOperators_map_keep (f := fun o v => { o with frequency := v }) (fun _ _ => rfl) _ _),
      withEnvelopes_envelope envAll, withEnvelopes_amplitude _ _, withEnvelopes_frequency _ _⟩
    refine (if_pos (beforeVersion_of_lt old)).trans ?_
    rw [← envCount, List.take_left]
    exact setOperatorEnvelopes_legal inside

end Sys2Proof.Proofs
end

section
set_option Elab.async false
/-! SUPPORT. The bit codec reads what it writes: fields, packing, the long-tail code, the pitch interval, and the symbols
under a record (`48_bit_codec.md` R391 to R396, R399, `49_song_codec.md` R413, R418). -/

namespace Sys2Proof.Machine

/-! Fixed-width fields (R393, R394). -/

@[simp] theorem writeBits_length (k v : Nat) : (writeBits k v).length = k := by
  induction k with
  | zero => rfl
  | succ k ih => rw [writeBits, List.length_cons, ih]

/-- The bits of a number behind those that are read. -/
theorem readBitsFrom_writeBits (k acc v : Nat) (rest : List Bool) :
    readBitsFrom acc k (writeBits k v ++ rest) = .ok (acc * 2 ^ k + v % 2 ^ k, rest) := by
  induction k generalizing acc with
  | zero => simp [readBitsFrom, writeBits, Nat.mod_one]
  | succ k ih =>
    have bit : (decide (v / 2 ^ k % 2 = 1)).toNat = v / 2 ^ k % 2 := by
      rcases Nat.mod_two_eq_zero_or_one (v / 2 ^ k) with h | h <;> simp [h]
    rw [writeBits, List.cons_append, readBitsFrom, ih, bit, Nat.pow_succ, Nat.mod_mul]
    congr 2
    ring

theorem readBits_writeBits {k v : Nat} (fits : v < 2 ^ k) (rest : List Bool) :
    readBits k (writeBits k v ++ rest) = .ok (v, rest) := by
  rw [readBits, if_neg (by rw [List.length_append, writeBits_length]; omega), readBitsFrom_writeBits, Nat.zero_mul,
    Nat.zero_add, Nat.mod_eq_of_lt fits]

/-- One bit is a field of width 1. -/
theorem readBits_one (b : Bool) (rest : List Bool) : readBits 1 (b :: rest) = .ok (b.toNat, rest) := by
  simp [readBits, readBitsFrom]

/-- A field holds the low bits of its number. -/
theorem writeBits_add_mul (k w v : Nat) : writeBits k (w * 2 ^ k + v) = writeBits k v := by
  induction k generalizing w with
  | zero => rfl
  | succ k ih =>
    have shifted : w * 2 ^ (k + 1) = w * 2 * 2 ^ k := by rw [Nat.pow_succ]; ring
    have high : (w * 2 * 2 ^ k + v) / 2 ^ k = w * 2 + v / 2 ^ k := by
      rw [Nat.mul_comm, Nat.mul_add_div (Nat.two_pow_pos k)]
    rw [writeBits, writeBits, shifted, ih, high, Nat.mul_add_mod_self_right]

/-- Every list of bits is the field of a number. -/
theorem exists_writeBits (bits : List Bool) : ∃ v, v < 2 ^ bits.length ∧ writeBits bits.length v = bits := by
  induction bits with
  | nil => exact ⟨0, by simp, rfl⟩
  | cons b t ih =>
    obtain ⟨v, small, hv⟩ := ih
    refine ⟨b.toNat * 2 ^ t.length + v, ?_, ?_⟩
    · rw [List.length_cons, Nat.pow_succ]
      cases b <;> simp <;> omega
    · rw [List.length_cons, writeBits, writeBits_add_mul, hv, Nat.mul_comm,
        Nat.mul_add_div (Nat.two_pow_pos _), Nat.div_eq_of_lt small]
      cases b <;> rfl

/-! Lists of fields (R420, R426, R427). -/

theorem flatMap_writeBits_length (k : Nat) (l : List Nat) : (l.flatMap (writeBits k)).length = k * l.length := by
  induction l with
  | nil => rfl
  | cons v t ih => rw [List.flatMap_cons, List.length_append, writeBits_length, ih, List.length_cons]; ring

theorem readFields_written {k : Nat} {l : List Nat} (fits : ∀ v ∈ l, v < 2 ^ k) (rest : List Bool) :
    readFields k l.length (l.flatMap (writeBits k) ++ rest) = .ok (l, rest) := by
  induction l with
  | nil => rfl
  | cons v t ih =>
    rw [List.length_cons, List.flatMap_cons, List.append_assoc, readFields, readBits_writeBits (fits v List.mem_cons_self)]
    simp only [ih fun w hw => fits w (List.mem_cons_of_mem _ hw), Except.map]

/-- Every list of `k × n` bits is a list of `n` fields. -/
theorem exists_fields (k n : Nat) (bits : List Bool) (long : bits.length = k * n) :
    ∃ l : List Nat, l.length = n ∧ (∀ v ∈ l, v < 2 ^ k) ∧ l.flatMap (writeBits k) = bits := by
  induction n generalizing bits with
  | zero => exact ⟨[], rfl, by simp, (List.length_eq_zero_iff.mp long).symm⟩
  | succ n ih =>
    rw [Nat.mul_succ] at long
    obtain ⟨v, small, hv⟩ := exists_writeBits (bits.take k)
    obtain ⟨l, count, fits, hl⟩ := ih (bits.drop k) (by rw [List.length_drop]; omega)
    rw [List.length_take, Nat.min_eq_left (by omega)] at small hv
    exact ⟨v :: l, congrArg (· + 1) count, List.forall_mem_cons.mpr ⟨small, fits⟩,
      by rw [List.flatMap_cons, hv, hl, List.take_append_drop]⟩

/-- What a list of fields reads as: numbers of the width, written with the bits that were read. -/
theorem readFields_of_le {k n : Nat} {bits : List Bool} (enough : k * n ≤ bits.length) :
    ∃ l : List Nat, l.length = n ∧ (∀ v ∈ l, v < 2 ^ k) ∧ l.flatMap (writeBits k) = bits.take (k * n) ∧
      readFields k n bits = .ok (l, bits.drop (k * n)) := by
  obtain ⟨l, rfl, fits, hl⟩ := exists_fields k n (bits.take (k * n)) (List.length_take_of_le enough)
  refine ⟨l, rfl, fits, hl, ?_⟩
  conv_lhs => rw [← List.take_append_drop (k * l.length) bits, ← hl]
  exact readFields_written fits _

/-! Packing (R392, R418). -/

theorem valueBits_length (l : List Nat) : (valueBits l).length = 6 * l.length := flatMap_writeBits_length 6 l

/-- The symbols of a packed list of bits, whose bits are the list's and the zeros that fill the last symbol. -/
theorem packBits_symbols (fuel : Nat) (bits : List Bool) (enough : bits.length ≤ fuel) :
    ∃ (l : List Nat) (pad : Nat), (∀ x ∈ l, x < 64) ∧ packBits fuel bits = l.map symbolOf ∧ pad < 6 ∧
      valueBits l = bits ++ List.replicate pad false := by
  induction fuel generalizing bits with
  | zero =>
    obtain rfl := List.length_eq_zero_iff.mp (Nat.le_zero.mp enough)
    exact ⟨[], 0, by simp, rfl, by decide, rfl⟩
  | succ fuel ih =>
    cases bits with
    | nil => exact ⟨[], 0, by simp, rfl, by decide, rfl⟩
    | cons b t =>
      obtain ⟨l, pad, symbols, packed, short, hl⟩ := ih ((b :: t).drop 6)
        (by rw [List.length_drop]; rw [List.length_cons] at enough ⊢; omega)
      obtain ⟨x, small, hx⟩ := exists_writeBits ((b :: t).take 6 ++ List.replicate (6 - (b :: t).length) false)
      have six : ((b :: t).take 6 ++ List.replicate (6 - (b :: t).length) false).length = 6 := by
        rw [List.length_append, List.length_take, List.length_replicate]; omega
      rw [six] at small hx
      have read : readBitsFrom 0 6 (writeBits 6 x) = .ok (x, []) := by
        have := readBitsFrom_writeBits 6 0 x []
        rwa [List.append_nil, Nat.zero_mul, Nat.zero_add, Nat.mod_eq_of_lt small] at this
      refine ⟨x :: l, (6 - (b :: t).length) + pad, List.forall_mem_cons.mpr ⟨small, symbols⟩, ?_, ?_, ?_⟩
      · simp only [packBits]
        rw [← hx, read]
        simp only [packed, List.map_cons]
      · rcases Nat.lt_or_ge (b :: t).length 6 with less | more
        · have nothing : (b :: t).drop 6 = [] := List.drop_eq_nil_of_le (Nat.le_of_lt less)
          have sum := congrArg List.length hl
          rw [nothing, valueBits_length] at sum
          simp only [List.nil_append, List.length_replicate] at sum
          rw [List.length_cons] at less ⊢
          omega
        · omega
      · rw [valueBits, List.flatMap_cons, hx, ← valueBits, hl]
        rcases Nat.lt_or_ge (b :: t).length 6 with less | more
        · rw [List.drop_eq_nil_of_le (Nat.le_of_lt less), List.take_of_length_le (Nat.le_of_lt less), List.nil_append,
            List.append_assoc, List.replicate_append_replicate]
        · rw [Nat.sub_eq_zero_of_le more, List.replicate_zero, List.append_nil, ← List.append_assoc,
            List.take_append_drop, Nat.zero_add]

theorem encodeBase64_symbols (bits : List Bool) :
    ∃ (l : List Nat) (pad : Nat), (∀ x ∈ l, x < 64) ∧ encodeBase64 bits = l.map symbolOf ∧ pad < 6 ∧
      valueBits l = bits ++ List.replicate pad false := packBits_symbols _ bits (Nat.le_refl _)

theorem mapM_symbolValue {l : List Nat} (h : ∀ x ∈ l, x < 64) : (l.map symbolOf).mapM symbolValue = some l := by
  induction l with
  | nil => rfl
  | cons x t ih =>
    rw [List.map_cons, List.mapM_cons, symbolValue_symbolOf x (h x List.mem_cons_self),
      ih fun y hy => h y (List.mem_cons_of_mem _ hy)]
    rfl

/-- The round trip of the packing, up to the zeros that fill its last symbol. -/
theorem decodeBase64_encodeBase64 (bits : List Bool) : ∃ pad, pad < 6 ∧ (bits.length + pad) % 6 = 0 ∧
    (encodeBase64 bits).length = (bits.length + pad) / 6 ∧
    decodeBase64 (encodeBase64 bits) = some (bits ++ List.replicate pad false) := by
  obtain ⟨l, pad, symbols, encoded, short, hl⟩ := encodeBase64_symbols bits
  have sum := congrArg List.length hl
  rw [valueBits_length, List.length_append, List.length_replicate] at sum
  refine ⟨pad, short, by omega, ?_, ?_⟩
  · rw [encoded, List.length_map]; omega
  · rw [decodeBase64, encoded, mapM_symbolValue symbols, Option.map_some, hl]

/-! The long-tail code (R395, R396). -/

theorem readLongTailFrom_written {fuel w acc r : Nat} (enough : r < fuel) (rest : List Bool) :
    readLongTailFrom w acc (longTailFrom fuel w r ++ rest) = .ok (acc + r, rest) := by
  induction fuel generalizing w acc r with
  | zero => omega
  | succ fuel ih =>
    have pos := Nat.two_pow_pos w
    rw [longTailFrom]
    split
    · rw [List.cons_append, readLongTailFrom, ih (by omega)]
      congr 2
      omega
    next small =>
      rw [List.cons_append, readLongTailFrom, readBits_writeBits (Nat.lt_of_not_le small)]
      rfl

theorem writeLongTail_below {m b v : Nat} (h : v < m) : writeLongTail m b v = none := if_pos h

theorem writeLongTail_reads {m b v : Nat} (h : m ≤ v) : ∃ bits, writeLongTail m b v = some bits ∧
    ∀ rest, readLongTail m b (bits ++ rest) = .ok (v, rest) :=
  ⟨_, if_neg (Nat.not_lt.mpr h), fun rest => by
    rw [readLongTail, readLongTailFrom_written (Nat.lt_succ_self _), Nat.add_sub_cancel' h]⟩

/-! The signed pitch interval (R399). -/

theorem writePitchInterval_zero (k : CodecCfg) : writePitchInterval k 0 = none := rfl

theorem writePitchInterval_reads (k : CodecCfg) {d : Int} (h : d ≠ 0) : ∃ bits, writePitchInterval k d = some bits ∧
    ∀ rest, readPitchInterval k (bits ++ rest) = .ok (d, rest) := by
  have least : intervalMin k ≤ d.natAbs := (Nat.min_le_left 1 _).trans (Int.natAbs_pos.mpr h)
  obtain ⟨bits, written, reads⟩ := writeLongTail_reads (b := 3) least
  refine ⟨_, by rw [writePitchInterval, if_neg h, written, Option.map_some], fun rest => ?_⟩
  have signed : (if (decide (d < 0) == k.pitchIntervalSignNegative) = k.pitchIntervalSignNegative then -(d.natAbs : Int)
      else d.natAbs) = d := by
    rcases Int.lt_or_gt_of_ne h with below | above
    · cases k.pitchIntervalSignNegative <;> simp [below, abs_of_neg below]
    · cases k.pitchIntervalSignNegative <;> simp [Int.not_lt.mpr (Int.le_of_lt above), abs_of_pos above]
  simp only [List.cons_append, readPitchInterval, reads, Except.map, signed]

/-! Symbols under a record (R413). -/

/-- The value that a mapped reader read. -/
theorem exists_of_map_ok {ε α β : Type} {r : Except ε α} {g : α → β} {b : β} (h : r.map g = .ok b) :
    ∃ a, r = .ok a ∧ b = g a := by
  cases r with
  | ok a => cases h; exact ⟨a, rfl, rfl⟩
  | error e => nomatch h

theorem symbolsAt_length {text : List Byte} {pos n : Nat} {l : List Nat} (h : symbolsAt text pos n = .ok l) :
    l.length = n := by
  induction n generalizing pos l with
  | zero => cases h; rfl
  | succ n ih =>
    simp only [symbolsAt] at h
    split at h
    · nomatch h
    · split at h
      · nomatch h
      · obtain ⟨t, ht, rfl⟩ := exists_of_map_ok h
        rw [List.length_cons, ih ht]

/-- Symbols that are there lie inside the text. -/
theorem symbolsAt_inside {text : List Byte} {pos n : Nat} {l : List Nat} (h : symbolsAt text pos n = .ok l)
    (some : 0 < n) : pos + n ≤ text.length := by
  induction n generalizing pos l with
  | zero => omega
  | succ n ih =>
    simp only [symbolsAt] at h
    split at h
    · nomatch h
    next ch under =>
      have inside := (List.getElem?_eq_some_iff.mp under).1
      split at h
      · nomatch h
      · obtain ⟨t, ht, -⟩ := exists_of_map_ok h
        rcases Nat.eq_zero_or_pos n with rfl | more
        · omega
        · have := ih ht more; omega

/-! Lists in lists (R426, R427). -/

theorem chunks_length (size n : Nat) (l : List Nat) : (chunks size n l).length = n := by
  induction n generalizing l with
  | zero => rfl
  | succ n ih => rw [chunks, List.length_cons, ih]

theorem chunks_get {size n i : Nat} (l : List Nat) (h : i < n) :
    (chunks size n l)[i]? = some ((l.drop (i * size)).take size) := by
  induction n generalizing l i with
  | zero => omega
  | succ n ih =>
    cases i with
    | zero => simp [chunks]
    | succ i =>
      rw [chunks, List.getElem?_cons_succ, ih (l.drop size) (by omega), List.drop_drop, Nat.succ_mul, Nat.add_comm]

/-- A list of `n × size` values cut and put together again. -/
theorem chunks_flatten {size n : Nat} {l : List Nat} (long : l.length = n * size) :
    (chunks size n l).flatten = l ∧ ∀ w ∈ chunks size n l, w.length = size := by
  induction n generalizing l with
  | zero =>
    obtain rfl := List.length_eq_zero_iff.mp (long.trans (Nat.zero_mul size))
    exact ⟨rfl, by simp [chunks]⟩
  | succ n ih =>
    rw [Nat.succ_mul] at long
    obtain ⟨flat, sizes⟩ := ih (l := l.drop size) (by rw [List.length_drop]; omega)
    exact ⟨by rw [chunks, List.flatten_cons, flat, List.take_append_drop],
      List.forall_mem_cons.mpr ⟨List.length_take_of_le (by omega), sizes⟩⟩

/-- Lists of one size put together and cut again. -/
theorem chunks_of_flatten {size : Nat} {ls : List (List Nat)} (sizes : ∀ w ∈ ls, w.length = size) :
    chunks size ls.length ls.flatten = ls := by
  induction ls with
  | nil => rfl
  | cons w t ih =>
    have hw := sizes w List.mem_cons_self
    rw [List.length_cons, chunks, List.flatten_cons, ← hw, List.take_left, List.drop_left, hw,
      ih fun v hv => sizes v (List.mem_cons_of_mem _ hv)]

end Sys2Proof.Machine
end

section
set_option Elab.async false
/-! SUPPORT. Which operation of the codec each tag runs, the records that carry bits, and what a malformed bit-stream answers
(`49_song_codec.md` R412, R416, R418 to R421, R426, R427, R440). -/

namespace Sys2Proof.Machine

/-! Tags by their operation. -/

/-- The tags whose payload is not a list of values alone, and `T`. -/
def unshapedTags : List Byte := [0x62#8, 0x70#8, 0x48#8, 0x53#8, 0x54#8]

/-- The tags of an instrument that every version reads in the same way. -/
def steadyTags : List Byte :=
  [0x76#8, 0x75#8, 0x47#8, 0x64#8, 0x43#8, 0x63#8, 0x68#8, 0x77#8, 0x41#8, 0x42#8, 0x46#8, 0x50#8, 0x51#8, 0x45#8, 0x56#8,
    0x44#8, 0x52#8, 0x4C#8, 0x55#8, 0x57#8]

/-- The tags of an instrument that an older version read in another way, `m` aside. -/
def versionedTags : List Byte := [0x71#8, 0x66#8, 0x7A#8, 0x79#8]

/-- The record is one of the instrument at the cursor. -/
def State.RunsPlaced (s : State) (op : Instr) (tag : Byte) : Prop :=
  ∃ f note, exec op s = .next { s with codec := placedTag Config.cfg tag f note s.codec }

/-- The record is one of the song. -/
def State.RunsSong (s : State) (op : Instr) (tag : Byte) : Prop :=
  ∃ f, exec op s = .next { s with codec := songTag Config.cfg tag f s.codec }

section
variable {s : State} {op : Instr} {tag : Byte} {F : Codec → Codec}

theorem runsPlaced {f : Instrument → List Nat → Except Nat Instrument} (records : s.codec.status = .records)
    (run : exec op s = .next (onCodec s F)) (record : F s.codec = instrumentTag Config.cfg tag f s.codec) :
    s.RunsPlaced op tag := ⟨f, _, exec_record records run record⟩

/-- A record that the translator of legacy filters is told of (R430). -/
theorem runsPlaced_of_legacy {f : Instrument → List Nat → Except Nat Instrument} {told : Nat → LegacyFilter → LegacyFilter}
    (records : s.codec.status = .records) (run : exec op s = .next (onCodec s F))
    (record : F s.codec = legacyTag Config.cfg tag f told s.codec) :
    s.RunsPlaced op tag := ⟨f, _, exec_record records run record⟩

theorem runsSong {f : Song → List Nat → Except Nat Song} (records : s.codec.status = .records)
    (run : exec op s = .next (onCodec s F)) (record : F s.codec = songTag Config.cfg tag f s.codec) :
    s.RunsSong op tag := ⟨f, exec_record records run record⟩

end

/-- A tag's instruction is the one that its character decodes to. -/
theorem decodeTag_of_tagCode {op : Instr} {tag : Byte} (h : op.tagCode = some tag.toNat) : decodeTag tag = some op := by
  have := ((wire_statement op).2 tag.toNat h).2
  rwa [BitVec.ofNat_toNat, BitVec.setWidth_eq] at this

theorem runsPlaced_of_steady {s : State} {op : Instr} {tag : Byte} (records : s.codec.status = .records)
    (decoded : decodeTag tag = some op) (h : tag ∈ steadyTags) : s.RunsPlaced op tag := by
  simp only [steadyTags, List.mem_cons, List.not_mem_nil, or_false] at h
  rcases h with rfl | rfl | rfl | rfl | rfl | rfl | rfl | rfl | rfl | rfl | rfl | rfl | rfl | rfl | rfl | rfl | rfl | rfl |
    rfl | rfl
  all_goals
    cases decoded
    exact runsPlaced records rfl rfl

theorem runsPlaced_of_versioned {s : State} {op : Instr} {tag : Byte} (records : s.codec.status = .records)
    (decoded : decodeTag tag = some op) (h : tag ∈ versionedTags) : s.RunsPlaced op tag := by
  simp only [versionedTags, List.mem_cons, List.not_mem_nil, or_false] at h
  rcases h with rfl | rfl | rfl | rfl <;> cases decoded
  · by_cases old : beforeVersion s.codec 6 = true
    · exact runsPlaced records rfl (if_pos old)
    · exact runsPlaced records rfl (if_neg old)
  all_goals
    by_cases old : beforeVersion s.codec 9 = true
    · exact runsPlaced_of_legacy records rfl (if_pos old)
    · exact runsPlaced records rfl (if_neg old)

/-- Each tag of an instrument runs a record of the instrument at the cursor. -/
theorem runsPlaced_of_mem {s : State} {op : Instr} {tag : Byte} (records : s.codec.status = .records)
    (code : op.tagCode = some tag.toNat) (h : tag ∈ steadyTags ∨ tag ∈ versionedTags) : s.RunsPlaced op tag :=
  h.elim (runsPlaced_of_steady records (decodeTag_of_tagCode code))
    (runsPlaced_of_versioned records (decodeTag_of_tagCode code))

/-- `m` is a record of the instrument at the cursor from version 7 on. -/
theorem runsPlaced_reverb {s : State} (records : s.codec.status = .records) (new : 7 ≤ s.codec.version) :
    s.RunsPlaced .tagReverb 0x6D#8 :=
  runsPlaced records rfl (if_neg (not_beforeVersion new))

/-! Failures of a record (R413, R416, R440). -/

section
variable {c : Cfg} {k : Codec} {tag : Byte}

theorem placedTag_of_error {f note e} (cut : payload c k tag = .error e) :
    placedTag c tag f note k = codecFail k (some tag) e := by
  simp only [placedTag, cut]

theorem songTag_of_error {f e} (cut : payload c k tag = .error e) : songTag c tag f k = codecFail k (some tag) e := by
  simp only [songTag, cut]

/-- There is no instrument under the cursor of a codec from version 3 on. -/
structure Codec.NoInstrument (k : Codec) : Prop where
  modern : 3 ≤ k.version
  missing : ∀ a, k.cursor = some a → codecInstrument k a = none

theorem Codec.NoInstrument.recordPlace_cases (h : k.NoInstrument) (vs : List Nat) :
    recordPlace k vs = none ∨ ∃ a, recordPlace k vs = some (a, vs) ∧ codecInstrument k a = none := by
  simp only [recordPlace, if_neg (not_beforeVersion h.modern)]
  cases place : k.cursor with
  | none => exact .inl rfl
  | some a => exact .inr ⟨a, rfl, h.missing a place⟩

theorem placedTag_of_noInstrument {f note r} (h : k.NoInstrument) (read : payload c k tag = .ok r) :
    placedTag c tag f note k = codecFail k (some tag) k.pos := by
  obtain none | ⟨a, place, missing⟩ := h.recordPlace_cases r.1
  · simp only [placedTag, read, none]
  · simp only [placedTag, read, place, missing]

theorem leadPayload_modern (modern : 3 ≤ k.version) : leadPayload c k tag = .ok ([], k.pos + 1) :=
  if_neg (not_beforeVersion modern)

theorem controlTag_of_noInstrument {width count store} (h : k.NoInstrument) :
    controlTag c tag width count store k = codecFail k (some tag) k.pos := by
  obtain none | ⟨a, place, missing⟩ := h.recordPlace_cases []
  · simp only [controlTag, leadPayload_modern h.modern, none]
  · simp only [controlTag, leadPayload_modern h.modern, place, missing]

end

/-! `T` (R416, R427, R430). -/

/-- The codec as `T` finds it: before version 9 with the legacy filter of the instrument before translated. -/
def Codec.atStart (c : Cfg) (k : Codec) : Codec := if k.version < 9 then translatePending c k else k

section
variable {c : Cfg} {k : Codec}

theorem atStart_version : (k.atStart c).version = k.version := by
  unfold Codec.atStart
  split <;> rfl

theorem atStart_pos : (k.atStart c).pos = k.pos := by
  unfold Codec.atStart
  split <;> rfl

theorem startInstrument_eq : startInstrument c k = beginInstrument c (k.atStart c) := by
  simp only [startInstrument, Codec.atStart, beforeVersion, decide_eq_true_eq]

/-- An instrument of a kind, with a drumset's envelopes where `T` carries them. -/
def kindSet (c : Cfg) (ins : Instrument) (v : Nat) (ds : List Nat) : Instrument :=
  if drumTag c = 0x54#8 ∧ v = kindDrumset then { ins with kind := v, drumEnvelopes := ds } else { ins with kind := v }

theorem setKind_values {ins : Instrument} {v : Nat} {ds : List Nat} (known : v < 8)
    (count : ds.length = if drumTag c = 0x54#8 ∧ v = kindDrumset then drumCount else 0)
    (legal : ∀ e ∈ ds, e < c.envelopes.length) : setKind c ins (v :: ds) = .ok (kindSet c ins v ds) := by
  unfold setKind kindSet
  rw [setEnum_inside _ _ _ known]
  simp only [Except.bind]
  split
  next drums =>
    rw [if_pos drums] at count
    simp only [List.drop_succ_cons, List.drop_zero, setDrums, count, if_true, envelopeIndices_legal legal, Except.map, behind]
  next => rfl

/-- The instrument that `T` moves to, where there is one. -/
theorem beginInstrument_stores {ins : Instrument} {at' : Nat × Nat} {v start : Nat} {ds : List Nat}
    (modern : 3 ≤ k.version) (next : nextInstrument k.song k.cursor = at') (found : codecInstrument k at' = some ins)
    (read : payload c k 0x54#8 = .ok (v :: ds, start)) (set : setKind c ins (v :: ds) = .ok (kindSet c ins v ds)) :
    beginInstrument c k = { k with
      song := modifyInstrument k.song at' (fun _ => kindSet c ins v ds)
      cursor := some at'
      legacy := if beforeVersion k 9 then legacyEntry k.legacy at' id else k.legacy
      pos := start } := by
  simp only [beginInstrument, read, if_neg (not_beforeVersion modern), next, found, set]

theorem beginInstrument_fails {r : List Nat × Nat} (modern : 3 ≤ k.version) (read : payload c k 0x54#8 = .ok r)
    (missing : codecInstrument k (nextInstrument k.song k.cursor) = none) :
    beginInstrument c k = codecFail k (some 0x54#8) k.pos := by
  simp only [beginInstrument, read, if_neg (not_beforeVersion modern), missing]

/-- The legacy filters that `T` leaves. -/
theorem atStart_legacy (at' : Nat × Nat) :
    (if beforeVersion (k.atStart c) 9 then legacyEntry (k.atStart c).legacy at' id else (k.atStart c).legacy) =
      if k.version < 9 then [⟨at'.1, at'.2, none, none, none⟩] else k.legacy := by
  by_cases old : k.version < 9
  · simp [Codec.atStart, old, beforeVersion, translatePending, legacyEntry]
  · simp [Codec.atStart, old, beforeVersion]

end

/-! Bits under a record (R418). -/

theorem symbolsFor_enough (n : Nat) : n ≤ 6 * symbolsFor n := by
  unfold symbolsFor
  omega

/-- Enough symbols hold a list of fields, written with the bits that were read. -/
theorem bits_of_symbols {text : List Byte} {pos width n : Nat} {symbols : List Nat}
    (read : symbolsAt text pos (symbolsFor (width * n)) = .ok symbols) :
    ∃ l rest, (l.length = n ∧ (∀ x ∈ l, x < 2 ^ width) ∧
        l.flatMap (writeBits width) = (valueBits symbols).take (width * n)) ∧
      bitsAt text pos (symbolsFor (width * n)) = .ok (valueBits symbols) ∧
      readFields width n (valueBits symbols) = .ok (l, rest) := by
  have enough : width * n ≤ (valueBits symbols).length := by
    rw [valueBits_length, symbolsAt_length read]
    exact symbolsFor_enough _
  obtain ⟨l, count, small, written, fields⟩ := readFields_of_le enough
  exact ⟨l, _, ⟨count, small, written⟩, by rw [bitsAt, read]; rfl, fields⟩

theorem controlTag_stores {c : Cfg} {k : Codec} {tag : Byte} {width n : Nat} {count : Instrument → Nat}
    {store : Instrument → List Nat → Instrument} {at' : Nat × Nat} {ins : Instrument} {l symbols : List Nat}
    {rest : List Bool} (here : k.AtInstrument at' ins) (points : count ins = n)
    (bits : bitsAt k.text (k.pos + 1) (symbolsFor (width * n)) = .ok (valueBits symbols))
    (fields : readFields width n (valueBits symbols) = .ok (l, rest)) :
    controlTag c tag width count store k = { k with
      song := modifyInstrument k.song at' (fun _ => store ins l), pos := k.pos + 1 + symbolsFor (width * n) } := by
  subst points
  simp only [controlTag, leadPayload_modern here.modern, here.recordPlace_eq, here.found, bits, fields]

/-- The bars of every channel, cut from one list. -/
theorem barsTag_stores {c : Cfg} {k : Codec} {l symbols : List Nat} {rest : List Bool} (modern : 3 ≤ k.version)
    (bits : bitsAt k.text (k.pos + 1)
      (symbolsFor (bitsFor (k.song.patternsPerChannel + 1) * (k.song.channels.length * k.song.barCount))) =
        .ok (valueBits symbols))
    (fields : readFields (bitsFor (k.song.patternsPerChannel + 1)) (k.song.channels.length * k.song.barCount)
      (valueBits symbols) = .ok (l, rest)) :
    barsTag c k = { k with
      song := { k.song with channels := k.song.channels.mapIdx (fun i ch =>
        { ch with bars := (chunks k.song.barCount k.song.channels.length l).getD i ch.bars }) }
      pos := k.pos + 1 +
        symbolsFor (bitsFor (k.song.patternsPerChannel + 1) * (k.song.channels.length * k.song.barCount)) } := by
  simp only [barsTag, leadPayload_modern modern, bits, fields]

/-! `p` (R419). -/

/-- The digits and the symbols of a `p` payload, and where the symbols begin. -/
structure Codec.PatternsPayload (k : Codec) (ll : Nat) (digits symbols : List Nat) (start : Nat) : Prop where
  first : symbolsAt k.text (k.pos + 1) 1 = .ok [ll]
  count : symbolsAt k.text (k.pos + 2) ll = .ok digits
  place : start = k.pos + 2 + ll
  stream : symbolsAt k.text start (digitsValue digits) = .ok symbols

section
variable {c : Cfg} {k : Codec} {ll start : Nat} {digits symbols : List Nat}

/-- The symbols that were read lie inside the text. -/
theorem Codec.PatternsPayload.inside (h : k.PatternsPayload ll digits symbols start) :
    start + digitsValue digits ≤ k.text.length := by
  have first := symbolsAt_inside h.first Nat.one_pos
  have count : 0 < ll → k.pos + 2 + ll ≤ k.text.length := symbolsAt_inside h.count
  have stream : 0 < digitsValue digits → start + digitsValue digits ≤ k.text.length := symbolsAt_inside h.stream
  have place := h.place
  omega

/-- The reader of `p` behind the digits. -/
theorem patternsTag_stores (h : k.PatternsPayload ll digits symbols start) {channels : List Channel} {rest : List Bool}
    (read : readChannels c (legacyDuration c k) k.song 0 k.song.channels (valueBits symbols) = .ok (channels, rest)) :
    patternsTag c k = { k with song := { k.song with channels := channels }, pos := start + symbols.length } := by
  have count := symbolsAt_length h.stream
  obtain ⟨first, digitsRead, rfl, stream⟩ := h
  have inside := Nat.not_lt.mpr (Codec.PatternsPayload.inside ⟨first, digitsRead, rfl, stream⟩)
  simp only [patternsTag, first, List.headD_cons, digitsRead, if_neg inside, bitsAt, stream, Except.map, read, count]

theorem patternsTag_malformed (h : k.PatternsPayload ll digits symbols start) {left : Nat}
    (read : readChannels c (legacyDuration c k) k.song 0 k.song.channels (valueBits symbols) = .error left) :
    patternsTag c k = codecFail k (some 0x70#8) (start + ((valueBits symbols).length - left) / 6) := by
  obtain ⟨first, digitsRead, rfl, stream⟩ := h
  have inside := Nat.not_lt.mpr (Codec.PatternsPayload.inside ⟨first, digitsRead, rfl, stream⟩)
  simp only [patternsTag, first, List.headD_cons, digitsRead, if_neg inside, bitsAt, stream, Except.map, read]

/-- A first symbol that is missing or none. -/
theorem patternsTag_of_noLength {ch : Byte}
    (missing : k.text.length = k.pos + 1 ∨ (k.text[k.pos + 1]? = some ch ∧ symbolValue ch = none)) :
    patternsTag c k = codecFail k (some 0x70#8) (k.pos + 1) := by
  have none : symbolsAt k.text (k.pos + 1) 1 = .error (k.pos + 1) := by
    obtain short | ⟨under, noSymbol⟩ := missing
    · rw [symbolsAt, List.getElem?_eq_none (Nat.le_of_eq short)]
    · simp only [symbolsAt, under, noSymbol]
  simp only [patternsTag, none]

end

/-! Malformed bit-streams (R421, R424, R425, R440). -/

section
variable {c : Cfg} {legacy : Bool} {top barParts fuel part i : Nat} {st : PatternReader} {b b' : List Bool}

/-- The two bits 10 begin nothing. -/
theorem readNotes_unassigned (inside : part < barParts) :
    readNotes c legacy top barParts (fuel + 1) part st (true :: false :: b) = .error (b.length + 1) := by
  simp only [readNotes, if_neg (Nat.not_le.mpr inside)]

theorem readNotes_noShape (inside : part < barParts) (index : readShapeIndex c.codec b = some (i, b'))
    (beyond : st.shapes[i]? = none) :
    readNotes c legacy top barParts (fuel + 1) part st (true :: true :: b) = .error (b'.length + 1) := by
  simp only [readNotes, if_neg (Nat.not_le.mpr inside), index, beyond]

theorem readPitch_noRecent {k : CodecCfg} {h : PitchHistory} (small : i < 8) (beyond : h.recent[i]? = none) :
    readPitch k top h (true :: (writeBits 3 i ++ b)) = .error (b.length + 1) := by
  simp only [readPitch, readBits_one, Bool.toNat_true, readBits_writeBits (k := 3) small, beyond]

theorem readNote_tooLong {shape : Shape} {chord bends : List Nat} {h1 h2 : PitchHistory} {b1 b2 : List Bool}
    (passes : barParts < part + shapeLength shape)
    (chordRead : readPitches c.codec top shape.size st.pitches b = .ok (chord, h1, b1))
    (bendsRead : readPitches c.codec top (shape.pins.filter ShapePin.bend).length
      { h1 with last := chord.headD h1.last } b1 = .ok (bends, h2, b2)) :
    readNote c top barParts part shape st b = .error (b2.length + 1) := by
  simp only [readNote, chordRead, bendsRead, if_pos passes]

end

end Sys2Proof.Machine

namespace Sys2Proof.Proofs

open Sys2Proof.Machine

/-- Settles O60: `T` by the instrument that it moves to; the records of bits by the fields that their symbols hold; the
failures by the first reader that answers one. -/
theorem bitTags : Obligations.BitTags := by
  intro s at' ins ds symbols start records modern legal
  refine ⟨?kind, ?noKind, fun missing => ?noInstrument, fun cursor found => ⟨fun read => ?harmonics,
    fun other read => ?spectrum, fun drumset read => ?drums⟩, fun read => ?bars,
    fun ll digits channels rest first more hstart stream read => ?patterns,
    fun ll digits left first more hstart stream malformed => ?badPatterns,
    fun legacy top barParts fuel part i st h shape b b' => ⟨fun inside => ?prefixed, fun inside index beyond => ?noShape,
      fun small beyond => ?noPitch, fun chord bends h1 h2 b1 b2 passes chordRead bendsRead => ?tooLong⟩,
    fun ch missing => ?noLength⟩
  case kind =>
    intro _ v next found read known count
    refine exec_record records rfl (startInstrument_eq.trans ?_)
    have begun := beginInstrument_stores (k := s.codec.atStart Config.cfg) (atStart_version.symm ▸ modern) next found read
      (setKind_values known count legal)
    rw [atStart_legacy] at begun
    exact begun
  case noKind =>
    intro _ r read missing
    refine exec_record records rfl (startInstrument_eq.trans ?_)
    have begun := beginInstrument_fails (k := s.codec.atStart Config.cfg) (atStart_version.symm ▸ modern) read missing
    rw [atStart_pos] at begun
    exact begun
  case noInstrument =>
    have absent : s.codec.NoInstrument := ⟨modern, missing⟩
    have placed {op : Instr} {tag : Byte} {r : List Nat × Nat} (runs : s.RunsPlaced op tag)
        (read : payload Config.cfg s.codec tag = .ok r) :
        exec op s = .next { s with codec := codecFail s.codec (some tag) s.codec.pos } := by
      obtain ⟨f, note, run⟩ := runs
      rw [run, placedTag_of_noInstrument absent read]
    refine ⟨exec_record records rfl (controlTag_of_noInstrument absent),
      exec_record records rfl (controlTag_of_noInstrument absent),
      fun r new read => placed (runsPlaced_reverb records new) read, fun op tag r code mem read => ?_⟩
    have known : ∀ t ∈ ([0x76#8, 0x75#8, 0x71#8, 0x66#8, 0x47#8, 0x7A#8, 0x79#8, 0x64#8, 0x43#8, 0x63#8, 0x68#8, 0x77#8,
        0x41#8, 0x42#8, 0x46#8, 0x50#8, 0x51#8, 0x45#8, 0x56#8, 0x44#8, 0x52#8, 0x4C#8, 0x55#8, 0x57#8] : List Byte),
        t ∈ steadyTags ∨ t ∈ versionedTags := by decide
    exact placed (runsPlaced_of_mem records code (known tag mem)) read
  case harmonics =>
    obtain ⟨l, rest, holds, bits, fields⟩ := bits_of_symbols read
    exact ⟨l, holds, exec_record records rfl (symbolsAt_length read ▸ controlTag_stores ⟨modern, cursor, found⟩ rfl bits fields)⟩
  case spectrum =>
    obtain ⟨l, rest, holds, bits, fields⟩ := bits_of_symbols read
    refine ⟨l, holds, exec_record records rfl ?_⟩
    have stored := controlTag_stores (c := Config.cfg) (tag := 0x53#8)
      (store := fun i l => if i.kind = kindDrumset then { i with drumSpectrumWaves := chunks spectrumPoints drumCount l }
        else { i with spectrumWave := l })
      (count := fun i => if i.kind = kindDrumset then drumCount * spectrumPoints else spectrumPoints)
      ⟨modern, cursor, found⟩ (if_neg other) bits fields
    rw [if_neg other] at stored
    rw [symbolsAt_length read]
    exact stored
  case drums =>
    obtain ⟨l, rest, ⟨count, small, written⟩, bits, fields⟩ := bits_of_symbols read
    have stored := controlTag_stores (c := Config.cfg) (tag := 0x53#8) (n := 360)
      (store := fun i l => if i.kind = kindDrumset then { i with drumSpectrumWaves := chunks spectrumPoints drumCount l }
        else { i with spectrumWave := l })
      (count := fun i => if i.kind = kindDrumset then drumCount * spectrumPoints else spectrumPoints)
      ⟨modern, cursor, found⟩ (if_pos drumset) bits fields
    rw [if_pos drumset] at stored
    obtain ⟨flat, sizes⟩ := chunks_flatten (size := 30) (n := 12) count
    refine ⟨l, chunks 30 12 l, ⟨count, small, written⟩, chunks_length .., sizes, flat, exec_record records rfl ?_⟩
    rw [symbolsAt_length read]
    exact stored
  case bars =>
    obtain ⟨l, rest, holds, bits, fields⟩ := bits_of_symbols read
    refine ⟨l, _, holds, exec_record records rfl (symbolsAt_length read ▸ barsTag_stores modern bits fields), rfl,
      List.length_mapIdx, fun i ch there => ?_⟩
    have inside := (List.getElem?_eq_some_iff.mp there).1
    simp only [List.getElem?_mapIdx, there, Option.map_some, List.getD_eq_getElem?_getD, chunks_get l inside,
      Option.getD_some]
  case patterns =>
    exact exec_record records rfl (patternsTag_stores ⟨first, more, hstart, stream⟩ read)
  case badPatterns =>
    exact exec_record records rfl (patternsTag_malformed ⟨first, more, hstart, stream⟩ malformed)
  case prefixed => exact readNotes_unassigned inside
  case noShape => exact readNotes_noShape inside index beyond
  case noPitch => exact readPitch_noRecent small beyond
  case tooLong => exact readNote_tooLong passes chordRead bendsRead
  case noLength => exact exec_record records rfl (patternsTag_of_noLength missing)

end Sys2Proof.Proofs
end

section
set_option Elab.async false
/-! SUPPORT. The song-level records (`49_song_codec.md` R412, R413, R417, R434, R440). -/

namespace Sys2Proof.Machine

/-- Each tag with a payload shape but `T` is one of the song, one of the instrument at the cursor, or `m`. -/
theorem mem_of_decodeTag : ∀ tag : Byte, (decodeTag tag).isSome = true → tag ∉ unshapedTags →
    tag ∈ plainSongTags ∨ (tag ∈ steadyTags ∨ tag ∈ versionedTags) ∨ tag = 0x6D#8 := by decide

section
variable {c : Cfg} {k : Codec} {tag : Byte} {f : Song → List Nat → Except Nat Song} {vs : List Nat} {next n : Nat} {song : Song}

theorem songTag_stores (read : payload c k tag = .ok (vs, next)) (set : f k.song vs = .ok song) :
    songTag c tag f k = { k with song := song, pos := next } := by
  simp only [songTag, read, set]

theorem songTag_refuses (read : payload c k tag = .ok (vs, next)) (fails : f k.song vs = .error n) :
    songTag c tag f k = codecFail k (some tag) (fieldPosition c k tag n) := by
  simp only [songTag, read, fails]

end

/-! The records of a state's codec. -/

section
variable {s : State} {op : Instr} {tag : Byte} {F : Codec → Codec} {f : Song → List Nat → Except Nat Song}
  {v n next : Nat} {vs : List Nat} {song : Song}

/-- Where the record of `tag` has these values, `op` leaves the song, behind the payload. -/
def State.PutsSong (s : State) (op : Instr) (tag : Byte) (vs : List Nat) (next : Nat) (song : Song) : Prop :=
  Machine.payload Config.cfg s.codec tag = .ok (vs, next) →
    exec op s = .next { s with codec := { s.codec with song := song, pos := next } }

theorem putsSong (song : Song) (records : s.codec.status = .records) (run : exec op s = .next (onCodec s F))
    (record : F s.codec = songTag Config.cfg tag f s.codec) (set : f s.codec.song vs = .ok song) :
    s.PutsSong op tag vs next song := fun read =>
  exec_record records run (record.trans (songTag_stores read set))

/-- A record of the song whose first value is an index into a table of `n` entries. -/
theorem putsSong_index (g : Nat → Song) (records : s.codec.status = .records) (run : exec op s = .next (onCodec s F))
    (record : F s.codec = songTag Config.cfg tag f s.codec) (set : f s.codec.song = setEnum n s.codec.song g)
    (read : Machine.payload Config.cfg s.codec tag = .ok (v :: vs, next)) :
    (v < n → exec op s = .next { s with codec := { s.codec with song := g v, pos := next } }) ∧
      (n ≤ v → exec op s = .next { s with codec := { s.codec with
        status := .failed (some tag) (fieldPosition Config.cfg s.codec tag 0) } }) :=
  ⟨fun inside => putsSong (g v) records run record ((congrFun set _).trans (setEnum_inside _ _ _ inside)) read,
    fun outside => exec_record records run
      (record.trans (songTag_refuses read ((congrFun set _).trans (setEnum_outside _ _ _ outside))))⟩

theorem runsSong_of_mem (records : s.codec.status = .records) (decoded : decodeTag tag = some op)
    (h : tag ∈ plainSongTags) : s.RunsSong op tag := by
  simp only [plainSongTags, List.mem_cons, List.not_mem_nil, or_false] at h
  rcases h with rfl | rfl | rfl | rfl | rfl | rfl | rfl | rfl | rfl | rfl | rfl | rfl
  all_goals
    cases decoded
    exact runsSong records rfl rfl

/-- `m` before version 7 (R434). -/
theorem readReverb_old (old : s.codec.version < 7) {e : Nat} :
    (Machine.payload Config.cfg s.codec 0x6D#8 = .ok (v :: vs, next) →
      readReverb Config.cfg s.codec = { s.codec with legacyReverb := some v, pos := next }) ∧
    (Machine.payload Config.cfg s.codec 0x6D#8 = .error e →
      readReverb Config.cfg s.codec = codecFail s.codec (some 0x6D#8) e) := by
  constructor <;> intro read <;> simp only [readReverb, if_pos (beforeVersion_of_lt old), read]
  rfl

/-- A payload that is cut short, of any tag with a payload shape (R413, R440). -/
theorem exec_of_payload_error {e : Nat} (records : s.codec.status = .records) (code : op.tagCode = some tag.toNat)
    (shaped : tag ∉ unshapedTags) (cut : Machine.payload Config.cfg s.codec tag = .error e) :
    exec op s = .next { s with codec := codecFail s.codec (some tag) e } := by
  have decoded := decodeTag_of_tagCode code
  have placed (runs : s.RunsPlaced op tag) : exec op s = .next { s with codec := codecFail s.codec (some tag) e } := by
    obtain ⟨f, note, run⟩ := runs
    rw [run, placedTag_of_error cut]
  obtain song | instrument | rfl := mem_of_decodeTag tag (decoded ▸ rfl) shaped
  · obtain ⟨f, run⟩ := runsSong_of_mem records decoded song
    rw [run, songTag_of_error cut]
  · exact placed (runsPlaced_of_mem records code instrument)
  · cases decoded
    rcases Nat.lt_or_ge s.codec.version 7 with old | new
    · exact exec_record records rfl ((readReverb_old (v := 0) (vs := []) (next := 0) old).2 cut)
    · exact placed (runsPlaced_reverb records new)

end

/-! The frame of a text (R411, D46). -/

/-- The characters that may lead a text. -/
def blankBytes : List Byte := [0x20#8, 0x09#8, 0x0D#8, 0x0A#8]

theorem isBlank_iff : ∀ ch : Byte, isBlank ch = true ↔ ch ∈ blankBytes := by decide

theorem skipBlanks_append {blanks rest : List Byte} (i : Nat) (blank : ∀ ch ∈ blanks, ch ∈ blankBytes)
    (ends : ∀ ch ∈ rest.head?, ch ∉ blankBytes) : skipBlanks i (blanks ++ rest) = i + blanks.length := by
  induction blanks generalizing i with
  | nil =>
    cases rest with
    | nil => rfl
    | cons ch t => exact if_neg fun h => ends ch rfl ((isBlank_iff ch).mp h)
  | cons ch t ih =>
    rw [List.cons_append, skipBlanks, if_pos ((isBlank_iff ch).mpr (blank ch List.mem_cons_self)),
      ih (i + 1) fun x hx => blank x (List.mem_cons_of_mem _ hx), List.length_cons]
    omega

theorem frameStart_append {blanks rest : List Byte} (blank : ∀ ch ∈ blanks, ch ∈ blankBytes)
    (ends : ∀ ch ∈ rest.head?, ch ∉ blankBytes) :
    frameStart (blanks ++ rest) = blanks.length + if rest.head? = some 0x23#8 then 1 else 0 := by
  simp only [frameStart, skipBlanks_append 0 blank ends, Nat.zero_add]
  rw [List.getElem?_append_right (Nat.le_refl _), Nat.sub_self, ← List.head?_eq_getElem?]
  split <;> rfl

/-- The codec as a frame leaves it: the default song, and nothing read. -/
def Codec.framed (c : Cfg) (k : Codec) : Codec :=
  { k with song := c.initialSong, cursor := none, legacy := [], legacyReverb := none, output := [] }

section
variable {c : Cfg} {k : Codec} {i v : Nat} {ch : Byte} {j : Json}

theorem readFrame_empty (start : frameStart k.text = i) (nothing : k.text.length ≤ i) :
    readFrame c k = { k.framed c with pos := i, version := 9, status := .done } := by
  subst start
  have none := List.getElem?_eq_none nothing
  rw [readFrame, if_neg (by rw [none]; exact nofun)]
  simp only [frameVersion, none]
  rfl

/-- A text that does not begin with a brace. -/
theorem readFrame_of_noBrace (start : frameStart k.text = i) (under : k.text[i]? = some ch) (noBrace : ch ≠ 0x7B#8) :
    readFrame c k = frameVersion c k := by
  subst start
  exact if_neg fun brace => noBrace (Option.some.inj (under.symm.trans brace))

theorem readFrame_version (start : frameStart k.text = i) (under : k.text[i]? = some ch) (symbol : symbolValue ch = some v)
    (least : 2 ≤ v) (most : v ≤ 9) :
    readFrame c k = { k.framed c with pos := i + 1, version := v, status := .records } := by
  have noBrace : ch ≠ 0x7B#8 := by
    rintro rfl
    nomatch symbol
  rw [readFrame_of_noBrace start under noBrace]
  subst start
  simp only [frameVersion, under, symbol]
  exact if_neg fun h => h.elim (Nat.not_lt.mpr least) (Nat.not_lt.mpr most)

theorem readFrame_noVersion (start : frameStart k.text = i) (under : k.text[i]? = some ch) (noBrace : ch ≠ 0x7B#8)
    (noVersion : ∀ v, symbolValue ch = some v → v < 2 ∨ 9 < v) :
    readFrame c k = { k.framed c with status := .failed none i } := by
  rw [readFrame_of_noBrace start under noBrace]
  subst start
  cases symbol : symbolValue ch with
  | none => simp only [frameVersion, under, symbol]; rfl
  | some v =>
    simp only [frameVersion, under, symbol]
    exact if_pos (noVersion v symbol)

theorem readFrame_noJson (start : frameStart k.text = i) (brace : k.text[i]? = some 0x7B#8)
    (noJson : parseJson (k.text.drop i) = none) : readFrame c k = { k with status := .failed none i } := by
  subst start
  rw [readFrame, if_pos brace, importText]
  simp only [noJson]
  rfl

theorem readFrame_json (start : frameStart k.text = i) (brace : k.text[i]? = some 0x7B#8)
    (parsed : parseJson (k.text.drop i) = some j) : readFrame c k = { k with
      song := importJson c j, cursor := none, legacy := [], legacyReverb := none, pos := k.text.length
      version := 9, status := .done } := by
  subst start
  rw [readFrame, if_pos brace, importText]
  simp only [parsed]
  rfl

/-! The writer (R442). -/

theorem writeText_fails (none : writeChannels c k.song 0 k.song.channels = none) :
    writeText c k = { k with status := .failed (some 0x70#8) k.pos } := by
  simp only [writeText, encodeSong, none, Option.map_none]
  rfl

theorem writeText_writes {bits : List Bool} (written : writeChannels c k.song 0 k.song.channels = some bits) :
    writeText c k = { k with
      output := symbolOf 9 :: (songRecords c k.song (startContext c) (songTags c) ++
        instrumentRecords c k.song (songContext c k.song) (songInstruments k.song) ++
        0x62#8 :: barsPayload k.song ++ 0x70#8 :: patternsPayload bits)
      status := .done } := by
  simp only [writeText, encodeSong, written, Option.map_some]
  rfl

end

/-! A step of the codec by its phase. -/

section
variable {s : State} {k' : Codec}

theorem step_framing (pin : s.resetPin = false) (turn : s.turn = .codec) (phase : s.codec.status = .framing)
    (read : readFrame Config.cfg s.codec = k') : step s = .next { s with codec := k' } := by
  rw [step_of_codec pin turn]
  simp only [codecStep, phase, read]

theorem step_encoding (pin : s.resetPin = false) (turn : s.turn = .codec) (phase : s.codec.status = .encoding)
    (written : writeText Config.cfg s.codec = k') : step s = .next { s with codec := k' } := by
  rw [step_of_codec pin turn]
  simp only [codecStep, phase, written]

theorem step_exporting (pin : s.resetPin = false) (turn : s.turn = .codec) (phase : s.codec.status = .exporting) :
    step s = .next { s with codec := { s.codec with
      output := writeJson (exportJson Config.cfg s.codec.song), status := .done } } := by
  rw [step_of_codec pin turn]
  simp only [codecStep, phase]

theorem step_resting (pin : s.resetPin = false) (turn : s.turn = .codec)
    (phase : s.codec.status = .idle ∨ s.codec.status = .done ∨ ∃ tag i, s.codec.status = .failed tag i) :
    step s = .next s := by
  rw [step_of_codec pin turn]
  obtain phase | phase | ⟨tag, i, phase⟩ := phase <;> simp only [codecStep, phase]

theorem step_records_end (pin : s.resetPin = false) (turn : s.turn = .codec) (phase : s.codec.status = .records)
    (nothing : s.codec.text.length ≤ s.codec.pos) :
    step s = .next { s with codec := finishDecode Config.cfg s.codec } := by
  rw [step_of_codec pin turn]
  simp only [codecStep, phase, List.getElem?_eq_none nothing]

end

end Sys2Proof.Machine
end

section
set_option Elab.async false
/-! SUPPORT. A legal song by its entries, and the normalisation of a song (`10_state.md` R47 to R52, `49_song_codec.md`
R417): a legal song stays, and what comes out is in its ranges. -/

namespace Sys2Proof.Machine

/-! A legal song by its entries (R47, R48). -/

/-- Each channel of a legal song is legal, under the highest pitch of its kind. -/
theorem songLegal_channel {c : Cfg} {s : Song} {n : Nat} {ch : Channel} (legal : songLegal c s = true)
    (there : s.channels[n]? = some ch) : channelLegal c s (topPitch c s n) ch = true := by
  simp only [songLegal, Bool.and_eq_true, List.all_eq_true] at legal
  obtain ⟨⟨-, pitch⟩, noise⟩ := legal
  unfold topPitch
  split
  next h => exact pitch ch (List.mem_of_getElem? (List.getElem?_take_of_lt h ▸ there))
  next h =>
    refine noise ch (List.mem_of_getElem? (i := n - s.pitchChannelCount) ?_)
    rw [List.getElem?_drop, Nat.add_sub_cancel' (Nat.not_lt.mp h), there]

theorem songLegal_mem {c : Cfg} {s : Song} {ch : Channel} (legal : songLegal c s = true) (mem : ch ∈ s.channels) :
    ∃ top, channelLegal c s top ch = true := by
  obtain ⟨n, there⟩ := List.getElem?_of_mem mem
  exact ⟨_, songLegal_channel legal there⟩

/-- The song-level ranges of a legal song. -/
structure SongRanged (c : Cfg) (s : Song) : Prop where
  tempo : 1 ≤ s.tempo ∧ s.tempo ≤ c.tempoMax
  beats : 1 ≤ s.beatsPerBar ∧ s.beatsPerBar ≤ c.beatsPerBarMax
  bars : 1 ≤ s.barCount ∧ s.barCount ≤ c.barCountMax
  loop : 1 ≤ s.loopLength ∧ s.loopStart + s.loopLength ≤ s.barCount
  patterns : s.patternsPerChannel ≤ c.ranges.patternsPerChannel
  instruments : s.instrumentsPerChannel ≤ c.ranges.instrumentsPerChannel
  pitch : s.pitchChannelCount ≤ c.ranges.pitchChannelCount
  noise : s.noiseChannelCount ≤ c.ranges.noiseChannelCount

theorem songLegal_ranged {c : Cfg} {s : Song} (legal : songLegal c s = true) :
    SongRanged c s ∧ s.channels.length = s.pitchChannelCount + s.noiseChannelCount := by
  simp only [songLegal, globalsLegal, Bool.and_eq_true, decide_eq_true_eq, beq_iff_eq] at legal
  exact ⟨by constructor <;> omega, by omega⟩

/-- A channel's lists are at the song's counts. -/
structure ChannelCounted (s : Song) (ch : Channel) : Prop where
  instruments : ch.instruments.length = s.instrumentsPerChannel
  patterns : ch.patterns.length = s.patternsPerChannel
  bars : ch.bars.length = s.barCount

theorem channelLegal_counted {c : Cfg} {s : Song} {top : Nat} {ch : Channel} (legal : channelLegal c s top ch = true) :
    ChannelCounted s ch := by
  simp only [channelLegal, Bool.and_eq_true, beq_iff_eq] at legal
  constructor <;> omega

/-- A pattern names an instrument, so that there is one where there are patterns (R49). -/
theorem songLegal_instruments {c : Cfg} {s : Song} (legal : songLegal c s = true) (patterns : 0 < s.patternsPerChannel)
    (channels : 0 < s.pitchChannelCount + s.noiseChannelCount) : 0 < s.instrumentsPerChannel := by
  obtain ⟨ch, mem⟩ := List.exists_mem_of_length_pos ((songLegal_ranged legal).2.symm ▸ channels)
  obtain ⟨top, good⟩ := songLegal_mem legal mem
  obtain ⟨p, hp⟩ := List.exists_mem_of_length_pos ((channelLegal_counted good).patterns.symm ▸ patterns)
  simp only [channelLegal, patternLegal, Bool.and_eq_true, List.all_eq_true, decide_eq_true_eq] at good
  obtain ⟨⟨⟨-, all⟩, -⟩, -⟩ := good
  obtain ⟨⟨named, -⟩, -⟩ := all p hp
  omega

/-! Lists that are at their counts already (R381, R417). -/

theorem resizeList_self {α : Type} {n : Nat} {l : List α} (fresh : Nat → α) (count : l.length = n) :
    resizeList n l fresh = l := by
  subst count
  simp [resizeList]

theorem resizeChannel_self {s : Song} {ch : Channel} (d : Channel) (counted : ChannelCounted s ch) :
    resizeChannel s d ch = ch := by
  simp only [resizeChannel, resizeList_self _ counted.instruments, resizeList_self _ counted.patterns,
    resizeList_self _ counted.bars]

/-- A map by place that changes no entry. -/
theorem mapIdx_eq_self {α : Type} {l : List α} {f : Nat → α → α} (h : ∀ i a, l[i]? = some a → f i a = a) :
    l.mapIdx f = l := by
  refine List.ext_getElem? fun i => ?_
  rw [List.getElem?_mapIdx]
  cases there : l[i]? with
  | none => rfl
  | some a => rw [Option.map_some, h i a there]

theorem fitChannels_self {s : Song} {l : List Channel} {n : Nat} (d : List Channel) (count : l.length = n)
    (counted : ∀ ch ∈ l, ChannelCounted s ch) : fitChannels s d l n = l := by
  rw [fitChannels, resizeList_self _ count]
  exact mapIdx_eq_self fun i ch there => resizeChannel_self _ (counted ch (List.mem_of_getElem? there))

theorem resizeCounts_self {s : Song} (dflt : Song) (count : s.channels.length = s.pitchChannelCount + s.noiseChannelCount)
    (counted : ∀ ch ∈ s.channels, ChannelCounted s ch) : resizeCounts dflt s s = s := by
  have channels : (resizeCounts dflt s s).channels = s.channels := by
    rw [resizeCounts_channels,
      fitChannels_self _ (List.length_take_of_le (by omega)) fun ch h => counted ch (List.mem_of_mem_take h),
      fitChannels_self _ (by rw [List.length_drop]; omega) fun ch h => counted ch (List.mem_of_mem_drop h),
      List.take_append_drop]
  show { s with channels := (resizeCounts dflt s s).channels } = s
  rw [channels]

/-! Clamps. -/

theorem clampNat_self {lo hi v : Nat} (least : lo ≤ v) (most : v ≤ hi) : clampNat lo hi v = v := by
  unfold clampNat
  omega

theorem clampNat_bounds {lo hi : Nat} (v : Nat) (h : lo ≤ hi) : lo ≤ clampNat lo hi v ∧ clampNat lo hi v ≤ hi := by
  unfold clampNat
  omega

/-- A map that changes no entry. -/
theorem map_self {α : Type} {l : List α} {f : α → α} (h : ∀ a ∈ l, f a = a) : l.map f = l :=
  (List.map_congr_left h).trans (List.map_id l)

theorem clampList_self {n top : Nat} {l : List Nat} (legal : controlsLegal n top l = true) : clampList n top l = l := by
  simp only [controlsLegal, Bool.and_eq_true, beq_iff_eq, List.all_eq_true, decide_eq_true_eq] at legal
  obtain ⟨count, small⟩ := legal
  rw [clampList, resizeList_self _ count, map_self fun v hv => Nat.min_eq_right (small v hv)]

theorem clampList_fits (n top : Nat) (l : List Nat) : (clampList n top l).length = n ∧ ∀ v ∈ clampList n top l, v ≤ top := by
  rw [clampList, List.length_map, resizeList_length]
  refine ⟨rfl, fun _ hv => ?_⟩
  obtain ⟨w, -, rfl⟩ := List.mem_map.mp hv
  exact Nat.min_le_left ..

theorem normalFilter_self {c : Cfg} {l : List FilterPoint} (legal : filterLegal c l = true) : normalFilter c l = l := by
  simp only [filterLegal, pointLegal, Bool.and_eq_true, List.all_eq_true, decide_eq_true_eq] at legal
  obtain ⟨count, points⟩ := legal
  rw [normalFilter, List.take_of_length_le count]
  refine map_self fun p hp => ?_
  obtain ⟨⟨kind, freq⟩, gain⟩ := points p hp
  simp only [normalPoint, Nat.min_eq_right (Nat.le_of_lt_succ kind), Nat.min_eq_right (Nat.le_sub_one_of_lt freq),
    Nat.min_eq_right (Nat.le_sub_one_of_lt gain)]

theorem normalFilter_fits (c : Cfg) (l : List FilterPoint) : (normalFilter c l).length ≤ c.filterMaxPoints ∧
    ∀ p ∈ normalFilter c l, p.kind ≤ 2 ∧ p.freq < c.filterFreqRange ∧ p.gain < c.filterGainRange := by
  constructor
  · rw [normalFilter, List.length_map]
    exact List.length_take_le ..
  · intro p hp
    obtain ⟨q, -, rfl⟩ := List.mem_map.mp hp
    exact ⟨Nat.min_le_left .., Nat.lt_succ_of_le (Nat.min_le_left ..), Nat.lt_succ_of_le (Nat.min_le_left ..)⟩

theorem normalOperator_self {c : Cfg} {o : Operator} (legal : operatorLegal c o = true) : normalOperator c o = o := by
  simp only [operatorLegal, Bool.and_eq_true, decide_eq_true_eq] at legal
  obtain ⟨⟨frequency, amplitude⟩, -⟩ := legal
  simp only [normalOperator, Nat.min_eq_right frequency, Nat.min_eq_right amplitude]

/-! Instruments (R50 to R52). -/

theorem normalInstrument_self {c : Cfg} {i : Instrument} (legal : instrumentLegal c i = true) : normalInstrument c i = i := by
  simp only [instrumentLegal, Bool.and_eq_true, and_assoc, decide_eq_true_eq, beq_iff_eq, List.all_eq_true] at legal
  obtain ⟨-, volume, -, filter, distortionFilter, -, -, -, -, -, effects, distortion, bitcrusherFreq, quantization, pan,
    reverb, -, -, four, operators, -, -, -, feedback, -, spectrum, harmonics, pulse, -, sustain, drums, -, waves,
    drumWaves⟩ := legal
  have fourOperators : (resizeList operatorCount i.operators fun _ => ⟨0, 0, 0⟩).map (normalOperator c) = i.operators := by
    rw [resizeList_self _ four]
    exact map_self fun o ho => normalOperator_self (operators o ho)
  have twelveWaves : (resizeList drumCount i.drumSpectrumWaves fun _ => []).map
      (clampList spectrumPoints c.ranges.spectrumControl) = i.drumSpectrumWaves := by
    rw [resizeList_self _ waves]
    exact map_self fun w hw => clampList_self (drumWaves w hw)
  simp only [normalInstrument, Nat.min_eq_right volume, normalFilter_self filter, normalFilter_self distortionFilter,
    Nat.min_eq_right (Nat.le_sub_one_of_lt effects), Nat.min_eq_right (Nat.le_sub_one_of_lt distortion),
    Nat.min_eq_right bitcrusherFreq, Nat.min_eq_right quantization, Nat.min_eq_right pan,
    Nat.min_eq_right (Nat.le_sub_one_of_lt reverb), fourOperators, Nat.min_eq_right feedback, clampList_self spectrum,
    clampList_self harmonics, Nat.min_eq_right pulse, Nat.min_eq_right sustain, resizeList_self _ drums, twelveWaves]

/-- The fields of an instrument that only one kind's records carry, in their ranges. -/
structure WavesFit (c : Cfg) (i : Instrument) : Prop where
  spectrum : i.spectrumWave.length = 30 ∧ ∀ v ∈ i.spectrumWave, v ≤ c.ranges.spectrumControl
  envelopes : i.drumEnvelopes.length = 12
  waves : i.drumSpectrumWaves.length = 12
  drums : ∀ w ∈ i.drumSpectrumWaves, w.length = 30 ∧ ∀ v ∈ w, v ≤ c.ranges.spectrumControl

/-- The numeric fields that every record of an instrument carries, in their ranges. -/
structure FieldsFit (c : Cfg) (i : Instrument) : Prop where
  volume : i.volume ≤ c.ranges.volume
  filter : i.filter.length ≤ c.filterMaxPoints ∧
    ∀ p ∈ i.filter, p.kind ≤ 2 ∧ p.freq < c.filterFreqRange ∧ p.gain < c.filterGainRange
  distortionFilter : i.distortionFilter.length ≤ c.filterMaxPoints ∧
    ∀ p ∈ i.distortionFilter, p.kind ≤ 2 ∧ p.freq < c.filterFreqRange ∧ p.gain < c.filterGainRange
  effects : i.effects < 32
  distortion : i.distortion < c.distortionRange
  bitcrusherFreq : i.bitcrusherFreq ≤ c.ranges.bitcrusherFreq
  quantization : i.bitcrusherQuantization ≤ c.ranges.bitcrusherQuantization
  pan : i.pan ≤ c.panMax
  reverb : i.reverb < c.reverbRange
  four : i.operators.length = 4
  operators : ∀ o ∈ i.operators, o.frequency ≤ c.ranges.operatorFrequency ∧ o.amplitude ≤ c.ranges.operatorAmplitude
  feedback : i.feedbackAmplitude ≤ c.ranges.feedbackAmplitude
  pulse : i.pulseWidth ≤ c.ranges.pulseWidth
  sustain : i.sustain ≤ c.ranges.sustain
  harmonics : i.harmonicsWave.length = 28 ∧ ∀ v ∈ i.harmonicsWave, v ≤ c.ranges.harmonicsControl

theorem normalInstrument_fieldsFit (c : Cfg) (i : Instrument) : FieldsFit c (normalInstrument c i) where
  volume := Nat.min_le_left ..
  filter := normalFilter_fits c i.filter
  distortionFilter := normalFilter_fits c i.distortionFilter
  effects := Nat.lt_succ_of_le (Nat.min_le_left ..)
  distortion := Nat.lt_succ_of_le (Nat.min_le_left ..)
  bitcrusherFreq := Nat.min_le_left ..
  quantization := Nat.min_le_left ..
  pan := Nat.min_le_left ..
  reverb := Nat.lt_succ_of_le (Nat.min_le_left ..)
  four := (List.length_map ..).trans (resizeList_length ..)
  operators o ho := by
    obtain ⟨p, -, rfl⟩ := List.mem_map.mp ho
    exact ⟨Nat.min_le_left .., Nat.min_le_left ..⟩
  feedback := Nat.min_le_left ..
  pulse := Nat.min_le_left ..
  sustain := Nat.min_le_left ..
  harmonics := clampList_fits ..

theorem normalInstrument_wavesFit (c : Cfg) (i : Instrument) : WavesFit c (normalInstrument c i) where
  spectrum := clampList_fits ..
  envelopes := resizeList_length drumCount i.drumEnvelopes fun _ => 0
  waves := (List.length_map ..).trans (resizeList_length ..)
  drums w hw := by
    obtain ⟨v, -, rfl⟩ := List.mem_map.mp hw
    exact clampList_fits ..

theorem instrumentLegal_wavesFit {c : Cfg} {i : Instrument} (legal : instrumentLegal c i = true) : WavesFit c i :=
  normalInstrument_self legal ▸ normalInstrument_wavesFit c i

theorem blankInstrument_wavesFit (c : Cfg) : WavesFit c blankInstrument where
  spectrum := ⟨rfl, fun _ hv => List.eq_of_mem_replicate hv ▸ Nat.zero_le _⟩
  envelopes := rfl
  waves := rfl
  drums _ hw := List.eq_of_mem_replicate hw ▸ ⟨rfl, fun _ hv => List.eq_of_mem_replicate hv ▸ Nat.zero_le _⟩

/-! Notes (R49). -/

/-- Of pins that rise, none is behind the last. -/
theorem pinsRise_le_last {l : List Pin} {last : Pin} (rise : pinsRise l = true) (atEnd : l.getLast? = some last) :
    ∀ p ∈ l, p.time ≤ last.time := by
  induction l with
  | nil => exact fun p hp => nomatch hp
  | cons q t ih =>
    cases t with
    | nil =>
      cases atEnd
      exact fun p hp => Nat.le_of_eq (List.mem_singleton.mp hp ▸ rfl)
    | cons r t =>
      simp only [pinsRise, Bool.and_eq_true, decide_eq_true_eq] at rise
      rw [List.getLast?_cons_cons] at atEnd
      have later := ih rise.2 atEnd
      refine List.forall_mem_cons.mpr ⟨?_, later⟩
      have := later r List.mem_cons_self
      omega

theorem risingPins_self {q : Pin} {l : List Pin} (rise : pinsRise (q :: l) = true) : risingPins q.time l = l := by
  induction l generalizing q with
  | nil => rfl
  | cons p t ih =>
    simp only [pinsRise, Bool.and_eq_true, decide_eq_true_eq] at rise
    obtain ⟨later, rest⟩ := rise
    rw [risingPins, if_pos later, ih rest]

/-- The parts of a legal note. -/
structure NoteFits (c : Cfg) (top barParts : Nat) (n : Note) : Prop where
  start : n.start < n.stop
  stop : n.stop ≤ barParts
  some : 1 ≤ n.pitches.length
  chord : n.pitches.length ≤ c.maxChordSize
  pitches : ∀ p ∈ n.pitches, p ≤ top
  rise : pinsRise n.pins = true
  pins : ∀ p ∈ n.pins, p.expression ≤ expressionMax ∧ bendLegal c top (n.pitches.headD 0) p.interval = true
  ends : ∃ e t, n.pins = ⟨0, 0, e⟩ :: t ∧ ∃ q, n.pins.getLast? = .some q ∧ q.time = n.stop - n.start

theorem noteLegal_fits {c : Cfg} {top barParts : Nat} {n : Note} (legal : noteLegal c top barParts n = true) :
    NoteFits c top barParts n := by
  simp only [noteLegal, Bool.and_eq_true, decide_eq_true_eq, List.all_eq_true] at legal
  obtain ⟨⟨⟨⟨⟨⟨⟨start, stop⟩, some⟩, chord⟩, pitches⟩, rise⟩, pins⟩, ends⟩ := legal
  refine ⟨start, stop, some, chord, pitches, rise, pins, ?_⟩
  split at ends
  next p q head last =>
    simp only [Bool.and_eq_true, beq_iff_eq] at ends
    obtain ⟨⟨time, interval⟩, length⟩ := ends
    obtain ⟨t, eq⟩ := List.head?_eq_some_iff.mp head
    obtain ⟨a, b, e⟩ := p
    obtain rfl : a = 0 := time
    obtain rfl : b = 0 := interval
    exact ⟨e, t, eq, q, last, length⟩
  next => nomatch ends

/-- The chord's first pitch is one of the channel's. -/
theorem NoteFits.head_le {c : Cfg} {top barParts : Nat} {n : Note} (h : NoteFits c top barParts n) : n.pitches.headD 0 ≤ top := by
  obtain ⟨p, t, eq⟩ := List.exists_cons_of_length_pos h.some
  exact eq ▸ h.pitches p (eq ▸ List.mem_cons_self)

theorem clampNote_self {c : Cfg} {top barParts : Nat} {n : Note} (legal : noteLegal c top barParts n = true) :
    clampNote c top barParts n = n := by
  have h := noteLegal_fits legal
  obtain ⟨e, t, eq, q, last, length⟩ := h.ends
  have early := pinsRise_le_last h.rise last
  have bounds := h.pins
  rw [eq] at early bounds
  have rising : risingPins 0 t = t := risingPins_self (q := ⟨0, 0, e⟩) (eq ▸ h.rise)
  have chord : (n.pitches.take c.maxChordSize).map (min top) = n.pitches := by
    rw [List.take_of_length_le h.chord]
    exact map_self fun p hp => Nat.min_eq_right (h.pitches p hp)
  have first : min expressionMax e = e := Nat.min_eq_right (bounds _ List.mem_cons_self).1
  simp only [clampNote, Nat.min_eq_right h.stop, chord, Nat.min_eq_right h.head_le, eq, first]
  rw [map_self, rising, ← eq]
  intro p hp
  obtain ⟨expression, bend⟩ := bounds p (List.mem_cons_of_mem _ hp)
  have time : p.time ≤ n.stop - n.start := length ▸ early p (List.mem_cons_of_mem _ hp)
  rw [Nat.min_eq_right time, clampInterval_of_legal bend, Nat.min_eq_right expression]

theorem normalNotes_self {c : Cfg} {top barParts from' : Nat} {l : List Note} (apart : notesApart l = true)
    (legal : ∀ n ∈ l, noteLegal c top barParts n = true) (first : ∀ n ∈ l.head?, from' ≤ n.start) :
    normalNotes c top barParts from' l = l := by
  induction l generalizing from' with
  | nil => rfl
  | cons n t ih =>
    have good := legal n List.mem_cons_self
    have rest : normalNotes c top barParts n.stop t = t := by
      cases t with
      | nil => rfl
      | cons m u =>
        simp only [notesApart, Bool.and_eq_true, decide_eq_true_eq] at apart
        refine ih apart.2 (fun x hx => legal x (List.mem_cons_of_mem _ hx)) fun x hx => ?_
        cases hx
        exact apart.1
    rw [normalNotes, clampNote_self good, good, decide_eq_true (first n rfl), Bool.and_true, if_pos rfl, rest]

/-- The notes that normalisation leaves: legal, apart, and not before `from'`. -/
theorem normalNotes_legal (c : Cfg) (top barParts from' : Nat) (l : List Note) :
    (∀ n ∈ normalNotes c top barParts from' l, noteLegal c top barParts n = true) ∧
      notesApart (normalNotes c top barParts from' l) = true ∧
      ∀ n ∈ (normalNotes c top barParts from' l).head?, from' ≤ n.start := by
  induction l generalizing from' with
  | nil => exact ⟨nofun, rfl, nofun⟩
  | cons n t ih =>
    simp only [normalNotes]
    split
    next good =>
      simp only [Bool.and_eq_true, decide_eq_true_eq] at good
      obtain ⟨legal, apart, first⟩ := ih (clampNote c top barParts n).stop
      refine ⟨List.forall_mem_cons.mpr ⟨good.1, legal⟩, ?_, fun m hm => by cases hm; exact good.2⟩
      cases more : normalNotes c top barParts (clampNote c top barParts n).stop t with
      | nil => rfl
      | cons m u =>
        rw [more] at apart first
        simp only [notesApart, Bool.and_eq_true, decide_eq_true_eq]
        exact ⟨first m rfl, apart⟩
    next => exact ih from'

/-! Channels and songs. -/

theorem normalChannel_self {c : Cfg} {s : Song} {i : Nat} {ch : Channel}
    (legal : channelLegal c s (topPitch c s i) ch = true) : normalChannel c s i ch = ch := by
  simp only [channelLegal, patternLegal, Bool.and_eq_true, and_assoc, decide_eq_true_eq, beq_iff_eq, List.all_eq_true] at legal
  obtain ⟨octave, -, instruments, -, patterns, -, bars⟩ := legal
  have pattern : ∀ p ∈ ch.patterns, ({
      instrument := min (s.instrumentsPerChannel - 1) p.instrument
      notes := normalNotes c (topPitch c s i) (s.beatsPerBar * c.partsPerBeat) 0 p.notes } : Pattern) = p := by
    intro p hp
    obtain ⟨named, apart, notes⟩ := patterns p hp
    rw [Nat.min_eq_right (Nat.le_sub_one_of_lt named), normalNotes_self apart notes fun n _ => Nat.zero_le _]
  simp only [normalChannel, Nat.min_eq_right octave, map_self fun i hi => normalInstrument_self (instruments i hi),
    map_self pattern, map_self fun b hb => Nat.min_eq_right (bars b hb)]

/-- The song with its counts and its numbers clamped, its lists as they were. -/
def clampedSong (c : Cfg) (song : Song) : Song :=
  let bars := clampNat 1 c.barCountMax song.barCount
  let pitch := min c.ranges.pitchChannelCount song.pitchChannelCount
  let noise := min c.ranges.noiseChannelCount song.noiseChannelCount
  let patterns := if c.ranges.instrumentsPerChannel = 0 ∧ 0 < pitch + noise then 0
    else min c.ranges.patternsPerChannel song.patternsPerChannel
  let least := if 0 < patterns ∧ 0 < pitch + noise then 1 else 0
  { song with
    pitchChannelCount := pitch
    noiseChannelCount := noise
    tempo := clampNat 1 c.tempoMax song.tempo
    beatsPerBar := clampNat 1 c.beatsPerBarMax song.beatsPerBar
    barCount := bars
    patternsPerChannel := patterns
    instrumentsPerChannel := clampNat least c.ranges.instrumentsPerChannel song.instrumentsPerChannel
    loopStart := min (bars - 1) song.loopStart
    loopLength := clampNat 1 (bars - min (bars - 1) song.loopStart) song.loopLength }

/-- The clamped song with every list at its count. -/
def sizedSong (c : Cfg) (song : Song) : Song := resizeCounts c.initialSong song (clampedSong c song)

theorem normaliseSong_eq (c : Cfg) (song : Song) : normaliseSong c song =
    { sizedSong c song with channels := (sizedSong c song).channels.mapIdx (normalChannel c (sizedSong c song)) } := rfl

theorem clampedSong_self {c : Cfg} {song : Song} (legal : songLegal c song = true) : clampedSong c song = song := by
  obtain ⟨⟨tempo, beats, bars, loop, patterns, instruments, pitch, noise⟩, -⟩ := songLegal_ranged legal
  have named := songLegal_instruments legal
  have allPatterns : (if c.ranges.instrumentsPerChannel = 0 ∧ 0 < song.pitchChannelCount + song.noiseChannelCount then 0
      else song.patternsPerChannel) = song.patternsPerChannel := by
    split <;> omega
  have least : (if 0 < song.patternsPerChannel ∧ 0 < song.pitchChannelCount + song.noiseChannelCount then 1 else 0) ≤
      song.instrumentsPerChannel := by
    split <;> omega
  have loopStart : min (song.barCount - 1) song.loopStart = song.loopStart := by omega
  simp only [clampedSong, Nat.min_eq_right pitch, Nat.min_eq_right noise, Nat.min_eq_right patterns,
    clampNat_self tempo.1 tempo.2, clampNat_self beats.1 beats.2, clampNat_self bars.1 bars.2, allPatterns,
    clampNat_self least instruments, loopStart, clampNat_self loop.1 (Nat.le_sub_of_add_le' loop.2)]

/-- A song that is legal already stays (R417). -/
theorem normaliseSong_self {c : Cfg} {song : Song} (legal : songLegal c song = true) : normaliseSong c song = song := by
  have sized : sizedSong c song = song := by
    rw [sizedSong, clampedSong_self legal]
    refine resizeCounts_self _ (songLegal_ranged legal).2 fun ch mem => ?_
    obtain ⟨top, good⟩ := songLegal_mem legal mem
    exact channelLegal_counted good
  rw [normaliseSong_eq, sized]
  show { song with channels := song.channels.mapIdx (normalChannel c song) } = song
  rw [mapIdx_eq_self fun i ch there => normalChannel_self (songLegal_channel legal there)]

/-- What the clamped counts allow: there is an instrument where a pattern can name one. -/
theorem clampedSong_fits (c : Cfg) (song : Song) : SongRanged c (clampedSong c song) ∧
    (0 < (clampedSong c song).patternsPerChannel →
      0 < (clampedSong c song).pitchChannelCount + (clampedSong c song).noiseChannelCount →
        0 < (clampedSong c song).instrumentsPerChannel) := by
  have tempo : 1 ≤ c.tempoMax := Nat.le_max_left ..
  have beats : 1 ≤ c.beatsPerBarMax := Nat.le_max_left ..
  have bars : 1 ≤ c.barCountMax := Nat.le_max_left ..
  refine ⟨⟨clampNat_bounds _ tempo, clampNat_bounds _ beats, clampNat_bounds _ bars, ?loop, ?patterns,
    (clampNat_bounds _ ?least).2, Nat.min_le_left .., Nat.min_le_left ..⟩, fun patterns channels => ?named⟩
  case loop =>
    simp only [clampedSong, clampNat]
    omega
  case patterns =>
    simp only [clampedSong]
    split
    · exact Nat.zero_le _
    · exact Nat.min_le_left ..
  case least =>
    split
    next =>
      rw [if_neg fun h => Nat.lt_irrefl 0 h.1]
      exact Nat.zero_le _
    next some =>
      split
      next h => exact Nat.pos_of_ne_zero fun none => some ⟨none, h.2⟩
      next => exact Nat.zero_le _
  case named =>
    show 0 < clampNat (if 0 < (clampedSong c song).patternsPerChannel ∧
      0 < (clampedSong c song).pitchChannelCount + (clampedSong c song).noiseChannelCount then 1 else 0) _ _
    rw [if_pos ⟨patterns, channels⟩]
    exact Nat.le_max_left ..

/-! What normalisation leaves (R417). -/

theorem resizeCounts_counted {dflt before after : Song} {ch : Channel} (mem : ch ∈ (resizeCounts dflt before after).channels) :
    ChannelCounted after ch := by
  rw [resizeCounts_channels, List.mem_append] at mem
  obtain mem | mem := mem <;> obtain ⟨bars, patterns, instruments⟩ := fitChannels_counts _ _ _ _ mem <;>
    exact ⟨instruments, patterns, bars⟩

theorem resizeCounts_length (dflt before after : Song) :
    (resizeCounts dflt before after).channels.length = after.pitchChannelCount + after.noiseChannelCount := by
  rw [resizeCounts_channels, List.length_append, fitChannels_length, fitChannels_length]

theorem normaliseSong_ranged (c : Cfg) (song : Song) : SongRanged c (normaliseSong c song) := by
  obtain ⟨tempo, beats, bars, loop, patterns, instruments, pitch, noise⟩ := (clampedSong_fits c song).1
  exact ⟨tempo, beats, bars, loop, patterns, instruments, pitch, noise⟩

theorem normaliseSong_length (c : Cfg) (song : Song) : (normaliseSong c song).channels.length =
    (normaliseSong c song).pitchChannelCount + (normaliseSong c song).noiseChannelCount := by
  rw [normaliseSong_eq, List.length_mapIdx]
  exact resizeCounts_length ..

/-- A channel's numbers and lists, in their ranges and at their counts; `top` is its highest pitch. -/
structure ChannelFits (c : Cfg) (s : Song) (top : Nat) (ch : Channel) : Prop where
  octave : ch.octave ≤ c.ranges.octave
  counted : ChannelCounted s ch
  bars : ∀ b ∈ ch.bars, b ≤ s.patternsPerChannel
  patterns : ∀ p ∈ ch.patterns, patternLegal c s.instrumentsPerChannel top (s.beatsPerBar * c.partsPerBeat) p = true
  instruments : ∀ ins ∈ ch.instruments, FieldsFit c ins ∧ WavesFit c ins

theorem normalChannel_fits {c : Cfg} {s : Song} {ch : Channel} (i : Nat) (counted : ChannelCounted s ch)
    (named : 0 < s.patternsPerChannel → 0 < s.instrumentsPerChannel) :
    ChannelFits c s (topPitch c s i) (normalChannel c s i ch) where
  octave := Nat.min_le_left ..
  counted := ⟨(List.length_map _).trans counted.instruments, (List.length_map _).trans counted.patterns,
    (List.length_map _).trans counted.bars⟩
  bars b hb := by
    obtain ⟨v, -, rfl⟩ := List.mem_map.mp hb
    exact Nat.min_le_left ..
  patterns p hp := by
    obtain ⟨q, hq, rfl⟩ := List.mem_map.mp hp
    obtain ⟨legal, apart, -⟩ := normalNotes_legal c (topPitch c s i) (s.beatsPerBar * c.partsPerBeat) 0 q.notes
    have some := named (counted.patterns ▸ List.length_pos_of_mem hq)
    simp only [patternLegal, Bool.and_eq_true, decide_eq_true_eq, List.all_eq_true]
    exact ⟨⟨by omega, apart⟩, legal⟩
  instruments ins hi := by
    obtain ⟨j, -, rfl⟩ := List.mem_map.mp hi
    exact ⟨normalInstrument_fieldsFit c j, normalInstrument_wavesFit c j⟩

theorem normaliseSong_channelFits {c : Cfg} {song : Song} {n : Nat} {ch : Channel}
    (there : (normaliseSong c song).channels[n]? = some ch) :
    ChannelFits c (normaliseSong c song) (topPitch c (normaliseSong c song) n) ch := by
  rw [normaliseSong_eq, List.getElem?_mapIdx] at there
  obtain ⟨old, before, rfl⟩ := Option.map_eq_some_iff.mp there
  have mem : old ∈ (sizedSong c song).channels := List.mem_of_getElem? before
  have some : 0 < (clampedSong c song).pitchChannelCount + (clampedSong c song).noiseChannelCount := by
    rw [← resizeCounts_length c.initialSong song]
    exact List.length_pos_of_mem mem
  obtain ⟨octave, ⟨ownInstruments, ownPatterns, ownBars⟩, bars, patterns, instruments⟩ :=
    normalChannel_fits (c := c) (s := sizedSong c song) n (resizeCounts_counted mem) fun patterns => (clampedSong_fits c song).2 patterns some
  exact ⟨octave, ⟨ownInstruments, ownPatterns, ownBars⟩, bars, patterns, instruments⟩

end Sys2Proof.Machine
end

section
set_option Elab.async false
/-! PROOFS. What closes a decode: what no record carries, the legacy reverb and filters (`49_song_codec.md` R410, R412, R430,
R431, R434), the writer's order of tags, and the names of the JSON form (R439, R442). -/

namespace Sys2Proof.Machine

/-! What no record carries (R410, R412). -/

theorem withUnwritten_self (ins : Instrument) : withUnwritten ins ins = ins := by
  simp only [withUnwritten, ite_self]

theorem withUnwritten_withUnwritten (base ins : Instrument) :
    withUnwritten base (withUnwritten base ins) = withUnwritten base ins := by
  by_cases noise : ins.kind = kindNoise <;> by_cases drums : ins.kind = kindDrumset
  · simp only [withUnwritten, if_pos noise, if_pos drums]
  · simp only [withUnwritten, if_pos noise, if_neg drums]
  · simp only [withUnwritten, if_neg noise, if_pos drums]
  · simp only [withUnwritten, if_neg noise, if_neg drums]

theorem withUnwritten_of_drums {base ins : Instrument} (drums : ins.kind = kindDrumset) :
    (withUnwritten base ins).spectrumWave = base.spectrumWave ∧
      (withUnwritten base ins).drumSpectrumWaves = ins.drumSpectrumWaves ∧
      (withUnwritten base ins).drumEnvelopes = ins.drumEnvelopes := ⟨if_pos drums, if_pos drums, if_pos drums⟩

theorem withUnwritten_of_noDrums {base ins : Instrument} (other : ins.kind ≠ kindDrumset) :
    (withUnwritten base ins).spectrumWave = ins.spectrumWave ∧
      (withUnwritten base ins).drumSpectrumWaves = base.drumSpectrumWaves ∧
      (withUnwritten base ins).drumEnvelopes = base.drumEnvelopes := ⟨if_neg other, if_neg other, if_neg other⟩

/-- No record carries what is put back. -/
theorem tagValues_withUnwritten (c : Cfg) (song : Song) (base ins : Instrument) (tag : Byte) :
    tagValues c song (withUnwritten base ins) tag = tagValues c song ins tag := by
  have wave : (if (withUnwritten base ins).kind = kindNoise then (withUnwritten base ins).noiseWave
      else (withUnwritten base ins).chipWave) = if ins.kind = kindNoise then ins.noiseWave else ins.chipWave := by
    by_cases noise : ins.kind = kindNoise <;> simp only [withUnwritten, noise, if_true, if_false]
  have drums : (if tag = drumTag c ∧ (withUnwritten base ins).kind = kindDrumset then
      (withUnwritten base ins).drumEnvelopes else []) =
        if tag = drumTag c ∧ ins.kind = kindDrumset then ins.drumEnvelopes else [] := by
    by_cases drums : ins.kind = kindDrumset <;> simp only [withUnwritten, drums, and_false, if_true, if_false]
  unfold tagValues
  rw [wave, drums]
  rfl

theorem instrumentRecord_withUnwritten (c : Cfg) (x : ShapeContext) (song : Song) (base ins : Instrument) (tag : Byte) :
    instrumentRecord c x song (withUnwritten base ins) tag = instrumentRecord c x song ins tag := by
  have spectrum : (if (withUnwritten base ins).kind = kindDrumset then (withUnwritten base ins).drumSpectrumWaves.flatten
      else (withUnwritten base ins).spectrumWave) =
        if ins.kind = kindDrumset then ins.drumSpectrumWaves.flatten else ins.spectrumWave := by
    by_cases drums : ins.kind = kindDrumset <;> simp only [withUnwritten, drums, if_true, if_false]
  unfold instrumentRecord shapedRecord
  rw [spectrum, tagValues_withUnwritten]
  rfl

theorem withUnwritten_fieldsFit {c : Cfg} {base ins : Instrument} (fits : FieldsFit c ins) :
    FieldsFit c (withUnwritten base ins) := by
  obtain ⟨volume, filter, distortionFilter, effects, distortion, bitcrusherFreq, quantization, pan, reverb, four, operators,
    feedback, pulse, sustain, harmonics⟩ := fits
  exact ⟨volume, filter, distortionFilter, effects, distortion, bitcrusherFreq, quantization, pan, reverb, four, operators,
    feedback, pulse, sustain, harmonics⟩

theorem withUnwritten_wavesFit {c : Cfg} {base ins : Instrument} (default' : WavesFit c base) (fits : WavesFit c ins) :
    WavesFit c (withUnwritten base ins) := by
  by_cases drums : ins.kind = kindDrumset
  · obtain ⟨spectrum, waves, envelopes⟩ := withUnwritten_of_drums (base := base) drums
    exact ⟨spectrum ▸ default'.spectrum, envelopes ▸ fits.envelopes, waves ▸ fits.waves, waves ▸ fits.drums⟩
  · obtain ⟨spectrum, waves, envelopes⟩ := withUnwritten_of_noDrums (base := base) drums
    exact ⟨spectrum ▸ fits.spectrum, envelopes ▸ default'.envelopes, waves ▸ default'.waves, waves ▸ default'.drums⟩

/-- A channel whose mute flag and instruments take from `d` what no record carries. -/
def settledChannel (d ch : Channel) : Channel :=
  { ch with
    muted := d.muted
    instruments := ch.instruments.mapIdx fun j ins => withUnwritten (d.instruments.getD j ins) ins }

theorem settledChannel_self (ch : Channel) : settledChannel ch ch = ch := by
  have instruments : (ch.instruments.mapIdx fun j ins => withUnwritten (ch.instruments.getD j ins) ins) = ch.instruments :=
    mapIdx_eq_self fun j ins there => by rw [List.getD_eq_getElem?_getD, there]; exact withUnwritten_self ins
  rw [settledChannel, instruments]

theorem settledChannel_settledChannel (d ch : Channel) : settledChannel d (settledChannel d ch) = settledChannel d ch := by
  have instruments : (settledChannel d ch).instruments.mapIdx (fun j ins => withUnwritten (d.instruments.getD j ins) ins) =
      (settledChannel d ch).instruments := by
    refine mapIdx_eq_self fun j ins there => ?_
    rw [settledChannel, List.getElem?_mapIdx] at there
    obtain ⟨old, -, rfl⟩ := Option.map_eq_some_iff.mp there
    cases base : d.instruments[j]? with
    | none => simp only [List.getD_eq_getElem?_getD, base, Option.getD_none, withUnwritten_self]
    | some b => simp only [List.getD_eq_getElem?_getD, base, Option.getD_some, withUnwritten_withUnwritten]
  rw [settledChannel, instruments]
  rfl

/-- The channels of the default song at a song's counts. -/
def defaultChannels (c : Cfg) (song : Song) : List Channel := (resizeCounts c.initialSong c.initialSong song).channels

theorem settleUnwritten_eq (c : Cfg) (song : Song) : settleUnwritten c song =
    { song with channels := song.channels.mapIdx fun i ch => settledChannel ((defaultChannels c song).getD i ch) ch } := rfl

theorem settleUnwritten_get {c : Cfg} {song : Song} {n : Nat} {new : Channel}
    (there : (settleUnwritten c song).channels[n]? = some new) : ∃ ch, song.channels[n]? = some ch ∧
      new = settledChannel ((defaultChannels c song).getD n ch) ch := by
  rw [settleUnwritten_eq, List.getElem?_mapIdx] at there
  obtain ⟨ch, before, rfl⟩ := Option.map_eq_some_iff.mp there
  exact ⟨ch, before, rfl⟩

theorem settleUnwritten_settleUnwritten (c : Cfg) (song : Song) :
    settleUnwritten c (settleUnwritten c song) = settleUnwritten c song := by
  have channels : (settleUnwritten c song).channels.mapIdx
      (fun i ch => settledChannel ((defaultChannels c song).getD i ch) ch) = (settleUnwritten c song).channels := by
    refine mapIdx_eq_self fun n new there => ?_
    obtain ⟨ch, -, rfl⟩ := settleUnwritten_get there
    cases base : (defaultChannels c song)[n]? with
    | none => simp only [List.getD_eq_getElem?_getD, base, Option.getD_none, settledChannel_self]
    | some d => simp only [List.getD_eq_getElem?_getD, base, Option.getD_some, settledChannel_settledChannel]
  exact congrArg (fun l => ({ settleUnwritten c song with channels := l } : Song)) channels

/-! The instruments of the default song at other counts. -/

theorem mem_resizeList {α : Type} {n : Nat} {l : List α} {fresh : Nat → α} {a : α} (mem : a ∈ resizeList n l fresh) :
    a ∈ l ∨ ∃ j, a = fresh j := by
  rw [resizeList, List.mem_append] at mem
  obtain mem | mem := mem
  · exact .inl (List.mem_of_mem_take mem)
  · obtain ⟨j, -, rfl⟩ := List.mem_map.mp mem
    exact .inr ⟨_, rfl⟩

/-- Every instrument of a channel has the property. -/
def Instruments (good : Instrument → Prop) (ch : Channel) : Prop := ∀ ins ∈ ch.instruments, good ins

section
variable {good : Instrument → Prop}

theorem instruments_getD {l : List Channel} (j : Nat) (all : ∀ ch ∈ l, Instruments good ch) :
    Instruments good (l.getD j blankChannel) := by
  rw [List.getD_eq_getElem?_getD]
  cases there : l[j]? with
  | none => exact fun ins mem => nomatch mem
  | some ch => exact all ch (List.mem_of_getElem? there)

theorem resizeChannel_instruments {s : Song} {d ch : Channel} (blank : good blankInstrument) (dflt : Instruments good d)
    (own : Instruments good ch) : Instruments good (resizeChannel s d ch) := by
  intro ins mem
  rw [(resizeChannel_lists s d ch).1] at mem
  obtain mem | ⟨j, rfl⟩ := mem_resizeList mem
  · exact own ins mem
  · have head : good (d.instruments.headD blankInstrument) := by
      cases all : d.instruments with
      | nil => exact blank
      | cons i t => exact dflt i (all ▸ List.mem_cons_self)
    rw [List.getD_eq_getElem?_getD]
    cases there : d.instruments[j]? with
    | none => exact head
    | some i => exact dflt i (List.mem_of_getElem? there)

theorem fitChannels_instruments {s : Song} {d l : List Channel} {n : Nat} (blank : good blankInstrument)
    (dflt : ∀ ch ∈ d, Instruments good ch) (own : ∀ ch ∈ l, Instruments good ch) :
    ∀ ch ∈ fitChannels s d l n, Instruments good ch := by
  intro ch mem
  obtain ⟨j, hj, rfl⟩ := List.mem_mapIdx.mp mem
  refine resizeChannel_instruments blank (instruments_getD j dflt) ?_
  obtain old | ⟨i, new⟩ := mem_resizeList (List.getElem_mem hj)
  · exact own _ old
  · rw [new]
    exact instruments_getD i dflt

end

theorem defaultChannels_wavesFit (c : Cfg) (song : Song) : ∀ ch ∈ defaultChannels c song, Instruments (WavesFit c) ch := by
  have all : ∀ ch ∈ c.initialSong.channels, Instruments (WavesFit c) ch := by
    intro ch mem ins hi
    obtain ⟨top, legal⟩ := songLegal_mem (initialSong_legal c) mem
    simp only [channelLegal, Bool.and_eq_true, and_assoc, List.all_eq_true] at legal
    obtain ⟨-, -, instruments, -⟩ := legal
    exact instrumentLegal_wavesFit (instruments ins hi)
  intro ch mem
  rw [defaultChannels, resizeCounts_channels, List.mem_append] at mem
  obtain mem | mem := mem <;> refine fitChannels_instruments (blankInstrument_wavesFit c) ?_ ?_ ch mem
  · exact fun ch mem => all ch (List.mem_of_mem_take mem)
  · exact fun ch mem => all ch (List.mem_of_mem_take mem)
  · exact fun ch mem => all ch (List.mem_of_mem_drop mem)
  · exact fun ch mem => all ch (List.mem_of_mem_drop mem)

theorem settledChannel_fits {c : Cfg} {s : Song} {top : Nat} {d ch : Channel} (dflt : Instruments (WavesFit c) d)
    (fits : ChannelFits c s top ch) : ChannelFits c s top (settledChannel d ch) where
  octave := fits.octave
  counted := ⟨(List.length_mapIdx).trans fits.counted.instruments, fits.counted.patterns, fits.counted.bars⟩
  bars := fits.bars
  patterns := fits.patterns
  instruments ins mem := by
    obtain ⟨j, hj, rfl⟩ := List.mem_mapIdx.mp mem
    obtain ⟨fields, waves⟩ := fits.instruments _ (List.getElem_mem hj)
    refine ⟨withUnwritten_fieldsFit fields, withUnwritten_wavesFit ?_ waves⟩
    rw [List.getD_eq_getElem?_getD]
    cases there : d.instruments[j]? with
    | none => exact waves
    | some i => exact dflt i (List.mem_of_getElem? there)

/-- Normalised and settled, each channel is in its ranges. -/
theorem settled_channelFits {c : Cfg} {song : Song} {n : Nat} {ch : Channel}
    (there : (settleUnwritten c (normaliseSong c song)).channels[n]? = some ch) :
    ChannelFits c (normaliseSong c song) (topPitch c (normaliseSong c song) n) ch := by
  obtain ⟨old, before, rfl⟩ := settleUnwritten_get there
  have fits := normaliseSong_channelFits before
  refine settledChannel_fits ?_ fits
  rw [List.getD_eq_getElem?_getD]
  cases base : (defaultChannels c (normaliseSong c song))[n]? with
  | none => exact fun ins mem => (fits.instruments ins mem).2
  | some d => exact defaultChannels_wavesFit _ _ d (List.mem_of_getElem? base)

/-! What closes a decode (R417, R430, R434). -/

theorem finishDecode_eq (c : Cfg) (k : Codec) : finishDecode c k = { k with
    song := settleUnwritten c (normaliseSong c (k.legacyReverb.elim (k.legacy.foldl (translateLegacy c) k.song)
      (transferReverb (k.legacy.foldl (translateLegacy c) k.song))))
    legacy := [], legacyReverb := none, status := .done } := by
  cases reverb : k.legacyReverb <;> simp only [finishDecode, reverb, translatePending, Option.elim]

theorem finishDecode_normal (c : Cfg) (k : Codec) :
    ∃ song, (finishDecode c k).song = settleUnwritten c (normaliseSong c song) := ⟨_, by rw [finishDecode_eq]⟩

/-- The names of the song that no closing step changes. -/
theorem finishDecode_names (c : Cfg) (k : Codec) : (finishDecode c k).song.scale = k.song.scale ∧
    (finishDecode c k).song.key = k.song.key ∧ (finishDecode c k).song.rhythm = k.song.rhythm := by
  have translated {α : Type} (g : Song → α) (keep : ∀ (s : Song) at' f, g (modifyInstrument s at' f) = g s) :
      g (k.legacy.foldl (translateLegacy c) k.song) = g k.song :=
    foldl_keeps (translateLegacy c) g (fun s _ => keep s _ _) k.legacy k.song
  rw [finishDecode_eq]
  cases k.legacyReverb <;>
    exact ⟨translated Song.scale fun _ _ _ => rfl, translated Song.key fun _ _ _ => rfl, translated Song.rhythm fun _ _ _ => rfl⟩

/-! Legacy filters (R431). -/

theorem translateLegacy_eq {c : Cfg} {song : Song} {l : LegacyFilter} {ch : Channel} {ins : Instrument}
    (channel : song.channels[l.channel]? = some ch) (instrument : ch.instruments[l.instrument]? = some ins) :
    translateLegacy c song l = { song with channels := (song.channels.set l.channel
      ({ ch with instruments := (ch.instruments.set l.instrument ({ ins with
        filter := legacyFilterPoint c (min 10 (l.cutoff.getD c.codec.legacyCutoffDefault))
          (min 7 (l.resonance.getD c.codec.legacyResonanceDefault)) (l.envelope.getD ins.filterEnvelope) })) })) } := by
  unfold translateLegacy modifyInstrument
  simp only [List.modify_eq_set_getElem?, channel, instrument, Option.map_eq_map, Option.map_some, Option.getD_some]
  rfl

theorem nearestSetting_lt {count : Nat} (some : 0 < count) (position : Num) : nearestSetting count position < count := by
  unfold nearestSetting
  omega

/-- A filter that is not flat becomes one lowpass point, in the ranges of R51. -/
theorem legacyFilterPoint_of_not_flat {c : Cfg} {cutoff resonance envelope : Nat}
    (point : ¬ (c.codec.legacyIsResonant resonance = false ∧ (c.envelopes.get envelope).kind = 0 ∧ cutoff = 10)) :
    ∃ freq gain, freq < c.filterFreqRange ∧ gain < c.filterGainRange ∧
      legacyFilterPoint c cutoff resonance envelope = [⟨0, freq, gain⟩] := by
  have steep : ¬ (!c.codec.legacyIsResonant resonance && (c.envelopes.get envelope).kind == 0 &&
      cutoff == legacyCutoffMax) = true := by
    simpa [legacyCutoffMax, and_assoc] using point
  refine ⟨_, _, ?_, ?_, if_neg steep⟩ <;> split <;> exact nearestSetting_lt (Nat.succ_pos _) _

theorem legacyFilterPoint_of_flat {c : Cfg} {cutoff resonance envelope : Nat}
    (flat : c.codec.legacyIsResonant resonance = false ∧ (c.envelopes.get envelope).kind = 0 ∧ cutoff = 10) :
    legacyFilterPoint c cutoff resonance envelope = [] := by
  obtain ⟨resonant, kind, rfl⟩ := flat
  exact if_pos (by rw [resonant, kind]; rfl)

/-! The writer's order (R442) and the names of the JSON form (R438, R439). -/

theorem perm_of_sameTags {l m : List Byte} (same : sameTags l m = true) : l.Perm m := by
  simp only [sameTags, Bool.and_eq_true, beq_iff_eq, List.all_eq_true] at same
  obtain ⟨count, each⟩ := same
  exact ((List.subperm_ext_iff.mpr fun t mem => Nat.le_of_eq (each t mem).symm).perm_of_length_le (Nat.le_of_eq count)).symm

theorem songTags_order (c : Cfg) : (songTags c).Perm plainSongTags ∧ (songTags c).idxOf 0x6E#8 < (songTags c).idxOf 0x6F#8 := by
  simp only [songTags]
  split
  next h =>
    simp only [Bool.and_eq_true, decide_eq_true_eq] at h
    exact ⟨perm_of_sameTags h.1, h.2⟩
  next => exact ⟨List.Perm.refl _, by decide⟩

theorem instrumentTags_perm (c : Cfg) : (instrumentTags c).Perm (plainInstrumentTags c) := by
  simp only [instrumentTags]
  split
  next same => exact perm_of_sameTags same
  next => exact List.Perm.refl _

theorem expressionOfVolume_num {v : Nat} (h : v ≤ 100) : expressionOfVolume (.num v 0) = (6 * v + 100) / 200 := by
  show min 3 (roundedQuotient (v * 10 ^ 0) 3 100).toNat = _
  rw [roundedQuotient, if_neg (by omega)]
  simp only [pow_zero, mul_one, Int.natAbs_natCast, Int.toNat_natCast]
  omega

/-- A name that stands for itself. -/
theorem lookUpName_plain {k : CodecCfg} {names : List (List Byte)} {name : List Byte} (dflt : Nat)
    (plain : ∀ p ∈ nameAliases k, p.1 ≠ name) (unknown : name ∉ names) : lookUpName k names dflt name = dflt := by
  have noAlias : (nameAliases k).find? (fun p => p.1 == name) = none :=
    List.find?_eq_none.mpr fun p mem => by simpa using plain p mem
  have noName : names.findIdx? (· == name) = none :=
    List.findIdx?_eq_none_iff.mpr fun n mem => beq_false_of_ne fun eq => unknown (eq ▸ mem)
  simp only [lookUpName, noAlias, Option.map_none, Option.getD_none, noName]

theorem lookUpName_alias {k : CodecCfg} {names : List (List Byte)} {i : Nat} (dflt : Nat)
    (known : names.findIdx? (· == ascii "dbl harmonic :)") = some i) : lookUpName k names dflt (ascii "romani :)") = i := by
  simp only [lookUpName, nameAliases, List.find?_cons, beq_self_eq_true, Option.map_some, Option.getD_some, known]

end Sys2Proof.Machine

namespace Sys2Proof.Proofs

open Sys2Proof.Machine

/-- Settles O57: the records by the setters of the song, the frame and the writer by their phases, the close of a decode by
what normalisation and the default song leave. -/
theorem songTags : Obligations.SongTags := by
  refine ⟨fun s v vs next records => ?songLevel,
    fun s pin turn => ⟨fun phase blanks rest i text blank ends hi => ?framing, ?recordsEnd,
    fun phase => ⟨fun none => step_encoding pin turn phase (writeText_fails none),
      fun bits written => step_encoding pin turn phase (writeText_writes written)⟩,
    step_exporting pin turn, step_resting pin turn⟩,
    fun c song => normaliseSong_self,
    fun c song => ⟨rfl, List.length_mapIdx, settleUnwritten_settleUnwritten c song, fun n ch dflt there default' => ?settled⟩,
    fun c song x base ins tag => ⟨instrumentRecord_withUnwritten c x song base ins tag, rfl,
      fun noise => ⟨if_pos noise, if_pos noise⟩, fun other => ⟨if_neg other, if_neg other⟩, withUnwritten_of_drums,
      withUnwritten_of_noDrums⟩,
    fun song g => ⟨rfl, List.length_mapIdx, fun n ch there => ?reverb⟩,
    fun c song l ch ins channel instrument => ⟨fun flat => ?flat, fun point => ?point⟩,
    fun c name => ⟨(songTags_order c).1, (songTags_order c).2, instrumentTags_perm c, by decide, fun v => expressionOfVolume_num,
      fun names d i => lookUpName_alias d, fun plain => ⟨fun unknown => ?transition, fun i unknown expert => ?scale⟩⟩⟩
  case songLevel =>
    refine ⟨putsSong _ records rfl rfl rfl, putsSong _ records rfl rfl rfl, putsSong _ records rfl rfl rfl, putsSong _ records rfl rfl rfl,
      putsSong _ records rfl rfl rfl, putsSong _ records rfl rfl rfl, putsSong _ records rfl rfl rfl, fun w ws more => ?channels,
      putsSong_index (fun v => { s.codec.song with key := v }) records rfl rfl rfl,
      putsSong_index (fun v => { s.codec.song with scale := v }) records rfl rfl rfl,
      putsSong_index (fun v => { s.codec.song with rhythm := v }) records rfl rfl rfl, fun modern has => ?octaves,
      fun old has => exec_record records rfl ((readReverb_old (e := 0) old).1 has),
      fun op tag e code shaped cut => exec_of_payload_error records code shaped cut⟩
    case channels => subst more; exact putsSong _ records rfl rfl rfl
    case octaves =>
      refine ⟨_, putsSong _ records rfl rfl (if_neg (not_beforeVersion modern)) has, rfl, List.length_mapIdx, fun i ch there => ?_⟩
      rw [List.getElem?_mapIdx, there]
      rfl
  case framing =>
    have start : frameStart s.codec.text = i := by rw [text, frameStart_append blank ends, hi]
    exact ⟨fun nothing => step_framing pin turn phase (readFrame_empty start nothing),
      fun ch v under symbol least most => step_framing pin turn phase (readFrame_version start under symbol least most),
      fun ch under noBrace noVersion => step_framing pin turn phase (readFrame_noVersion start under noBrace noVersion),
      fun brace none => step_framing pin turn phase (readFrame_noJson start brace none),
      fun j brace parsed => step_framing pin turn phase (readFrame_json start brace parsed)⟩
  case recordsEnd =>
    intro phase nothing
    have names := finishDecode_names Config.cfg s.codec
    obtain ⟨song, normal⟩ := finishDecode_normal Config.cfg s.codec
    obtain ⟨tempo, beats, bars, loop, patterns, instruments, pitch, noise⟩ := normaliseSong_ranged Config.cfg song
    refine ⟨(finishDecode Config.cfg s.codec).song, step_records_end pin turn phase nothing, ?_, ?_, names, ?_, ?_, ?_⟩
    · cases reverb : s.codec.legacyReverb <;> rw [finishDecode_eq, reverb] <;> rfl
    · rw [normal]
      exact ⟨tempo.1, tempo.2, beats.1, beats.2, bars.1, bars.2, loop.1, loop.2, patterns, instruments, pitch, noise⟩
    · rw [normal]
      intro ch mem ins hi
      obtain ⟨n, there⟩ := List.getElem?_of_mem mem
      obtain ⟨fields, waves⟩ := (settled_channelFits there).instruments ins hi
      exact ⟨fields.volume, fields.filter, fields.distortionFilter, fields.effects, fields.distortion, fields.bitcrusherFreq,
        fields.quantization, fields.pan, fields.reverb, fields.four, fields.operators, fields.feedback, fields.pulse,
        fields.sustain, waves.spectrum, fields.harmonics, waves.envelopes, waves.waves, waves.drums⟩
    · rw [normal]
      exact List.length_mapIdx.trans (normaliseSong_length ..)
    · rw [normal]
      intro n ch there
      obtain ⟨octave, ⟨ownInstruments, ownPatterns, ownBars⟩, bars, patterns, -⟩ := settled_channelFits there
      exact ⟨octave, ownBars, bars, ownInstruments, ownPatterns, patterns⟩
  case settled =>
    refine ⟨settledChannel dflt ch, ?_, rfl, List.length_mapIdx, fun j ins base own other => ?_⟩
    · rw [settleUnwritten_eq, List.getElem?_mapIdx, there, Option.map_some, List.getD_eq_getElem?_getD, defaultChannels, default',
        Option.getD_some]
    · rw [settledChannel, List.getElem?_mapIdx, own, Option.map_some, List.getD_eq_getElem?_getD, other, Option.getD_some]
  case reverb =>
    rw [transferReverb, List.getElem?_mapIdx, there]
    rfl
  case flat => rw [translateLegacy_eq channel instrument, legacyFilterPoint_of_flat flat]
  case point =>
    obtain ⟨freq, gain, freqRange, gainRange, eq⟩ := legacyFilterPoint_of_not_flat point
    exact ⟨freq, gain, freqRange, gainRange, by rw [translateLegacy_eq channel instrument, eq]⟩
  case transition => rw [lookUpTransition, lookUpName_plain _ plain unknown]
  case scale => rw [lookUpScale, lookUpName_plain _ plain unknown, defaultScale, expert, Option.getD_some]

end Sys2Proof.Proofs
end

section
set_option Elab.async false
/-! SUPPORT. The pattern bit-stream: a shape, a shape index, a pitch, a chord and its bends are read as they were written
(`49_song_codec.md` R421 to R425). -/

namespace Sys2Proof.Machine

/-- What was written reads as the value, whatever bits follow. -/
def ReadsAs {α : Type} (written : Option (List Bool)) (read : List Bool → Except Nat (α × List Bool)) (a : α) : Prop :=
  ∃ bits, written = some bits ∧ ∀ rest, read (bits ++ rest) = .ok (a, rest)

theorem writePinCount_reads {n : Nat} (h : 1 ≤ n) : ReadsAs (writePinCount n) readPinCount n := writeLongTail_reads h

theorem writePartDuration_reads {n : Nat} (h : 1 ≤ n) : ReadsAs (writePartDuration n) readPartDuration n := writeLongTail_reads h

/-! Shapes (R422). -/

/-- Truncated unary. -/
theorem readSize_written {size j n : Nat} (h : j ≤ n) (rest : List Bool) :
    readSize size n (List.replicate j true ++ (if j < n then [false] else []) ++ rest) = .ok (size + j, rest) := by
  induction j generalizing size n with
  | zero =>
    cases n with
    | zero => rfl
    | succ n => rfl
  | succ j ih =>
    cases n with
    | zero => omega
    | succ n =>
      have step := ih (size := size + 1) (Nat.le_of_succ_le_succ h)
      simp only [Nat.add_lt_add_iff_right, List.replicate_succ, List.cons_append, readSize, if_true]
      rw [step, Nat.add_assoc, Nat.add_comm 1]

/-- A pin of a shape has a code. -/
def PinFits (p : ShapePin) : Prop := 1 ≤ p.duration ∧ p.expression < 4

theorem writeShapePins_reads {pins : List ShapePin} (fits : ∀ p ∈ pins, PinFits p) :
    ReadsAs (writeShapePins pins) (readShapePins false pins.length) pins := by
  induction pins with
  | nil => exact ⟨[], rfl, fun _ => rfl⟩
  | cons p t ih =>
    obtain ⟨long, small⟩ := fits p List.mem_cons_self
    obtain ⟨duration, durationWritten, durationReads⟩ := writePartDuration_reads long
    obtain ⟨more, moreWritten, moreReads⟩ := ih fun q hq => fits q (List.mem_cons_of_mem _ hq)
    refine ⟨p.bend :: duration ++ writeBits 2 p.expression ++ more, by simp only [writeShapePins, durationWritten, moreWritten],
      fun rest => ?_⟩
    have bend : decide (p.bend.toNat = 1) = p.bend := by cases p.bend <;> rfl
    simp only [List.cons_append, List.append_assoc, List.length_cons, readShapePins, readBits_one, readDuration,
      Bool.false_eq_true, if_false, durationReads, readBits_writeBits (k := 2) small, moreReads, Except.map, bend]

/-- A shape has a code. -/
structure ShapeFits (c : Cfg) (s : Shape) : Prop where
  some : 1 ≤ s.size
  size : s.size ≤ c.maxChordSize
  expression : s.expression < 4
  bent : 1 ≤ s.pins.length
  pins : ∀ p ∈ s.pins, PinFits p

theorem writeShape_reads {c : Cfg} {s : Shape} (fits : ShapeFits c s) : ReadsAs (writeShape c s) (readShape c false) s := by
  obtain ⟨count, countWritten, countReads⟩ := writePinCount_reads fits.bent
  obtain ⟨pins, pinsWritten, pinsReads⟩ := writeShapePins_reads fits.pins
  have size := fits.size
  have some := fits.some
  have stops : (if s.size < c.maxChordSize then [false] else []) =
      if s.size - 1 < c.maxChordSize - 1 then [false] else [] := by
    congr 1
    exact propext ⟨fun h => by omega, fun h => by omega⟩
  refine ⟨_, by simp only [writeShape, countWritten, pinsWritten]; rfl, fun rest => ?_⟩
  rw [stops, List.append_assoc, List.append_assoc, List.append_assoc]
  simp only [readShape, readSize_written (size := 1) (j := s.size - 1) (n := c.maxChordSize - 1) (by omega), countReads,
    readBits_writeBits (k := 2) fits.expression, pinsReads, Except.map, Nat.add_sub_cancel' some]

/-! The index of a recent shape (R421). -/

/-- No codeword of an index below 10 begins another one. -/
theorem shapeIndexCode_prefixFree (k : CodecCfg) {i j : Nat} (hi : i < 10) (hj : j < 10)
    (begins : shapeIndexCode k i <+: shapeIndexCode k j) : i = j := by
  have longTail : prefixFree (fun i => longTailFrom (i + 1) 0 i) = true := by decide
  have free : prefixFree (shapeIndexCode k) = true := by
    by_cases own : prefixFree k.writeShapeIndex = true
    · have : shapeIndexCode k = k.writeShapeIndex := funext fun i => if_pos own
      rwa [this]
    · have : shapeIndexCode k = fun i => longTailFrom (i + 1) 0 i := funext fun i => if_neg own
      rwa [this]
  simp only [prefixFree, List.all_eq_true, List.mem_range, Bool.or_eq_true, beq_iff_eq, Bool.not_eq_true'] at free
  obtain eq | no := free i hi j hj
  · exact eq
  · rw [List.isPrefixOf_iff_prefix.mpr begins] at no
    nomatch no

theorem readShapeIndex_written (k : CodecCfg) {i : Nat} (hi : i < 10) (rest : List Bool) :
    readShapeIndex k (shapeIndexCode k i ++ rest) = some (i, rest) := by
  have found : (List.range recentShapes).find? (fun j => (shapeIndexCode k j).isPrefixOf (shapeIndexCode k i ++ rest)) =
      some i := by
    rw [List.find?_range_eq_some]
    refine ⟨List.isPrefixOf_iff_prefix.mpr (List.prefix_append ..), List.mem_range.mpr hi, fun j hj => ?_⟩
    rw [Bool.not_eq_true']
    refine Bool.eq_false_iff.mpr fun begins => ?_
    have small : j < 10 := Nat.lt_trans hj hi
    obtain h | h := List.prefix_or_prefix_of_prefix (List.isPrefixOf_iff_prefix.mp begins) (List.prefix_append _ rest)
    · exact absurd (shapeIndexCode_prefixFree k small hi h) (Nat.ne_of_lt hj)
    · exact absurd (shapeIndexCode_prefixFree k hi small h).symm (Nat.ne_of_lt hj)
  rw [readShapeIndex, found, Option.map_some, List.drop_left]

/-! Steps over recent pitches (R424). -/

/-- How many of `n` pitches from `a` on are not recent. -/
def freshCount (recent : List Nat) (a n : Nat) : Nat := ((List.range' a n).filter fun y => !recent.contains y).length

section
variable {recent : List Nat} {a n : Nat}

theorem freshCount_succ_low : freshCount recent a (n + 1) =
    (if recent.contains a then 0 else 1) + freshCount recent (a + 1) n := by
  rw [freshCount, List.range'_succ, List.filter_cons]
  cases recent.contains a
  · simp only [Bool.not_false, if_true, List.length_cons, Bool.false_eq_true, if_false, freshCount]
    omega
  · simp only [Bool.not_true, Bool.false_eq_true, if_false, if_true, Nat.zero_add, freshCount]

theorem freshCount_succ_high : freshCount recent a (n + 1) =
    freshCount recent a n + if recent.contains (a + n) then 0 else 1 := by
  rw [freshCount, List.range'_1_concat, List.filter_append, List.length_append, List.filter_cons]
  cases recent.contains (a + n) <;> simp [freshCount]

/-- The pitches of an interval are the fresh ones and, at most, all the recent ones. -/
theorem le_freshCount_add (recent : List Nat) (a n : Nat) : n ≤ freshCount recent a n + recent.length := by
  have split := List.length_eq_length_filter_add (l := List.range' a n) fun y => !recent.contains y
  have old : ((List.range' a n).filter fun y => !!recent.contains y).length ≤ recent.length := by
    refine (List.subperm_of_subset ((List.nodup_range' (step := 1) (by omega)).filter _) fun y hy => ?_).length_le
    simpa using (List.mem_filter.mp hy).2
  rw [List.length_range'] at split
  unfold freshCount
  omega

theorem stepPitch_zero (recent : List Nat) (up : Bool) (fuel : Nat) (x : Int) : stepPitch recent up fuel 0 x = x := by
  cases fuel <;> rfl

theorem stepPitch_up {fuel : Nat} (fresh : n ≠ 0 → recent.contains (a + n) = false) (enough : n ≤ fuel) :
    stepPitch recent true fuel (freshCount recent (a + 1) n) a = a + n := by
  induction n generalizing a fuel with
  | zero => exact (stepPitch_zero ..).trans (Int.add_zero _).symm
  | succ n ih =>
    obtain ⟨fuel, rfl⟩ : ∃ f, fuel = f + 1 := ⟨fuel - 1, by omega⟩
    have target : recent.contains (a + (n + 1)) = false := fresh (Nat.succ_ne_zero n)
    have next := ih (a := a + 1) (fuel := fuel) (fun _ => by rwa [Nat.add_assoc, Nat.add_comm 1]) (by omega)
    have some : ∃ d, freshCount recent (a + 1) (n + 1) = d + 1 := by
      rw [freshCount_succ_high, Nat.add_assoc, Nat.add_comm 1, target]
      exact ⟨_, rfl⟩
    obtain ⟨d, hd⟩ := some
    have low := freshCount_succ_low (recent := recent) (a := a + 1) (n := n)
    have under : 0 ≤ (a : Int) + 1 := by omega
    have name : ((a : Int) + 1).toNat = a + 1 := by omega
    rw [hd, stepPitch]
    simp only [if_true, under, true_and, name]
    rw [hd] at low
    have left : (if recent.contains (a + 1) = true then d + 1 else d) = freshCount recent (a + 1 + 1) n := by
      split at low
      next old => rw [if_pos old, low, Nat.zero_add]
      next new => rw [if_neg new]; omega
    rw [left, ← Nat.cast_succ, Nat.succ_eq_add_one, next]
    push_cast
    ring

theorem stepPitch_down {fuel : Nat} (fresh : n ≠ 0 → recent.contains a = false) (enough : n ≤ fuel) :
    stepPitch recent false fuel (freshCount recent a n) ((a + n : Nat) : Int) = a := by
  induction n generalizing fuel with
  | zero => exact stepPitch_zero ..
  | succ n ih =>
    obtain ⟨fuel, rfl⟩ : ∃ f, fuel = f + 1 := ⟨fuel - 1, by omega⟩
    have target : recent.contains a = false := fresh (Nat.succ_ne_zero n)
    have next := ih (fuel := fuel) (fun _ => target) (by omega)
    have some : ∃ d, freshCount recent a (n + 1) = d + 1 := by
      rw [freshCount_succ_low, target]
      exact ⟨freshCount recent (a + 1) n, Nat.add_comm ..⟩
    obtain ⟨d, hd⟩ := some
    have high := freshCount_succ_high (recent := recent) (a := a) (n := n)
    have below : ((a + (n + 1) : Nat) : Int) - 1 = ((a + n : Nat) : Int) := by omega
    rw [hd, stepPitch]
    simp only [Bool.false_eq_true, if_false, below, Int.natCast_nonneg, true_and, Int.toNat_natCast]
    rw [hd] at high
    have left : (if recent.contains (a + n) = true then d + 1 else d) = freshCount recent a n := by
      split at high
      next old => rw [if_pos old]; omega
      next new => rw [if_neg new]; omega
    rw [left, next]

end

theorem freshCount_eq (recent : List Nat) (a n : Nat) :
    ((List.range n).filter (fun i => !recent.contains (a + i))).length = freshCount recent a n := by
  rw [freshCount, List.range'_eq_map_range, List.filter_map, List.length_map]
  rfl

/-- The interval to a pitch that is not recent leads to it. -/
theorem stepPitch_pitchDistance {recent : List Nat} {from' x : Nat} (known : recent.contains from' = true)
    (new : recent.contains x = false) : pitchDistance recent from' x ≠ 0 ∧
      stepPitch recent (decide (0 < pitchDistance recent from' x))
        ((pitchDistance recent from' x).natAbs + recent.length) (pitchDistance recent from' x).natAbs from' = x := by
  have ne : from' ≠ x := by
    rintro rfl
    rw [known] at new
    nomatch new
  rcases Nat.lt_or_gt_of_ne ne with up | down
  · obtain ⟨n, rfl⟩ := Nat.exists_eq_add_of_lt up
    have count : pitchDistance recent from' (from' + n + 1) = (freshCount recent (from' + 1) (n + 1) : Int) := by
      rw [pitchDistance, if_pos up, Nat.add_assoc, Nat.add_sub_cancel_left]
      exact congrArg Nat.cast (freshCount_eq recent (from' + 1) (n + 1))
    have some : 0 < freshCount recent (from' + 1) (n + 1) := by
      rw [freshCount_succ_high, Nat.add_right_comm, new]
      exact Nat.succ_pos _
    have enough := le_freshCount_add recent (from' + 1) (n + 1)
    rw [count]
    refine ⟨by omega, ?_⟩
    rw [decide_eq_true (by omega), Int.natAbs_natCast, stepPitch_up (n := n + 1) (fun _ => new) enough]
    push_cast
    ring
  · obtain ⟨n, rfl⟩ := Nat.exists_eq_add_of_lt down
    have count : pitchDistance recent (x + n + 1) x = -(freshCount recent x (n + 1) : Int) := by
      rw [pitchDistance, if_neg (by omega), Nat.add_assoc, Nat.add_sub_cancel_left]
      exact congrArg (fun m : Nat => -(m : Int)) (freshCount_eq recent x (n + 1))
    have some : 0 < freshCount recent x (n + 1) := by
      rw [freshCount_succ_low, new]
      exact Nat.lt_of_lt_of_le Nat.one_pos (Nat.le_add_right ..)
    have enough := le_freshCount_add recent x (n + 1)
    rw [count]
    refine ⟨by omega, ?_⟩
    rw [decide_eq_false (by omega), Int.natAbs_neg, Int.natAbs_natCast]
    exact stepPitch_down (fun _ => new) enough

/-! Pitches (R424). -/

/-- The last pitch is a recent one, of at most eight. -/
structure HistoryFits (h : PitchHistory) : Prop where
  last : h.last ∈ h.recent
  few : h.recent.length ≤ 8

theorem pushFront_length {α : Type} (limit : Nat) (v : α) (l : List α) : (pushFront limit v l).length ≤ limit :=
  List.length_take_le ..

/-- A history whose last pitch stands first in the list. -/
theorem historyFits_pushFront (x : Nat) (l : List Nat) : HistoryFits ⟨x, pushFront recentPitches x l⟩ :=
  ⟨List.mem_cons_self, pushFront_length ..⟩

/-- An entry that is not taken out stays among the first. -/
theorem mem_take_eraseIdx {α : Type} {l : List α} {i m : Nat} {x y : α} (there : l[i]? = some y) (ne : x ≠ y)
    (mem : x ∈ l.take m) : x ∈ (l.eraseIdx i).take m := by
  induction l generalizing i m with
  | nil => simp at mem
  | cons z t ih =>
    cases m with
    | zero => simp at mem
    | succ m =>
      rw [List.take_succ_cons, List.mem_cons] at mem
      cases i with
      | zero =>
        obtain rfl : z = y := Option.some.inj there
        obtain eq | mem := mem
        · exact absurd eq ne
        · exact List.take_subset_take_left _ (Nat.le_succ m) mem
      | succ i =>
        rw [List.eraseIdx_cons_succ, List.take_succ_cons, List.mem_cons]
        exact mem.imp_right (ih there)

theorem mem_take_pushFront {x y : Nat} {l : List Nat} {m : Nat} (few : m + 1 ≤ 8) (mem : x = y ∨ x ∈ l.take m) :
    x ∈ (pushFront recentPitches y l).take (m + 1) := by
  rw [pushFront, List.take_take, Nat.min_eq_left (show m + 1 ≤ recentPitches from few), List.take_succ_cons, List.mem_cons]
  exact mem

/-- A pitch that was written, and what the history keeps. -/
structure PitchStep (k : CodecCfg) (top : Nat) (h : PitchHistory) (x : Nat) (bits : List Bool) (h' : PitchHistory) : Prop where
  written : writePitch k h x = some (bits, h')
  reads : ∀ rest, readPitch k top h (bits ++ rest) = .ok (x, h', rest)
  fits : HistoryFits h'
  first : x ∈ h'.recent.take 1
  keeps : ∀ y m, m + 1 ≤ 8 → y ∈ h.recent.take m → y ∈ h'.recent.take (m + 1)

theorem writePitch_reads (k : CodecCfg) {top x : Nat} {h : PitchHistory} (fits : HistoryFits h) (inside : x ≤ top) :
    ∃ bits h', PitchStep k top h x bits h' := by
  cases found : h.recent.findIdx? (· == x) with
  | some i =>
    have there : h.recent[i]? = some x := by
      obtain ⟨hi, eq, -⟩ := List.findIdx?_eq_some_iff_getElem.mp found
      rw [List.getElem?_eq_getElem hi, beq_iff_eq.mp eq]
    have small : i < 2 ^ 3 := Nat.lt_of_lt_of_le (List.getElem?_eq_some_iff.mp there).1 fits.few
    refine ⟨true :: writeBits 3 i, ⟨x, pushFront recentPitches x (h.recent.eraseIdx i)⟩, by simp only [writePitch, found],
      fun rest => ?_, historyFits_pushFront .., mem_take_pushFront (m := 0) (by decide) (.inl rfl), fun y m few mem => ?_⟩
    · simp only [List.cons_append, readPitch, readBits_one, Bool.toNat_true, readBits_writeBits small, there, if_pos inside]
    · by_cases eq : y = x
      · exact mem_take_pushFront few (.inl eq)
      · exact mem_take_pushFront few (.inr (mem_take_eraseIdx there eq mem))
  | none =>
    have new : h.recent.contains x = false := by
      rw [← Bool.not_eq_true, List.contains_iff_mem]
      exact fun mem => by simpa using List.findIdx?_eq_none_iff.mp found x mem
    obtain ⟨far, leads⟩ := stepPitch_pitchDistance (List.contains_iff_mem.mpr fits.last) new
    obtain ⟨bits, written, reads⟩ := writePitchInterval_reads k far
    refine ⟨false :: bits, ⟨x, pushFront recentPitches x h.recent⟩, by simp only [writePitch, found, written, Option.map_some],
      fun rest => ?_, historyFits_pushFront .., mem_take_pushFront (m := 0) (by decide) (.inl rfl), fun y m few mem => ?_⟩
    · have range : 0 ≤ (x : Int) ∧ (x : Int) ≤ top := by omega
      simp only [List.cons_append, readPitch, readBits_one, Bool.toNat_false, reads, leads, if_pos range, Int.toNat_natCast]
    · exact mem_take_pushFront few (.inr mem)

/-- Pitches that were written, and what the history keeps. -/
structure PitchSteps (k : CodecCfg) (top : Nat) (h : PitchHistory) (xs : List Nat) (bits : List Bool) (h' : PitchHistory) :
    Prop where
  written : writePitches k h xs = some (bits, h')
  reads : ∀ rest, readPitches k top xs.length h (bits ++ rest) = .ok (xs, h', rest)
  fits : HistoryFits h'
  keeps : ∀ y m, m + xs.length ≤ 8 → y ∈ h.recent.take m → y ∈ h'.recent.take (m + xs.length)
  first : ∀ x t, xs = x :: t → xs.length ≤ 8 → x ∈ h'.recent

theorem writePitches_reads (k : CodecCfg) {top : Nat} {h : PitchHistory} {xs : List Nat} (fits : HistoryFits h)
    (inside : ∀ x ∈ xs, x ≤ top) : ∃ bits h', PitchSteps k top h xs bits h' := by
  induction xs generalizing h with
  | nil => exact ⟨[], h, rfl, fun _ => rfl, fits, fun _ _ _ mem => mem, nofun⟩
  | cons x xs ih =>
    obtain ⟨bits, h1, step⟩ := writePitch_reads k fits (inside x List.mem_cons_self)
    obtain ⟨more, h2, steps⟩ := ih step.fits fun y hy => inside y (List.mem_cons_of_mem _ hy)
    refine ⟨bits ++ more, h2, by simp only [writePitches, step.written, steps.written, Option.map_some], fun rest => ?_,
      steps.fits, fun y m few mem => ?_, fun y t eq few => ?_⟩
    · simp only [List.append_assoc, List.length_cons, readPitches, step.reads, steps.reads, Except.map]
    · rw [List.length_cons] at few ⊢
      have := steps.keeps y (m + 1) (by omega) (step.keeps y m (by omega) mem)
      rwa [Nat.add_assoc, Nat.add_comm 1] at this
    · cases eq
      rw [List.length_cons] at few
      exact List.mem_of_mem_take (steps.keeps x 1 (by omega) step.first)

end Sys2Proof.Machine
end

section
set_option Elab.async false
/-! SUPPORT. The pattern bit-stream: notes, rests, patterns and channels are read as they were written, and a `p` record
stores them (`49_song_codec.md` R419 to R425, R441). -/

namespace Sys2Proof.Machine

/-! The shape of a legal note (R422). -/

section
variable {p : Pin} {t : List Pin}

theorem shapePins_length : (shapePins p t).length = t.length := by
  induction t generalizing p with
  | nil => rfl
  | cons q t ih => rw [shapePins, List.length_cons, ih, List.length_cons]

theorem shapePins_fit (rise : pinsRise (p :: t) = true) (small : ∀ q ∈ t, q.expression ≤ 3) :
    ∀ s ∈ shapePins p t, PinFits s := by
  induction t generalizing p with
  | nil => exact nofun
  | cons q t ih =>
    simp only [pinsRise, Bool.and_eq_true, decide_eq_true_eq] at rise
    obtain ⟨later, rest⟩ := rise
    exact List.forall_mem_cons.mpr ⟨⟨Nat.le_sub_of_add_le' later, Nat.lt_succ_of_le (small q List.mem_cons_self)⟩,
      ih rest fun r hr => small r (List.mem_cons_of_mem _ hr)⟩

/-- The durations of a shape's pins lead from its first pin to its last. -/
theorem shapePins_duration {last : Pin} (acc : Nat) (rise : pinsRise (p :: t) = true) (atEnd : (p :: t).getLast? = some last) :
    ((shapePins p t).map ShapePin.duration).foldl (· + ·) acc + p.time = acc + last.time := by
  induction t generalizing p acc with
  | nil => cases atEnd; rfl
  | cons q t ih =>
    rw [List.getLast?_cons_cons] at atEnd
    simp only [pinsRise, Bool.and_eq_true, decide_eq_true_eq] at rise
    obtain ⟨later, rest⟩ := rise
    have := ih (acc + (q.time - p.time)) rest atEnd
    rw [shapePins, List.map_cons, List.foldl_cons]
    dsimp only
    omega

theorem bendPitches_length (base : Nat) :
    ((shapePins p t).filter ShapePin.bend).length = (bendPitches base p t).length := by
  induction t generalizing p with
  | nil => rfl
  | cons q t ih =>
    rw [shapePins, bendPitches]
    split
    next bent => rw [List.filter_cons_of_pos (by simpa using bent), List.length_cons, ih, List.length_cons]
    next straight => rw [List.filter_cons_of_neg (by simpa using straight), ih]

theorem bendPitches_le {top base : Nat} (inside : ∀ q ∈ t, (base : Int) + q.interval ≤ top) :
    ∀ x ∈ bendPitches base p t, x ≤ top := by
  induction t generalizing p with
  | nil => exact nofun
  | cons q t ih =>
    have rest := ih (p := q) fun r hr => inside r (List.mem_cons_of_mem _ hr)
    rw [bendPitches]
    split
    · refine List.forall_mem_cons.mpr ⟨?_, rest⟩
      have := inside q List.mem_cons_self
      omega
    · exact rest

theorem buildPins_bent (base time : Nat) (interval : Int) (d e x : Nat) (ps : List ShapePin) (xs : List Nat) :
    buildPins base time interval (⟨true, d, e⟩ :: ps) (x :: xs) =
      ⟨time + d, (x : Int) - base, e⟩ :: buildPins base (time + d) ((x : Int) - base) ps xs := rfl

theorem buildPins_straight (base time : Nat) (interval : Int) (d e : Nat) (ps : List ShapePin) (xs : List Nat) :
    buildPins base time interval (⟨false, d, e⟩ :: ps) xs =
      ⟨time + d, interval, e⟩ :: buildPins base (time + d) interval ps xs := by
  cases xs <;> rfl

/-- A note's pins from its shape and its bends. -/
theorem buildPins_shapePins {base : Nat} (rise : pinsRise (p :: t) = true)
    (inside : ∀ q ∈ t, 0 ≤ (base : Int) + q.interval) :
    buildPins base p.time p.interval (shapePins p t) (bendPitches base p t) = t := by
  induction t generalizing p with
  | nil => rfl
  | cons q t ih =>
    simp only [pinsRise, Bool.and_eq_true, decide_eq_true_eq] at rise
    obtain ⟨later, rest⟩ := rise
    have more := ih rest fun r hr => inside r (List.mem_cons_of_mem _ hr)
    have time : p.time + (q.time - p.time) = q.time := by omega
    rw [shapePins, bendPitches]
    split
    next bent =>
      have interval : (((base : Int) + q.interval).toNat : Int) - base = q.interval := by
        have := inside q List.mem_cons_self
        omega
      rw [decide_eq_true bent, buildPins_bent, time, interval, more]
    next straight =>
      have same : q.interval = p.interval := Decidable.not_not.mp straight
      rw [decide_eq_false straight, buildPins_straight, time, ← same, more]

end

/-! Notes (R421, R425). -/

/-- The bends of a note. -/
def noteBends (n : Note) : List Nat := bendPitches (n.pitches.headD 0) (n.pins.headD ⟨0, 0, 0⟩) n.pins.tail

/-- The pattern's lists are within their limits. -/
structure ReaderFits (st : PatternReader) : Prop where
  shapes : st.shapes.length ≤ 10
  pitches : HistoryFits st.pitches

section
variable {c : Cfg} {top barParts : Nat} {n : Note} {st : PatternReader}

theorem shapeOfNote_fits (fits : NoteFits c top barParts n) :
    ShapeFits c (shapeOfNote n) ∧ n.start + shapeLength (shapeOfNote n) = n.stop := by
  obtain ⟨e, t, eq, q, last, length⟩ := fits.ends
  have rise := fits.rise
  have small := fun p hp => (fits.pins p hp).1
  have start := fits.start
  rw [eq] at rise small last
  have sum := shapePins_duration 0 rise last
  have some : t ≠ [] := by
    rintro rfl
    cases last
    rw [List.getLast_singleton] at length
    dsimp only at length
    omega
  have shape : shapeOfNote n = ⟨n.pitches.length, e, shapePins ⟨0, 0, e⟩ t⟩ := by simp only [shapeOfNote, eq]
  rw [shape]
  refine ⟨⟨fits.some, fits.chord, Nat.lt_succ_of_le (small _ List.mem_cons_self),
    shapePins_length.symm ▸ List.length_pos_of_ne_nil some, shapePins_fit rise fun r hr => small r (List.mem_cons_of_mem _ hr)⟩,
    ?_⟩
  dsimp only at sum
  dsimp only [shapeLength]
  omega

/-- The pins of a note from its shape. -/
theorem buildPins_note (fits : NoteFits c top barParts n) :
    ⟨0, 0, (shapeOfNote n).expression⟩ :: buildPins (n.pitches.headD 0) 0 0 (shapeOfNote n).pins (noteBends n) = n.pins := by
  obtain ⟨e, t, eq, -⟩ := fits.ends
  have rise := fits.rise
  have bend := fun p hp => (fits.pins p hp).2
  rw [eq] at rise bend
  have built := buildPins_shapePins (base := n.pitches.headD 0) rise fun q hq => by
    have := bend q (List.mem_cons_of_mem _ hq)
    simp only [bendLegal, Bool.and_eq_true, decide_eq_true_eq] at this
    exact this.1.2
  simp only [shapeOfNote, noteBends, eq, List.headD_cons, List.tail_cons]
  rw [built]

theorem noteBends_fit (fits : NoteFits c top barParts n) : (∀ x ∈ noteBends n, x ≤ top) ∧
    ((shapeOfNote n).pins.filter ShapePin.bend).length = (noteBends n).length := by
  obtain ⟨e, t, eq, -⟩ := fits.ends
  have bend := fun p hp => (fits.pins p hp).2
  rw [eq] at bend
  simp only [shapeOfNote, noteBends, eq, List.headD_cons, List.tail_cons]
  refine ⟨bendPitches_le fun q hq => ?_, bendPitches_length _⟩
  have := bend q (List.mem_cons_of_mem _ hq)
  simp only [bendLegal, Bool.and_eq_true, decide_eq_true_eq] at this
  exact this.2

/-- A note's chord and bends, written and read. -/
structure NotePitches (c : Cfg) (top barParts : Nat) (n : Note) (st : PatternReader) (chord : List Bool × PitchHistory)
    (bends : List Bool × PitchHistory) : Prop where
  chordWritten : writePitches c.codec st.pitches n.pitches = some chord
  bendsWritten : writePitches c.codec { chord.2 with last := n.pitches.headD chord.2.last } (noteBends n) = some bends
  fits : HistoryFits bends.2
  reads : ∀ shapes rest, readNote c top barParts n.start (shapeOfNote n) { st with shapes := shapes }
    (chord.1 ++ (bends.1 ++ rest)) = .ok (n, ⟨shapes, bends.2⟩, rest)

theorem writeNote_pitches (fits : NoteFits c top barParts n) (history : HistoryFits st.pitches) :
    ∃ chord bends, NotePitches c top barParts n st chord bends := by
  obtain ⟨x, xs, pitches⟩ := List.exists_cons_of_length_pos fits.some
  obtain ⟨chordBits, h1, chord⟩ := writePitches_reads c.codec history fits.pitches
  have few : n.pitches.length ≤ 8 := fits.chord.trans (maxChord_le c)
  have first : HistoryFits { h1 with last := n.pitches.headD h1.last } :=
    ⟨by rw [pitches]; exact chord.first x xs pitches few, chord.fits.few⟩
  obtain ⟨inside, count⟩ := noteBends_fit fits
  obtain ⟨bendBits, h2, bends⟩ := writePitches_reads c.codec first inside
  have size : (shapeOfNote n).size = n.pitches.length := by
    obtain ⟨e, t, eq, -⟩ := fits.ends
    simp only [shapeOfNote, eq]
  have pins := buildPins_note fits
  have ends := (shapeOfNote_fits fits).2
  refine ⟨(chordBits, h1), (bendBits, h2), chord.written, bends.written, bends.fits, fun shapes rest => ?_⟩
  simp only [readNote, size, chord.reads, count, bends.reads, ends, if_neg (Nat.not_lt.mpr fits.stop), pins]

end

/-! Walking a pattern (R421). -/

section
variable {c : Cfg} {legacy : Bool} {top barParts fuel part : Nat} {st st' : PatternReader} {shape : Shape} {n : Note}
  {b b' b'' : List Bool}

theorem readNotes_end (h : barParts ≤ part) : readNotes c legacy top barParts fuel part st b = .ok ([], st, b) := by
  cases fuel with
  | zero => rfl
  | succ fuel => rw [readNotes, if_pos h]

theorem readNotes_rest {d : Nat} (inside : part < barParts) (read : readDuration legacy b = .ok (d, b')) :
    readNotes c legacy top barParts (fuel + 1) part st (false :: false :: b) =
      readNotes c legacy top barParts fuel (part + d) st b' := by
  simp only [readNotes, if_neg (Nat.not_le.mpr inside), read]

theorem readNotes_newShape (inside : part < barParts) (read : readShape c legacy b = .ok (shape, b'))
    (note : readNote c top barParts part shape { st with shapes := pushFront recentShapes shape st.shapes } b' =
      .ok (n, st', b'')) :
    readNotes c legacy top barParts (fuel + 1) part st (false :: true :: b) =
      (readNotes c legacy top barParts fuel n.stop st' b'').map fun p => (n :: p.1, p.2) := by
  simp only [readNotes, if_neg (Nat.not_le.mpr inside), read, note]

theorem readNotes_oldShape {i : Nat} (inside : part < barParts) (read : readShapeIndex c.codec b = some (i, b'))
    (there : st.shapes[i]? = some shape)
    (note : readNote c top barParts part shape { st with shapes := pushFront recentShapes shape (st.shapes.eraseIdx i) } b' =
      .ok (n, st', b'')) :
    readNotes c legacy top barParts (fuel + 1) part st (true :: true :: b) =
      (readNotes c legacy top barParts fuel n.stop st' b'').map fun p => (n :: p.1, p.2) := by
  simp only [readNotes, if_neg (Nat.not_le.mpr inside), read, there, note]

end

section
variable {c : Cfg} {top barParts : Nat} {n : Note} {st : PatternReader}

/-- A note that was written, and one turn of the reader. -/
structure NoteStep (c : Cfg) (top barParts : Nat) (n : Note) (st : PatternReader) (bits : List Bool) (st' : PatternReader) :
    Prop where
  written : writeNote c n st = some (bits, st')
  fits : ReaderFits st'
  reads : ∀ fuel rest, readNotes c false top barParts (fuel + 1) n.start st (bits ++ rest) =
    (readNotes c false top barParts fuel n.stop st' rest).map fun p => (n :: p.1, p.2)

theorem writeNote_reads (fits : NoteFits c top barParts n) (reader : ReaderFits st) :
    ∃ bits st', NoteStep c top barParts n st bits st' := by
  obtain ⟨chord, bends, note⟩ := writeNote_pitches fits reader.pitches
  have chordWritten := note.chordWritten
  have bendsWritten := note.bendsWritten
  obtain ⟨e, t, eq, -⟩ := fits.ends
  simp only [noteBends, eq, List.headD_cons, List.tail_cons] at bendsWritten
  have inside : n.start < barParts := Nat.lt_of_lt_of_le fits.start fits.stop
  cases found : st.shapes.findIdx? (· == shapeOfNote n) with
  | some i =>
    obtain ⟨hi, same, -⟩ := List.findIdx?_eq_some_iff_getElem.mp found
    have there : st.shapes[i]? = some (shapeOfNote n) := by rw [List.getElem?_eq_getElem hi, beq_iff_eq.mp same]
    refine ⟨true :: true :: shapeIndexCode c.codec i ++ chord.1 ++ bends.1,
      ⟨pushFront recentShapes (shapeOfNote n) (st.shapes.eraseIdx i), bends.2⟩, ?_, ⟨pushFront_length .., note.fits⟩,
      fun fuel rest => ?_⟩
    · simp only [writeNote, found, eq, chordWritten, bendsWritten, Option.map_some]
    · simp only [List.cons_append, List.append_assoc]
      exact readNotes_oldShape inside (readShapeIndex_written _ (Nat.lt_of_lt_of_le hi reader.shapes) _) there (note.reads _ _)
  | none =>
    obtain ⟨shape, shapeWritten, shapeReads⟩ := writeShape_reads (shapeOfNote_fits fits).1
    refine ⟨false :: true :: shape ++ chord.1 ++ bends.1, ⟨pushFront recentShapes (shapeOfNote n) st.shapes, bends.2⟩, ?_,
      ⟨pushFront_length .., note.fits⟩, fun fuel rest => ?_⟩
    · simp only [writeNote, found, eq, chordWritten, bendsWritten, shapeWritten, Option.map_some]
    · simp only [List.cons_append, List.append_assoc]
      exact readNotes_newShape inside (shapeReads _) (note.reads _ _)

/-- A rest that is not empty. -/
theorem writeRest_reads {d part fuel : Nat} {bits rest : List Bool} (written : writeRest d = some bits) (some : d ≠ 0)
    (inside : part < barParts) :
    readNotes c false top barParts (fuel + 1) part st (bits ++ rest) =
      readNotes c false top barParts fuel (part + d) st rest := by
  obtain ⟨l, duration, reads⟩ := writePartDuration_reads (Nat.pos_of_ne_zero some)
  rw [writeRest, if_neg some, duration, Option.map_some] at written
  cases written
  exact readNotes_rest inside (reads rest)

theorem writeRest_some (d : Nat) : ∃ bits, writeRest d = some bits ∧ (d = 0 → bits = []) := by
  by_cases none : d = 0
  · exact ⟨[], if_pos none, fun _ => rfl⟩
  · obtain ⟨l, duration, -⟩ := writePartDuration_reads (Nat.pos_of_ne_zero none)
    exact ⟨false :: false :: l, by rw [writeRest, if_neg none, duration, Option.map_some], fun h => absurd h none⟩

/-- The rest before a part, empty or not, leaves the reader there. -/
theorem readNotes_over_rest {d part fuel : Nat} {bits : List Bool} (written : writeRest d = some bits)
    (empty : d = 0 → bits = []) (inside : part + d ≤ barParts) (enough : barParts - part ≤ fuel) (rest : List Bool) :
    ∃ fuel', barParts - (part + d) ≤ fuel' ∧
      readNotes c false top barParts fuel part st (bits ++ rest) =
        readNotes c false top barParts fuel' (part + d) st rest := by
  by_cases none : d = 0
  · obtain rfl := empty none
    subst none
    exact ⟨fuel, enough, rfl⟩
  · obtain ⟨fuel, rfl⟩ : ∃ f, fuel = f + 1 := ⟨fuel - 1, by omega⟩
    exact ⟨fuel, by omega, writeRest_reads written none (by omega)⟩

/-- The notes of a pattern from a part on (R421). -/
theorem writeNotes_reads {notes : List Note} {part : Nat} (reader : ReaderFits st) (inside : part ≤ barParts)
    (apart : notesApart notes = true) (legal : ∀ n ∈ notes, noteLegal c top barParts n = true)
    (first : ∀ n ∈ notes.head?, part ≤ n.start) :
    ∃ bits st', writeNotes c barParts part notes st = some (bits, st') ∧ ReaderFits st' ∧
      ∀ fuel rest, barParts - part ≤ fuel →
        readNotes c false top barParts fuel part st (bits ++ rest) = .ok (notes, st', rest) := by
  induction notes generalizing part st with
  | nil =>
    obtain ⟨bits, written, empty⟩ := writeRest_some (barParts - part)
    refine ⟨bits, st, by rw [writeNotes, written, Option.map_some], reader, fun fuel rest enough => ?_⟩
    obtain ⟨fuel', -, skipped⟩ := readNotes_over_rest (c := c) (top := top) (st := st) written empty (by omega) enough rest
    rw [skipped, readNotes_end (by omega)]
  | cons n t ih =>
    have fits := noteLegal_fits (legal n List.mem_cons_self)
    have start := first n rfl
    have stop := fits.stop
    have long := fits.start
    obtain ⟨pause, pauseWritten, empty⟩ := writeRest_some (n.start - part)
    obtain ⟨bits, st1, note⟩ := writeNote_reads fits reader
    have later : ∀ m ∈ t.head?, n.stop ≤ m.start := by
      cases t with
      | nil => exact nofun
      | cons m u =>
        simp only [notesApart, Bool.and_eq_true, decide_eq_true_eq] at apart
        exact fun x hx => by cases hx; exact apart.1
    have others : notesApart t = true := by
      cases t with
      | nil => rfl
      | cons m u =>
        simp only [notesApart, Bool.and_eq_true] at apart
        exact apart.2
    obtain ⟨more, st2, moreWritten, moreFits, moreReads⟩ :=
      ih note.fits stop others (fun m hm => legal m (List.mem_cons_of_mem _ hm)) later
    refine ⟨pause ++ bits ++ more, st2, by simp only [writeNotes, pauseWritten, note.written, moreWritten, Option.map_some],
      moreFits, fun fuel rest enough => ?_⟩
    obtain ⟨fuel', left, skipped⟩ := readNotes_over_rest (c := c) (top := top) (st := st) pauseWritten empty (by omega) enough
      (bits ++ (more ++ rest))
    rw [Nat.add_sub_cancel' start] at left skipped
    obtain ⟨fuel', rfl⟩ : ∃ f, fuel' = f + 1 := ⟨fuel' - 1, by omega⟩
    rw [List.append_assoc, List.append_assoc, skipped, note.reads, moreReads _ _ (by omega)]
    rfl

end

/-! Patterns and channels (R420). -/

theorem lt_two_pow_bitsFor {n v : Nat} (h : v < n) : v < 2 ^ bitsFor n := by
  unfold bitsFor
  split
  · rw [pow_zero]; omega
  · have := Nat.lt_log2_self (n := n - 1)
    omega

theorem writePatterns_reads {c : Cfg} {top barParts instruments : Nat} {patterns : List Pattern} {st : PatternReader}
    (reader : ReaderFits st) (legal : ∀ p ∈ patterns, patternLegal c instruments top barParts p = true) :
    ReadsAs (writePatterns c barParts (bitsFor instruments) patterns st)
      (readPatterns c false top barParts (bitsFor instruments) patterns.length st) patterns := by
  induction patterns generalizing st with
  | nil => exact ⟨[], rfl, fun _ => rfl⟩
  | cons p t ih =>
    have good := legal p List.mem_cons_self
    simp only [patternLegal, Bool.and_eq_true, decide_eq_true_eq, List.all_eq_true] at good
    obtain ⟨⟨named, apart⟩, notes⟩ := good
    have rest := fun q hq => legal q (List.mem_cons_of_mem _ hq)
    have instrument := lt_two_pow_bitsFor named
    obtain ⟨ins, own⟩ := p
    cases own with
    | nil =>
      obtain ⟨bits, written, reads⟩ := ih reader rest
      refine ⟨writeBits (bitsFor instruments) ins ++ false :: bits, by simp only [writePatterns, written, Option.map_some],
        fun rest => ?_⟩
      simp only [List.append_assoc, List.cons_append, List.length_cons, readPatterns, readBits_writeBits instrument,
        readBits_one, Bool.toNat_false, Nat.zero_ne_one, if_false, reads, Except.map]
    | cons n u =>
      obtain ⟨noteBits, st1, notesWritten, fits, notesRead⟩ := writeNotes_reads reader (Nat.zero_le barParts) apart notes
        fun m _ => Nat.zero_le _
      obtain ⟨bits, written, reads⟩ := ih fits rest
      refine ⟨writeBits (bitsFor instruments) ins ++ true :: noteBits ++ bits,
        by simp only [writePatterns, notesWritten, written, Option.map_some], fun rest => ?_⟩
      simp only [List.append_assoc, List.cons_append, List.length_cons, readPatterns, readBits_writeBits instrument,
        readBits_one, Bool.toNat_true, if_true, notesRead _ _ (Nat.sub_le ..), reads, Except.map]

theorem freshReader_fits (c : Cfg) (song : Song) (i : Nat) (ch : Channel) : ReaderFits (freshReader c song i ch) := by
  refine ⟨Nat.zero_le _, ?_⟩
  simp only [freshReader]
  split
  next known => exact ⟨List.contains_iff_mem.mp known, List.length_take_le ..⟩
  next => exact historyFits_pushFront ..

/-- The reader of a channel's patterns does not see the patterns that stand there. -/
theorem freshReader_congr (c : Cfg) (song : Song) (i : Nat) {ch old : Channel} (same : ch.octave = old.octave) :
    freshReader c song i ch = freshReader c song i old := by
  simp only [freshReader, same]

theorem writeChannels_reads {c : Cfg} {song : Song} {i : Nat} {channels old : List Channel}
    (legal : ∀ j ch, channels[j]? = some ch → channelLegal c song (topPitch c song (i + j)) ch = true)
    (same : old.map (fun ch => { ch with patterns := [] }) = channels.map fun ch => { ch with patterns := [] }) :
    ReadsAs (writeChannels c song i channels) (readChannels c false song i old) channels := by
  induction channels generalizing i old with
  | nil =>
    obtain rfl := List.map_eq_nil_iff.mp same
    exact ⟨[], rfl, fun _ => rfl⟩
  | cons ch t ih =>
    cases old with
    | nil => nomatch same
    | cons before u =>
      rw [List.map_cons, List.map_cons, List.cons.injEq] at same
      obtain ⟨here, others⟩ := same
      obtain ⟨bits, written, reads⟩ := ih (i := i + 1) (fun j ch' there => by
        have := legal (j + 1) ch' there
        rwa [Nat.add_assoc, Nat.add_comm 1]) others
      have good := legal 0 ch rfl
      rw [Nat.add_zero] at good
      simp only [channelLegal, Bool.and_eq_true, and_assoc, beq_iff_eq, List.all_eq_true] at good
      obtain ⟨-, -, -, count, patterns, -⟩ := good
      obtain ⟨own, ownWritten, ownReads⟩ := writePatterns_reads (freshReader_fits c song i ch) patterns
      have octave := congrArg Channel.octave here
      dsimp only at octave
      have filled : { before with patterns := ch.patterns } = ch :=
        congrArg (fun x : Channel => { x with patterns := ch.patterns }) here
      refine ⟨own ++ bits, by simp only [writeChannels, ownWritten, written], fun rest => ?_⟩
      rw [count] at ownReads
      simp only [List.append_assoc, readChannels, freshReader_congr c song i octave, ownReads, reads, Except.map, filled]

theorem writeChannels_of_legal {c : Cfg} {song : Song} {channels : List Channel} (legal : songLegal c song = true)
    (same : channels.map (fun ch => { ch with patterns := [] }) = song.channels.map fun ch => { ch with patterns := [] }) :
    ReadsAs (writeChannels c song 0 song.channels) (readChannels c false song 0 channels) song.channels :=
  writeChannels_reads (fun j ch there => by rw [Nat.zero_add]; exact songLegal_channel legal there) same

/-- The channels that stand in the song do not matter to the reader. -/
theorem readChannels_congr (c : Cfg) (legacy : Bool) (song : Song) (stand : List Channel) (i : Nat) (l : List Channel)
    (bits : List Bool) :
    readChannels c legacy { song with channels := stand } i l bits = readChannels c legacy song i l bits := by
  induction l generalizing i bits with
  | nil => rfl
  | cons ch t ih =>
    simp only [readChannels, ih]
    rfl

/-! The `p` record (R419). -/

theorem digitsValue_concat (l : List Nat) (d : Nat) : digitsValue (l ++ [d]) = digitsValue l * 64 + d := by
  rw [digitsValue, List.foldl_append]
  rfl

theorem base64Digits_value {fuel n : Nat} (enough : n ≤ fuel) : digitsValue (base64Digits fuel n) = n := by
  induction fuel generalizing n with
  | zero =>
    obtain rfl := Nat.le_zero.mp enough
    rfl
  | succ fuel ih =>
    rw [base64Digits]
    split
    next zero => exact zero.symm
    next some =>
      rw [digitsValue_concat, ih (by omega)]
      omega

theorem base64Digits_symbols (fuel n : Nat) : ∀ d ∈ base64Digits fuel n, d < 64 := by
  induction fuel generalizing n with
  | zero => exact nofun
  | succ fuel ih =>
    rw [base64Digits]
    split
    · exact nofun
    · exact List.forall_mem_append.mpr ⟨ih _, List.forall_mem_singleton.mpr (Nat.mod_lt _ (by decide))⟩

theorem base64Digits_length {k : Nat} (fuel : Nat) {n : Nat} (small : n < 64 ^ k) : (base64Digits fuel n).length ≤ k := by
  induction fuel generalizing n k with
  | zero => exact Nat.zero_le _
  | succ fuel ih =>
    rw [base64Digits]
    split
    · exact Nat.zero_le _
    next some =>
      cases k with
      | zero => rw [pow_zero] at small; omega
      | succ k =>
        have := ih (n := n / 64) (k := k) (by rw [Nat.pow_succ] at small; omega)
        rw [List.length_append, List.length_singleton]
        omega

/-- A `p` record in a text. -/
theorem patternsPayload_read {k : Codec} {pre post : List Byte} {bits : List Bool} (place : k.pos = pre.length)
    (short : bits.length + 6 ≤ 6 * 64 ^ 63) (text : k.text = pre ++ (0x70#8 :: patternsPayload bits ++ post)) :
    ∃ ll digits symbols start pad, k.PatternsPayload ll digits symbols start ∧
      valueBits symbols = bits ++ List.replicate pad false ∧
      start + symbols.length = pre.length + 1 + (patternsPayload bits).length := by
  obtain ⟨symbols, pad, small, stream, padShort, filled⟩ := encodeBase64_symbols bits
  have count := congrArg List.length filled
  rw [valueBits_length, List.length_append, List.length_replicate] at count
  obtain ⟨digits, hd⟩ : ∃ digits, digits = base64Digits symbols.length symbols.length := ⟨_, rfl⟩
  have few : digits.length ≤ 63 := hd ▸ base64Digits_length _ (by omega)
  have digit : ∀ d ∈ digits, d < 64 := hd ▸ base64Digits_symbols _ _
  have value : digitsValue digits = symbols.length := hd ▸ base64Digits_value (Nat.le_refl _)
  have payload : patternsPayload bits = [digits.length].map symbolOf ++ (digits.map symbolOf ++ symbols.map symbolOf) := by
    simp only [patternsPayload, stream, List.length_map, ← hd, List.map_cons, List.map_nil, List.cons_append, List.nil_append]
  have first := symbolsAt_written (pre ++ [0x70#8]) [digits.length] (digits.map symbolOf ++ (symbols.map symbolOf ++ post))
    fun x hx => List.mem_singleton.mp hx ▸ Nat.lt_succ_of_le few
  have second := symbolsAt_written (pre ++ [0x70#8] ++ [symbolOf digits.length]) digits (symbols.map symbolOf ++ post) digit
  have third := symbolsAt_written (pre ++ [0x70#8] ++ [symbolOf digits.length] ++ digits.map symbolOf) symbols post small
  simp only [List.map_cons, List.map_nil, List.append_assoc, List.cons_append, List.nil_append, List.length_append,
    List.length_cons, List.length_nil, List.length_map] at first second third
  have whole : k.text = pre ++ 0x70#8 :: symbolOf digits.length :: (digits.map symbolOf ++ (symbols.map symbolOf ++ post)) := by
    rw [text, payload]
    simp only [List.map_cons, List.map_nil, List.append_assoc, List.cons_append, List.nil_append]
  refine ⟨digits.length, digits, symbols, pre.length + 2 + digits.length, pad, ⟨?_, ?_, by rw [place], ?_⟩, filled, ?_⟩
  · rw [whole, place]; exact first
  · rw [whole, place]; exact second
  · rw [whole, value, ← third]
    congr 1
    omega
  · rw [payload]
    simp only [List.length_append, List.length_map, List.length_singleton]
    omega

/-- A `p` record of a legal song's patterns stores them (R441). -/
theorem patternsTag_written {c : Cfg} {k : Codec} {song : Song} {bits : List Bool} {pre post : List Byte}
    (latest : k.version = 9) (place : k.pos = pre.length) (legal : songLegal c song = true)
    (counts : k.song = { song with channels := k.song.channels })
    (same : k.song.channels.map (fun ch => { ch with patterns := [] }) = song.channels.map fun ch => { ch with patterns := [] })
    (written : writeChannels c song 0 song.channels = some bits) (short : bits.length + 6 ≤ 6 * 64 ^ 63)
    (text : k.text = pre ++ (0x70#8 :: patternsPayload bits ++ post)) :
    patternsTag c k = { k with song := song, pos := pre.length + 1 + (patternsPayload bits).length } := by
  obtain ⟨ll, digits, symbols, start, pad, payload, filled, ends⟩ := patternsPayload_read place short text
  obtain ⟨_, again, reads⟩ := writeChannels_of_legal legal same
  obtain rfl := Option.some.inj (written.symm.trans again)
  have modern : legacyDuration c k = false := by
    rw [legacyDuration, beforeVersion, latest]
    rfl
  have read : readChannels c (legacyDuration c k) k.song 0 k.song.channels (valueBits symbols) =
      .ok (song.channels, List.replicate pad false) := by
    rw [modern, filled]
    conv_lhs => rw [counts]
    rw [readChannels_congr]
    exact reads _
  rw [patternsTag_stores payload read, ends, counts]

end Sys2Proof.Machine
end

section
set_option Elab.async false
/-! SUPPORT. A note's JSON form gives the note back (`49_song_codec.md` R438). -/

namespace Sys2Proof.Machine

/-! Fields and numbers of a JSON value. -/

theorem Json.field_named_same (name : String) (v : Json) (l : List (String × Json)) :
    (Json.named ((name, v) :: l)).field name = some v := by
  simp only [Json.named, Json.field, List.map_cons, List.find?_cons, beq_self_eq_true, Option.map_some]

theorem Json.field_named_other {other name : String} (v : Json) (l : List (String × Json)) (ne : ascii other ≠ ascii name) :
    (Json.named ((other, v) :: l)).field name = (Json.named l).field name := by
  simp only [Json.named, Json.field, List.map_cons, List.find?_cons, beq_false_of_ne ne]

theorem roundedQuotient_one (a : Int) : roundedQuotient a 1 1 = a := by
  unfold roundedQuotient
  split <;> simp only <;> omega

theorem Json.int?_num (a : Int) : (Json.num a 0).int? = some a :=
  congrArg some ((congrArg (roundedQuotient · 1 1) (Int.mul_one a)).trans (roundedQuotient_one a))

theorem Json.nat?_ofNat (n : Nat) : (Json.ofNat n).nat? = some n := by
  rw [Json.nat?, Json.ofNat, Json.int?_num]
  rfl

theorem ascii_fields : ascii "tick" ≠ ascii "pitchBend" ∧ ascii "tick" ≠ ascii "volume" ∧
    ascii "pitchBend" ≠ ascii "volume" ∧ ascii "pitches" ≠ ascii "points" := by decide

/-! Pins and notes. -/

theorem expressionOfVolume_volumeOfExpression :
    ∀ e, e ≤ expressionMax → expressionOfVolume (.ofNat (volumeOfExpression e)) = e := by decide

theorem exportPin_tick (start : Nat) (p : Pin) (dflt : Nat) : (exportPin start p).natField "tick" dflt = start + p.time := by
  rw [Json.natField, exportPin, Json.field_named_same, Option.bind_some, Json.nat?_ofNat, Option.getD_some]

theorem importPin_exportPin (start : Nat) {p : Pin} (small : p.expression ≤ expressionMax) :
    importPin start (exportPin start p) = p := by
  obtain ⟨bend, tickVolume, volume, -⟩ := ascii_fields
  have interval : (exportPin start p).field "pitchBend" = some (.num p.interval 0) := by
    rw [exportPin, Json.field_named_other _ _ bend, Json.field_named_same]
  have loud : (exportPin start p).field "volume" = some (.ofNat (volumeOfExpression p.expression)) := by
    rw [exportPin, Json.field_named_other _ _ tickVolume, Json.field_named_other _ _ volume, Json.field_named_same]
  rw [importPin, exportPin_tick, interval, loud, Option.bind_some, Json.int?_num, Option.getD_some, Option.map_some,
    Option.getD_some, expressionOfVolume_volumeOfExpression _ small, Nat.add_sub_cancel_left]

theorem importNote_exportNote {c : Cfg} {top barParts : Nat} {n : Note} (legal : noteLegal c top barParts n = true) :
    importNote (exportNote n) = n := by
  have fits := noteLegal_fits legal
  obtain ⟨e, t, eq, q, last, length⟩ := fits.ends
  have points : (exportNote n).listField "points" = some (n.pins.map (exportPin n.start)) := by
    rw [Json.listField, exportNote, Json.field_named_other _ _ ascii_fields.2.2.2, Json.field_named_same]
    rfl
  have chord : (exportNote n).listField "pitches" = some (n.pitches.map .ofNat) := by
    rw [Json.listField, exportNote, Json.field_named_same]
    rfl
  have start : ((n.pins.map (exportPin n.start)).head?.map fun p => p.natField "tick" 0) = some n.start := by
    rw [eq, List.map_cons, List.head?_cons, Option.map_some, exportPin_tick]
    rfl
  have stop : ((n.pins.map (exportPin n.start)).getLast?.map fun p => p.natField "tick" 0) = some n.stop := by
    rw [List.getLast?_map, last, Option.map_some, Option.map_some, exportPin_tick, length,
      Nat.add_sub_cancel' (Nat.le_of_lt fits.start)]
  have pitches : (n.pitches.map Json.ofNat).filterMap Json.nat? = n.pitches := by
    rw [List.filterMap_map]
    exact (List.filterMap_congr fun p _ => Json.nat?_ofNat p).trans List.filterMap_some
  have pins : (n.pins.map (exportPin n.start)).map (importPin n.start) = n.pins := by
    rw [List.map_map]
    exact map_self fun p hp => importPin_exportPin _ (fits.pins p hp).1
  simp only [importNote, points, chord, Option.getD_some, start, stop, pitches, pins]

end Sys2Proof.Machine
end

section
set_option Elab.async false
/-! SUPPORT. A record that was written is read: its payload gives its values, and the fields take them
(`49_song_codec.md` R413, R414, R427, R441). -/

namespace Sys2Proof.Machine

/-! Legal values by their fields. -/

theorem forall₂_of_mem_choices {ls : List (List Nat)} {vs : List Nat} (h : vs ∈ choices ls) :
    List.Forall₂ (fun v l => v ∈ l) vs ls := by
  induction ls generalizing vs with
  | nil => cases List.mem_singleton.mp h; exact .nil
  | cons l t ih =>
    obtain ⟨v, hv, more⟩ := List.mem_flatMap.mp h
    obtain ⟨r, hr, rfl⟩ := List.mem_map.mp more
    exact .cons hv (ih hr)

theorem mem_choices_one {l vs : List Nat} (h : vs ∈ choices [l]) : ∃ v ∈ l, vs = [v] := by
  cases forall₂_of_mem_choices h with
  | cons hv rest => cases rest; exact ⟨_, hv, rfl⟩

theorem mem_choices_index {n v : Nat} (h : [v] ∈ choices [List.range n]) : v < n := by
  obtain ⟨w, inside, eq⟩ := mem_choices_one h
  cases eq
  exact List.mem_range.mp inside

theorem mem_choices_two {l m vs : List Nat} (h : vs ∈ choices [l, m]) : ∃ v ∈ l, ∃ w ∈ m, vs = [v, w] := by
  cases forall₂_of_mem_choices h with
  | cons hv rest =>
    obtain ⟨w, hw, rfl⟩ := mem_choices_one (mem_choices rest)
    exact ⟨_, hv, w, hw, rfl⟩

/-- One number of the same list, several times. -/
theorem mem_choices_replicate {n : Nat} {l vs : List Nat} (h : vs ∈ choices (List.replicate n l)) :
    vs.length = n ∧ ∀ v ∈ vs, v ∈ l := by
  induction n generalizing vs with
  | zero =>
    cases List.mem_singleton.mp h
    exact ⟨rfl, nofun⟩
  | succ n ih =>
    cases forall₂_of_mem_choices h with
    | cons hv rest =>
      obtain ⟨count, all⟩ := ih (mem_choices rest)
      exact ⟨congrArg (· + 1) count, List.forall_mem_cons.mpr ⟨hv, all⟩⟩

theorem mem_choices_append {a b : List (List Nat)} {vs : List Nat} (h : vs ∈ choices (a ++ b)) :
    ∃ l ∈ choices a, ∃ m ∈ choices b, vs = l ++ m := by
  have all := forall₂_of_mem_choices h
  exact ⟨_, mem_choices (List.forall₂_take_append _ _ _ all), _, mem_choices (List.forall₂_drop_append _ _ _ all),
    (List.take_append_drop ..).symm⟩

/-- A row of operators' values, and a row of envelopes where it is carried. -/
theorem mem_choices_rows {n : Nat} {p : Prop} [Decidable p] {r e vs : List Nat}
    (h : vs ∈ choices (List.replicate n r ++ if p then List.replicate n e else [])) :
    ∃ own envs, own.length = n ∧ envs.length = n ∧ (p → ∀ v ∈ envs, v ∈ e) ∧ vs = own ++ if p then envs else [] := by
  obtain ⟨own, hown, more, hmore, rfl⟩ := mem_choices_append h
  have count := (mem_choices_replicate hown).1
  by_cases carried : p
  · rw [if_pos carried] at hmore
    obtain ⟨envs, inside⟩ := mem_choices_replicate hmore
    exact ⟨own, more, count, envs, fun _ => inside, by rw [if_pos carried]⟩
  · rw [if_neg carried] at hmore
    cases List.mem_singleton.mp hmore
    exact ⟨own, List.replicate n 0, count, List.length_replicate, fun h => absurd h carried, by rw [if_neg carried]⟩

theorem mem_drumChoices {c : Cfg} {ds : List Nat} (h : ds ∈ drumChoices c) :
    ds.length = drumCount ∧ ∀ e ∈ ds, e < c.envelopes.length := by
  obtain ⟨count, inside⟩ := mem_choices_replicate h
  exact ⟨count, fun e he => List.mem_range.mp (inside e he)⟩

/-- A list of control points, as values. -/
theorem mem_pointLists {c : Cfg} {n : Nat} {vs : List Nat} (h : vs ∈ pointLists c n) :
    ∃ points, vs = pointValues points ∧ ∀ p ∈ points, p.kind < 3 := by
  induction n with
  | zero =>
    cases List.mem_singleton.mp h
    exact ⟨[], rfl, nofun⟩
  | succ n ih =>
    rw [pointLists, List.mem_append] at h
    obtain old | new := h
    · exact ih old
    · clear ih
      generalize n + 1 = m at new
      induction m generalizing vs with
      | zero =>
        cases List.mem_singleton.mp new
        exact ⟨[], rfl, nofun⟩
      | succ m ih =>
        rw [List.replicate_succ, List.flatten_cons] at new
        obtain ⟨point, hpoint, more, hmore, rfl⟩ := mem_choices_append new
        cases forall₂_of_mem_choices hpoint with
        | cons kind others =>
          obtain ⟨freq, -, gain, -, rfl⟩ := mem_choices_two (mem_choices others)
          obtain ⟨points, rfl, kinds⟩ := ih hmore
          exact ⟨⟨_, freq, gain⟩ :: points, rfl, List.forall_mem_cons.mpr ⟨List.mem_range.mp kind, kinds⟩⟩

/-! The payload of a written record (R413, R414). -/

section
variable {c : Cfg} {k : Codec} {song : Song} {ins : Instrument} {tag : Byte} {pre post : List Byte}

theorem payload_shapedRecord (latest : k.version = 9) (place : k.pos = pre.length) (shape : hasShape c tag = true)
    (legal : tagValues c song ins tag ∈ legalValues c (shapeContext k) tag)
    (text : k.text = pre ++ (shapedRecord c (shapeContext k) song ins tag ++ post)) :
    payload c k tag = .ok (tagValues c song ins tag,
      pre.length + (shapedRecord c (shapeContext k) song ins tag).length) := by
  have behind : k.text = pre ++ [tag] ++
      ((tagSymbols c (shapeContext k) tag (tagValues c song ins tag)).map symbolOf ++ post) := by
    rw [text, shapedRecord, List.append_assoc, List.cons_append, List.singleton_append]
  have read := payload_written c k tag _ (pre ++ [tag]) post latest shape legal
    (by rw [place, List.length_append, List.length_singleton]) behind
  rw [read, shapedRecord, List.length_append, List.length_singleton, List.length_cons, List.length_map]
  congr 2
  omega

/-- Bits that were written under a tag. -/
theorem bitsAt_record {bits : List Bool} {n : Nat} (place : k.pos = pre.length) (size : bits.length = n)
    (text : k.text = pre ++ (tag :: encodeBase64 bits ++ post)) : ∃ symbols pad,
      bitsAt k.text (k.pos + 1) (symbolsFor n) = .ok (valueBits symbols) ∧
      valueBits symbols = bits ++ List.replicate pad false ∧
      k.pos + 1 + symbolsFor n = pre.length + (tag :: encodeBase64 bits).length := by
  obtain ⟨symbols, pad, small, encoded, short, filled⟩ := encodeBase64_symbols bits
  have count := congrArg List.length filled
  rw [valueBits_length, List.length_append, List.length_replicate] at count
  have enough : symbolsFor n = symbols.length := by
    unfold symbolsFor
    omega
  have whole : k.text = pre ++ [tag] ++ (symbols.map symbolOf ++ post) := by
    rw [text, encoded, List.append_assoc, List.cons_append, List.singleton_append]
  have start : k.pos + 1 = (pre ++ [tag]).length := by rw [place, List.length_append, List.length_singleton]
  refine ⟨symbols, pad, ?_, filled, ?_⟩
  · rw [bitsAt, whole, start, enough, symbolsAt_written _ symbols post small]
    rfl
  · rw [enough, encoded, List.length_cons, List.length_map, place]
    omega

end

/-! Records of the song (R412). -/

theorem plainSongTags_hasShape {c : Cfg} {tag : Byte} (mem : tag ∈ plainSongTags) : hasShape c tag = true := by
  simp only [hasShape, List.contains_iff_mem.mpr mem, Bool.or_true, Bool.true_or]

/-- The tags of an instrument behind its `T`, `z` with them. -/
def writtenInstrumentTags : List Byte :=
  [0x76#8, 0x75#8, 0x71#8, 0x66#8] ++ [0x7A#8] ++ [0x64#8, 0x43#8, 0x63#8, 0x68#8, 0x77#8, 0x41#8, 0x42#8, 0x46#8, 0x50#8,
    0x51#8, 0x44#8, 0x47#8, 0x52#8, 0x4C#8, 0x6D#8, 0x53#8, 0x48#8, 0x55#8, 0x57#8]

theorem mem_writtenInstrumentTags {c : Cfg} {tag : Byte} (mem : tag ∈ plainInstrumentTags c) : tag ∈ writtenInstrumentTags := by
  simp only [plainInstrumentTags, List.mem_append] at mem
  simp only [writtenInstrumentTags, List.mem_append]
  refine mem.imp_left (Or.imp_right fun z => ?_)
  split at z
  · nomatch z
  · exact z

/-- Drum envelopes do not travel with a record of the song. -/
theorem ne_drumTag_of_song (c : Cfg) : ∀ tag ∈ plainSongTags, tag ≠ drumTag c := by
  have apart : ∀ tag ∈ plainSongTags, tag ≠ 0x54#8 ∧ tag ≠ 0x76#8 ∧ tag ∉ writtenInstrumentTags := by decide
  intro tag mem eq
  obtain ⟨noT, noV, noOther⟩ := apart tag mem
  simp only [drumTag] at eq
  split at eq
  next own =>
    rw [← eq] at own
    exact own.elim noT fun h => noOther (mem_writtenInstrumentTags (List.contains_iff_mem.mp h.1))
  next => exact noV eq

/-- The values of a record of the song are the song's own. -/
theorem tagValues_song {c : Cfg} {song : Song} {ins : Instrument} {tag : Byte} (own : List Nat) (mem : tag ∈ plainSongTags)
    (values : tagValues c song ins tag = own ++ if tag = drumTag c ∧ ins.kind = kindDrumset then ins.drumEnvelopes else []) :
    tagValues c song ins tag = own := by
  rw [values, if_neg fun h => ne_drumTag_of_song c tag mem h.1, List.append_nil]

theorem legalValues_song {c : Cfg} {x : ShapeContext} {tag : Byte} (mem : tag ∈ plainSongTags) :
    legalValues c x tag = ownValues c x tag := by
  have noT : tag ≠ 0x54#8 := (by decide : ∀ t ∈ plainSongTags, t ≠ 0x54#8) tag mem
  have none : ¬ carriesDrums c x tag = true := by
    rw [carriesDrums, beq_false_of_ne (ne_drumTag_of_song c tag mem)]
    exact Bool.false_ne_true
  rw [legalValues, if_neg noT, if_neg none]

/-- The codec behind a record: still in its records, behind the payload, and as the record says. -/
def State.ReadsTo (s : State) (op : Instr) (next : Nat) (good : Codec → Prop) : Prop :=
  ∃ k', exec op s = .next { s with codec := k' } ∧ k'.status = .records ∧ k'.pos = next ∧ good k'

/-- A record of the song that stores its values. -/
theorem readsTo_of_song {s : State} {song : Song} {ins : Instrument} {op : Instr} {tag : Byte} {F : Codec → Codec}
    {f : Song → List Nat → Except Nat Song} {next : Nat} {new : Song} (own : Song → List Nat)
    (values : ∀ t, tagValues Config.cfg t ins tag = own t) (records : s.codec.status = .records)
    (read : Machine.payload Config.cfg s.codec tag = .ok (tagValues Config.cfg song ins tag, next))
    (run : exec op s = .next (onCodec s F)) (record : F s.codec = songTag Config.cfg tag f s.codec)
    (set : f s.codec.song (own song) = .ok new) (same : own new = own song) :
    s.ReadsTo op next fun k' => tagValues Config.cfg k'.song ins tag = tagValues Config.cfg song ins tag := by
  rw [values] at read ⊢
  exact ⟨_, putsSong new records run record set read, records, rfl, (values new).trans same⟩

/-- One octave for each channel. -/
theorem mapIdx_octave {l : List Channel} {vs : List Nat} (count : vs.length = l.length) :
    (l.mapIdx fun i ch => { ch with octave := vs.getD i ch.octave }).map Channel.octave = vs := by
  refine List.ext_getElem? fun i => ?_
  rw [List.getElem?_map, List.getElem?_mapIdx]
  cases there : l[i]? with
  | none =>
    rw [List.getElem?_eq_none_iff] at there
    exact (List.getElem?_eq_none (count ▸ there)).symm
  | some ch =>
    have inside : i < vs.length := count ▸ (List.getElem?_eq_some_iff.mp there).1
    simp only [Option.map_some, List.getD_eq_getElem?_getD, List.getElem?_eq_getElem inside, Option.getD_some]

/-- A record of the song that was written stores the song's values (R441). -/
theorem songRecord_reads {s : State} {song : Song} {ins : Instrument} {tag : Byte} {op : Instr} {next : Nat}
    (records : s.codec.status = .records) (latest : s.codec.version = 9) (mem : tag ∈ plainSongTags)
    (decoded : decodeTag tag = some op)
    (counts : s.codec.song.channels.length = s.codec.song.pitchChannelCount + s.codec.song.noiseChannelCount)
    (legal : tagValues Config.cfg song ins tag ∈ ownValues Config.cfg (shapeContext s.codec) tag)
    (read : Machine.payload Config.cfg s.codec tag = .ok (tagValues Config.cfg song ins tag, next)) :
    s.ReadsTo op next fun k' => tagValues Config.cfg k'.song ins tag = tagValues Config.cfg song ins tag := by
  have cases' := mem
  simp only [plainSongTags, List.mem_cons, List.not_mem_nil, or_false] at cases'
  rcases cases' with rfl | rfl | rfl | rfl | rfl | rfl | rfl | rfl | rfl | rfl | rfl | rfl <;> cases decoded
  · exact readsTo_of_song (fun t => [t.pitchChannelCount, t.noiseChannelCount]) (fun _ => tagValues_song _ mem rfl) records read
      rfl rfl rfl rfl
  · have values := fun t : Song => tagValues_song (c := Config.cfg) (song := t) (ins := ins) [t.scale] mem rfl
    exact readsTo_of_song _ values records read rfl rfl (setEnum_inside _ _ _ (mem_choices_index (values song ▸ legal))) rfl
  · have values := fun t : Song => tagValues_song (c := Config.cfg) (song := t) (ins := ins) [t.key] mem rfl
    exact readsTo_of_song _ values records read rfl rfl (setEnum_inside _ _ _ (mem_choices_index (values song ▸ legal))) rfl
  · exact readsTo_of_song (fun t => [t.loopStart]) (fun _ => tagValues_song _ mem rfl) records read rfl rfl rfl rfl
  · exact readsTo_of_song (fun t => [t.loopLength - 1]) (fun _ => tagValues_song _ mem rfl) records read rfl rfl rfl rfl
  · exact readsTo_of_song (fun t => [t.tempo]) (fun _ => tagValues_song _ mem rfl) records read rfl rfl rfl rfl
  · exact readsTo_of_song (fun t => [t.beatsPerBar]) (fun _ => tagValues_song _ mem rfl) records read rfl rfl rfl rfl
  · exact readsTo_of_song (fun t => [t.barCount]) (fun _ => tagValues_song _ mem rfl) records read rfl rfl rfl rfl
  · exact readsTo_of_song (fun t => [t.patternsPerChannel]) (fun _ => tagValues_song _ mem rfl) records read rfl rfl rfl rfl
  · exact readsTo_of_song (fun t => [t.instrumentsPerChannel]) (fun _ => tagValues_song _ mem rfl) records read rfl rfl rfl rfl
  · have values := fun t : Song => tagValues_song (c := Config.cfg) (song := t) (ins := ins) [t.rhythm] mem rfl
    exact readsTo_of_song _ values records read rfl rfl (setEnum_inside _ _ _ (mem_choices_index (values song ▸ legal))) rfl
  · have values := fun t : Song =>
      tagValues_song (c := Config.cfg) (song := t) (ins := ins) (t.channels.map Channel.octave) mem rfl
    have each : song.channels.map Channel.octave ∈ choices (List.replicate
        (s.codec.song.pitchChannelCount + s.codec.song.noiseChannelCount) (ranged 0 Config.cfg.ranges.octave)) :=
      values song ▸ legal
    have modern : ¬ beforeVersion s.codec 3 = true := not_beforeVersion (latest ▸ by decide)
    exact readsTo_of_song _ values records read rfl rfl (if_neg modern)
      (mapIdx_octave ((mem_choices_replicate each).1.trans counts.symm))

end Sys2Proof.Machine
end

section
set_option Elab.async false
/-! PROOFS. The codec reads what it writes: the records of an instrument, and all the round trips together
(`49_song_codec.md` R412, R416, R427, R436, R441). -/

namespace Sys2Proof.Machine

/-! The instrument under the cursor. -/

theorem codecInstrument_modify {k : Codec} {at' : Nat × Nat} {old new : Instrument} (found : codecInstrument k at' = some old)
    {k' : Codec} (song : k'.song = modifyInstrument k.song at' fun _ => new) : codecInstrument k' at' = some new := by
  unfold codecInstrument at found ⊢
  rw [song]
  cases there : k.song.channels[at'.1]? with
  | none => rw [there] at found; nomatch found
  | some ch =>
    rw [there] at found
    simp only [modifyInstrument, List.getElem?_modify_eq, there, Option.map_eq_map, Option.map_some] at found ⊢
    rw [found, Option.map_some]

/-- The instrument's kind is in the context of a record. -/
theorem Codec.AtInstrument.cursorKind_eq {k : Codec} {at' : Nat × Nat} {ins : Instrument} (here : k.AtInstrument at' ins) :
    (shapeContext k).cursorKind = ins.kind := by
  simp only [shapeContext, here.cursor, Option.bind_some, here.found, Option.map_some, Option.getD_some]

/-! What a setter makes of legal values (R441). -/

/-- The setter of a tag stores the own values of a record: what the writer writes of the new instrument is them, and behind
them the drum envelopes that travel with the tag. -/
def Keeps (c : Cfg) (song : Song) (tag : Byte) (f : Instrument → List Nat → Except Nat Instrument) (old : Instrument)
    (own : List Nat) : Prop :=
  ∃ j, f old own = .ok j ∧ j.kind = old.kind ∧ ∀ ds, tagValues c song { j with drumEnvelopes := ds } tag =
    own ++ if tag = drumTag c ∧ j.kind = kindDrumset then ds else []

/-- Legal values are a record's own, and behind them the drum envelopes that it carries. -/
theorem legalValues_split {c : Cfg} {x : ShapeContext} {tag : Byte} {vs : List Nat} (noT : tag ≠ 0x54#8)
    (legal : vs ∈ legalValues c x tag) : ∃ own ds, vs = own ++ ds ∧ own ∈ ownValues c x tag ∧
      (ds.length = if carriesDrums c x tag then drumCount else 0) ∧ ∀ e ∈ ds, e < c.envelopes.length := by
  rw [legalValues, if_neg noT] at legal
  split at legal
  next carries =>
    obtain ⟨own, hown, more⟩ := List.mem_flatMap.mp legal
    obtain ⟨ds, hds, rfl⟩ := List.mem_map.mp more
    obtain ⟨count, inside⟩ := mem_drumChoices hds
    exact ⟨own, ds, rfl, hown, by rw [if_pos carries, count], inside⟩
  next none => exact ⟨vs, [], (List.append_nil vs).symm, legal, by rw [if_neg none]; rfl, nofun⟩

theorem carriesDrums_iff {c : Cfg} {x : ShapeContext} {tag : Byte} (noT : tag ≠ 0x54#8) :
    carriesDrums c x tag = true ↔ tag = drumTag c ∧ x.cursorKind = kindDrumset := by
  simp only [carriesDrums, Bool.and_eq_true, beq_iff_eq, bne_iff_ne]
  exact ⟨fun h => ⟨h.1.1, h.2⟩, fun h => ⟨⟨h.1, noT⟩, h.2⟩⟩

/-- A record of the instrument under the cursor that was written stores its values. -/
theorem placedTag_keeps {c : Cfg} {k : Codec} {song : Song} {tag : Byte} {f : Instrument → List Nat → Except Nat Instrument}
    {note : Nat × Nat → List Nat → List LegacyFilter → List LegacyFilter} {at' : Nat × Nat} {old : Instrument} {vs : List Nat}
    {next : Nat} (here : k.AtInstrument at' old) (noT : tag ≠ 0x54#8) (read : payload c k tag = .ok (vs, next))
    (legal : vs ∈ legalValues c (shapeContext k) tag)
    (keeps : ∀ own ∈ ownValues c (shapeContext k) tag, Keeps c song tag f old own) :
    (placedTag c tag f note k).status = k.status ∧ (placedTag c tag f note k).pos = next ∧
      ∃ new, codecInstrument (placedTag c tag f note k) at' = some new ∧ new.kind = old.kind ∧ tagValues c song new tag = vs := by
  obtain ⟨own, ds, rfl, hown, count, inside⟩ := legalValues_split noT legal
  obtain ⟨j, set, kind, values⟩ := keeps own hown
  rw [placedTag_stores here ⟨read, count⟩ inside set]
  refine ⟨rfl, rfl, _, codecInstrument_modify here.found rfl, ?_, ?_⟩
  · split <;> exact kind
  · have travels := carriesDrums_iff (c := c) (x := shapeContext k) noT
    rw [here.cursorKind_eq, ← kind] at travels
    split
    next carries => rw [values, if_pos (travels.mp carries)]
    next none =>
      rw [if_neg none] at count
      obtain rfl := List.length_eq_zero_iff.mp count
      have := values j.drumEnvelopes
      rwa [if_neg fun h => none (travels.mpr h)] at this

/-! Each tag's setter. -/

section
variable {c : Cfg} {song : Song} {tag : Byte} {f : Instrument → List Nat → Except Nat Instrument} {old : Instrument}
  {own : List Nat} {x : ShapeContext}

/-- A setter of one number. -/
theorem keeps_number {l : List Nat} (store : Nat → Instrument) (legal : own ∈ choices [l])
    (set : ∀ v, f old [v] = .ok (store v)) (kind : ∀ v, (store v).kind = old.kind)
    (values : ∀ v ds, tagValues c song { store v with drumEnvelopes := ds } tag =
      [v] ++ if tag = drumTag c ∧ (store v).kind = kindDrumset then ds else []) : Keeps c song tag f old own := by
  obtain ⟨v, -, rfl⟩ := mem_choices_one legal
  exact ⟨store v, set v, kind v, values v⟩

/-- A setter of one index. -/
theorem keeps_index {n : Nat} (store : Nat → Instrument) (legal : own ∈ choices [List.range n])
    (set : f old = setEnum n old store) (kind : ∀ v, (store v).kind = old.kind)
    (values : ∀ v ds, tagValues c song { store v with drumEnvelopes := ds } tag =
      [v] ++ if tag = drumTag c ∧ (store v).kind = kindDrumset then ds else []) : Keeps c song tag f old own := by
  obtain ⟨v, inside, rfl⟩ := mem_choices_one legal
  exact ⟨store v, (congrFun set _).trans (setEnum_inside _ _ _ (List.mem_range.mp inside)), kind v, values v⟩

theorem keeps_wave (kind : x.cursorKind = old.kind) (legal : own ∈ ownValues c x 0x77#8) :
    Keeps c song 0x77#8 (fun i =>
      if i.kind = kindNoise then setEnum c.noiseWaveCount i (fun v => { i with noiseWave := v })
      else setEnum c.chipWaves.length i (fun v => { i with chipWave := v })) old own := by
  have one : own ∈ choices [List.range (if x.cursorKind = kindNoise then c.noiseWaveCount else c.chipWaves.length)] := legal
  rw [kind] at one
  have value (w : Nat) (j : Instrument) (same : (if j.kind = kindNoise then j.noiseWave else j.chipWave) = w) (ds : List Nat) :
      tagValues c song { j with drumEnvelopes := ds } 0x77#8 =
        [w] ++ if (0x77#8 : Byte) = drumTag c ∧ j.kind = kindDrumset then ds else [] := by
    subst same
    rfl
  by_cases noise : old.kind = kindNoise
  · rw [if_pos noise] at one
    exact keeps_index (fun v => { old with noiseWave := v }) one (if_pos noise) (fun _ => rfl)
      fun v => value v { old with noiseWave := v } (if_pos noise)
  · rw [if_neg noise] at one
    exact keeps_index (fun v => { old with chipWave := v }) one (if_neg noise) (fun _ => rfl)
      fun v => value v { old with chipWave := v } (if_neg noise)

theorem filterEnvelopePacked_latest {version : Nat} (latest : version = 9) :
    filterEnvelopePacked c version = c.codec.filterEnvelopeInF := by
  subst latest
  rfl

theorem keeps_filter {version : Nat} (latest : version = 9) (legal : own ∈ ownValues c x 0x66#8) :
    Keeps c song 0x66#8 (setFilter c version) old own := by
  have packed := filterEnvelopePacked_latest (c := c) latest
  have split : ∃ points e, (∀ p ∈ points, p.kind < 3) ∧ e < c.envelopes.length ∧
      own = pointValues points ++ if filterEnvelopePacked c version then [e] else [] := by
    have all : own ∈ if c.codec.filterEnvelopeInF then
        (pointLists c c.filterMaxPoints).flatMap fun l => (List.range c.envelopes.length).map fun e => l ++ [e]
      else pointLists c c.filterMaxPoints := legal
    by_cases inF : c.codec.filterEnvelopeInF = true
    · rw [if_pos inF] at all
      obtain ⟨l, hl, more⟩ := List.mem_flatMap.mp all
      obtain ⟨e, he, rfl⟩ := List.mem_map.mp more
      obtain ⟨points, rfl, kinds⟩ := mem_pointLists hl
      exact ⟨points, e, kinds, List.mem_range.mp he, by rw [packed, if_pos inF]⟩
    · rw [if_neg inF] at all
      obtain ⟨points, rfl, kinds⟩ := mem_pointLists all
      exact ⟨points, 0, kinds, table_pos _, by rw [packed, if_neg inF, List.append_nil]⟩
  obtain ⟨points, e, kinds, inside, rfl⟩ := split
  refine ⟨_, setFilter_values kinds inside, rfl, fun ds => ?_⟩
  rw [packed]
  by_cases inF : c.codec.filterEnvelopeInF = true
  · rw [if_pos inF, if_pos inF]
    exact congrArg (fun l => pointValues points ++ l ++ if (0x66#8 : Byte) = drumTag c ∧ old.kind = kindDrumset then ds else [])
      (if_pos inF)
  · rw [if_neg inF, if_neg inF]
    exact congrArg (fun l => pointValues points ++ l ++ if (0x66#8 : Byte) = drumTag c ∧ old.kind = kindDrumset then ds else [])
      (if_neg inF)

theorem keeps_distortionFilter (legal : own ∈ ownValues c x 0x47#8) :
    Keeps c song 0x47#8 (fun i vs => (pointsOf vs).map fun l => { i with distortionFilter := l }) old own := by
  obtain ⟨points, rfl, kinds⟩ := mem_pointLists legal
  exact ⟨{ old with distortionFilter := points },
    congrArg (Except.map fun l => { old with distortionFilter := l }) (pointsOf_pointValues kinds), rfl, fun _ => rfl⟩

theorem keeps_feedback {version : Nat} (latest : version = 9) (legal : own ∈ ownValues c x 0x42#8) :
    Keeps c song 0x42#8 (setFeedback c version) old own := by
  obtain ⟨v, -, e, inside, rfl⟩ := mem_choices_two legal
  subst latest
  exact ⟨_, setFeedback_values (c := c) (version := 9) (v := v) (List.mem_range.mp inside), rfl, fun _ => rfl⟩

theorem keeps_bitcrusher (legal : own ∈ ownValues c x 0x52#8) :
    Keeps c song 0x52#8 (fun i vs => (setNumber i (fun v => { i with bitcrusherFreq := v }) vs).bind fun j =>
      setNumber j (fun v => { j with bitcrusherQuantization := v }) (vs.drop 1)) old own := by
  obtain ⟨v, -, w, -, rfl⟩ := mem_choices_two legal
  exact ⟨{ old with bitcrusherFreq := v, bitcrusherQuantization := w }, rfl, rfl, fun _ => rfl⟩

theorem keeps_pulse (legal : own ∈ ownValues c x 0x57#8) :
    Keeps c song 0x57#8 (fun i vs => (setNumber i (fun v => { i with pulseWidth := v }) vs).bind fun j =>
      behind 1 (setEnum c.envelopes.length j (fun v => { j with pulseEnvelope := v }) (vs.drop 1))) old own := by
  obtain ⟨v, -, e, inside, rfl⟩ := mem_choices_two legal
  exact ⟨{ old with pulseWidth := v, pulseEnvelope := e },
    congrArg (behind 1) (setEnum_inside _ _ _ (List.mem_range.mp inside)), rfl, fun _ => rfl⟩

/-- The writer's values of the operators' row that a tag carries, and of the envelopes behind it. -/
theorem keeps_row {version n : Nat} {g : Operator → Nat} {store : Operator → Nat → Operator} (latest : version = 9)
    (four : old.operators.length = operatorCount)
    (legal : own ∈ choices (List.replicate operatorCount (ranged 0 n) ++ if operatorEnvelopeTag c latestVersion = some tag then
      List.replicate operatorCount (List.range c.envelopes.length) else []))
    (set : ∀ o v, g (store o v) = v) (keepSet : ∀ (o : Operator) v, g { o with envelope := v } = g o)
    (keep : ∀ o v, (store o v).envelope = o.envelope)
    (values : ∀ j : Instrument, tagValues c song j tag = (j.operators.map g ++ envelopesWith c tag j) ++
      if tag = drumTag c ∧ j.kind = kindDrumset then j.drumEnvelopes else []) :
    Keeps c song tag (setOperatorRow c version tag store) old own := by
  subst latest
  obtain ⟨row, envs, rowCount, envCount, inside, rfl⟩ := mem_choices_rows legal
  obtain ⟨good, hgood, goodCount, same⟩ : ∃ good : List Nat, (∀ e ∈ good, e < c.envelopes.length) ∧
      good.length = operatorCount ∧ (operatorEnvelopeTag c 9 = some tag → good = envs) := by
    by_cases carried : operatorEnvelopeTag c latestVersion = some tag
    · exact ⟨envs, fun e he => List.mem_range.mp (inside carried e he), envCount, fun _ => rfl⟩
    · exact ⟨List.replicate operatorCount 0, fun e he => (List.eq_of_mem_replicate he).symm ▸ table_pos _,
        List.length_replicate, fun h => absurd h carried⟩
  have stored := setOperatorRow_values (c := c) (version := 9) (tag := tag) (f := store) (ins := old) rowCount hgood
  have written : (if operatorEnvelopeTag c latestVersion = some tag then envs else []) =
      if operatorEnvelopeTag c 9 = some tag then good else [] := by
    by_cases carried : operatorEnvelopeTag c 9 = some tag
    · exact (if_pos carried).trans ((same carried).symm.trans (if_pos carried).symm)
    · exact (if_neg carried).trans (if_neg carried).symm
  rw [written]
  refine ⟨_, stored, rfl, fun ds => ?_⟩
  rw [values]
  congr 1
  simp only [envelopesWith, rowOperators_map keepSet, setOperators_map_set set (rowCount.trans four.symm),
    rowOperators_envelope keep (goodCount.trans four.symm)]
  congr 1
  by_cases carried : operatorEnvelopeTag c 9 = some tag
  · rw [if_pos carried, if_pos carried]
    exact if_pos carried
  · rw [if_neg carried, if_neg carried]
    exact if_neg carried

end

/-! The records of the instrument under the cursor. -/

/-- The tags with a shape behind `T`. -/
def shapedInstrumentTags : List Byte :=
  [0x76#8, 0x75#8, 0x71#8, 0x66#8, 0x7A#8, 0x64#8, 0x43#8, 0x63#8, 0x68#8, 0x77#8, 0x41#8, 0x42#8, 0x46#8, 0x50#8, 0x51#8,
    0x44#8, 0x47#8, 0x52#8, 0x4C#8, 0x6D#8, 0x55#8, 0x57#8]

theorem plainInstrumentTags_shaped {c : Cfg} {tag : Byte} (mem : tag ∈ plainInstrumentTags c) (noS : tag ≠ 0x53#8)
    (noH : tag ≠ 0x48#8) : hasShape c tag = true ∧ tag ∈ shapedInstrumentTags ∧ tag ≠ 0x54#8 := by
  have shaped : hasShape c tag = true := by
    simp only [hasShape, List.contains_iff_mem.mpr mem, bne_iff_ne.mpr noS, bne_iff_ne.mpr noH, Bool.and_true, Bool.or_true]
  have sub : ∀ t ∈ writtenInstrumentTags, t ≠ 0x53#8 → t ≠ 0x48#8 → t ∈ shapedInstrumentTags ∧ t ≠ 0x54#8 := by decide
  exact ⟨shaped, sub tag (mem_writtenInstrumentTags mem) noS noH⟩

/-- The record of a tag is one of the instrument under the cursor, and its setter stores legal values. -/
def State.Stores (s : State) (song : Song) (op : Instr) (tag : Byte) (old : Instrument) : Prop :=
  ∃ f note, exec op s = .next { s with codec := placedTag Config.cfg tag f note s.codec } ∧
    ∀ own ∈ ownValues Config.cfg (shapeContext s.codec) tag, Keeps Config.cfg song tag f old own

section
variable {s : State} {song : Song} {op : Instr} {tag : Byte} {old : Instrument}

theorem stores_of {F : Codec → Codec} {f : Instrument → List Nat → Except Nat Instrument} (records : s.codec.status = .records)
    (run : exec op s = .next (onCodec s F)) (record : F s.codec = instrumentTag Config.cfg tag f s.codec)
    (keeps : ∀ own ∈ ownValues Config.cfg (shapeContext s.codec) tag, Keeps Config.cfg song tag f old own) :
    s.Stores song op tag old := ⟨f, _, exec_record records run record, keeps⟩

theorem stores_of_mem (records : s.codec.status = .records) (latest : s.codec.version = 9)
    (kind : (shapeContext s.codec).cursorKind = old.kind) (four : old.operators.length = operatorCount)
    (decoded : decodeTag tag = some op) (mem : tag ∈ shapedInstrumentTags) : s.Stores song op tag old := by
  have modern (v : Nat) (h : v ≤ 9) : ¬ beforeVersion s.codec v = true := not_beforeVersion (latest ▸ h)
  simp only [shapedInstrumentTags, List.mem_cons, List.not_mem_nil, or_false] at mem
  rcases mem with rfl | rfl | rfl | rfl | rfl | rfl | rfl | rfl | rfl | rfl | rfl | rfl | rfl | rfl | rfl | rfl | rfl | rfl |
    rfl | rfl | rfl | rfl <;> cases decoded
  · exact stores_of records rfl rfl fun own legal =>
      keeps_number (fun v => { old with volume := v }) legal (fun _ => rfl) (fun _ => rfl) fun _ _ => rfl
  · exact stores_of records rfl rfl fun own legal =>
      keeps_index (fun v => { old with preset := v }) legal rfl (fun _ => rfl) fun _ _ => rfl
  · exact stores_of records rfl (if_neg (modern 6 (by decide))) fun own legal =>
      keeps_number (fun v => { old with effects := v }) legal (fun _ => rfl) (fun _ => rfl) fun _ _ => rfl
  · exact stores_of records rfl (if_neg (modern 9 (by decide))) fun own legal => keeps_filter latest legal
  · exact stores_of records rfl (if_neg (modern 9 (by decide))) fun own legal =>
      keeps_index (fun v => { old with filterEnvelope := v }) legal rfl (fun _ => rfl) fun _ _ => rfl
  · exact stores_of records rfl rfl fun own legal =>
      keeps_index (fun v => { old with transition := v }) legal rfl (fun _ => rfl) fun _ _ => rfl
  · exact stores_of records rfl rfl fun own legal =>
      keeps_index (fun v => { old with chord := v }) legal rfl (fun _ => rfl) fun _ _ => rfl
  · exact stores_of records rfl rfl fun own legal =>
      keeps_index (fun v => { old with vibrato := v }) legal rfl (fun _ => rfl) fun _ _ => rfl
  · exact stores_of records rfl rfl fun own legal =>
      keeps_index (fun v => { old with interval := v }) legal rfl (fun _ => rfl) fun _ _ => rfl
  · exact stores_of records rfl rfl fun own legal => keeps_wave kind legal
  · exact stores_of records rfl rfl fun own legal =>
      keeps_index (fun v => { old with algorithm := v }) legal rfl (fun _ => rfl) fun _ _ => rfl
  · exact stores_of records rfl rfl fun own legal => keeps_feedback latest legal
  · exact stores_of records rfl rfl fun own legal =>
      keeps_index (fun v => { old with feedbackType := v }) legal rfl (fun _ => rfl) fun _ _ => rfl
  · exact stores_of records rfl rfl fun own legal =>
      keeps_row (g := Operator.amplitude) latest four legal (fun _ _ => rfl) (fun _ _ => rfl) (fun _ _ => rfl) fun _ => rfl
  · exact stores_of records rfl rfl fun own legal =>
      keeps_row (g := Operator.frequency) latest four legal (fun _ _ => rfl) (fun _ _ => rfl) (fun _ _ => rfl) fun _ => rfl
  · exact stores_of records rfl rfl fun own legal =>
      keeps_number (fun v => { old with distortion := v }) legal (fun _ => rfl) (fun _ => rfl) fun _ _ => rfl
  · exact stores_of records rfl rfl fun own legal => keeps_distortionFilter legal
  · exact stores_of records rfl rfl fun own legal => keeps_bitcrusher legal
  · exact stores_of records rfl rfl fun own legal =>
      keeps_number (fun v => { old with pan := v }) legal (fun _ => rfl) (fun _ => rfl) fun _ _ => rfl
  · exact stores_of records rfl (if_neg (modern 7 (by decide))) fun own legal =>
      keeps_number (fun v => { old with reverb := v }) legal (fun _ => rfl) (fun _ => rfl) fun _ _ => rfl
  · exact stores_of records rfl rfl fun own legal =>
      keeps_number (fun v => { old with sustain := v }) legal (fun _ => rfl) (fun _ => rfl) fun _ _ => rfl
  · exact stores_of records rfl rfl fun own legal => keeps_pulse legal

end

/-! `H` and `S` (R427). -/

/-- A control point fits its width. -/
theorem lt_pointWidth {top bits v : Nat} (h : v ≤ top) : v < 2 ^ max bits (bitsFor (top + 1)) :=
  Nat.lt_of_lt_of_le (lt_two_pow_bitsFor (Nat.lt_succ_of_le h)) (Nat.pow_le_pow_right (by decide) (Nat.le_max_right ..))

theorem controlTag_written {c : Cfg} {k : Codec} {tag : Byte} {width n : Nat} {count : Instrument → Nat}
    {store : Instrument → List Nat → Instrument} {at' : Nat × Nat} {old : Instrument} {l : List Nat} {pre post : List Byte}
    (here : k.AtInstrument at' old) (points : count old = n) (size : l.length = n) (fits : ∀ v ∈ l, v < 2 ^ width)
    (place : k.pos = pre.length) (text : k.text = pre ++ (tag :: encodeBase64 (controlBits width l) ++ post)) :
    controlTag c tag width count store k = { k with
      song := modifyInstrument k.song at' (fun _ => store old l)
      pos := pre.length + (tag :: encodeBase64 (controlBits width l)).length } := by
  have total : (controlBits width l).length = width * n := by rw [controlBits, flatMap_writeBits_length, size]
  obtain ⟨symbols, pad, bits, filled, ends⟩ := bitsAt_record place total text
  have fields : readFields width n (valueBits symbols) = .ok (l, List.replicate pad false) := by
    rw [filled, ← size]
    exact readFields_written fits _
  rw [controlTag_stores here points bits fields, ends]

theorem instrumentRecord_spectrum (c : Cfg) (x : ShapeContext) (song : Song) (ins : Instrument) :
    instrumentRecord c x song ins 0x53#8 = 0x53#8 :: encodeBase64 (controlBits (spectrumPointWidth c)
      (if ins.kind = kindDrumset then ins.drumSpectrumWaves.flatten else ins.spectrumWave)) := rfl

/-- `S` of `n` control points. -/
theorem spectrumTag_written {c : Cfg} {k : Codec} {n : Nat} {at' : Nat × Nat} {old : Instrument} {l : List Nat}
    {pre post : List Byte} (here : k.AtInstrument at' old)
    (points : (if old.kind = kindDrumset then drumCount * spectrumPoints else spectrumPoints) = n) (size : l.length = n)
    (fits : ∀ v ∈ l, v < 2 ^ spectrumPointWidth c) (place : k.pos = pre.length)
    (text : k.text = pre ++ (0x53#8 :: encodeBase64 (controlBits (spectrumPointWidth c) l) ++ post)) :
    readSpectrum c k = { k with
      song := modifyInstrument k.song at' (fun _ => if old.kind = kindDrumset then
        { old with drumSpectrumWaves := chunks spectrumPoints drumCount l } else { old with spectrumWave := l })
      pos := pre.length + (0x53#8 :: encodeBase64 (controlBits (spectrumPointWidth c) l)).length } :=
  controlTag_written (count := fun i => if i.kind = kindDrumset then drumCount * spectrumPoints else spectrumPoints)
    here points size fits place text

/-! `T` (R416). -/

/-- The legal values of a `T` record: a kind, and a drumset's envelopes where they travel with it. -/
theorem kind_of_legalValues {c : Cfg} {x : ShapeContext} {song : Song} {ins : Instrument}
    (legal : tagValues c song ins 0x54#8 ∈ legalValues c x 0x54#8) : ∃ ds, tagValues c song ins 0x54#8 = ins.kind :: ds ∧
      ins.kind < 8 ∧ (ds.length = if drumTag c = 0x54#8 ∧ ins.kind = kindDrumset then drumCount else 0) ∧
      ∀ e ∈ ds, e < c.envelopes.length := by
  have form : tagValues c song ins 0x54#8 =
      ins.kind :: if (0x54#8 : Byte) = drumTag c ∧ ins.kind = kindDrumset then ins.drumEnvelopes else [] := rfl
  rw [legalValues, if_pos rfl] at legal
  obtain ⟨kind, small, more⟩ := List.mem_flatMap.mp legal
  split at more
  next drums =>
    obtain ⟨ds, hds, eq⟩ := List.mem_map.mp more
    obtain ⟨count, inside⟩ := mem_drumChoices hds
    obtain rfl : kind = ins.kind := (List.cons.inj (eq.trans form)).1
    exact ⟨ds, eq.symm, List.mem_range.mp small, by rw [if_pos drums.symm, count], inside⟩
  next none =>
    have eq := List.mem_singleton.mp more
    obtain rfl : ins.kind = kind := (List.cons.inj (form.symm.trans eq)).1
    exact ⟨[], eq, List.mem_range.mp small, by rw [if_neg fun h => none h.symm]; rfl, nofun⟩

theorem kindSet_values {c : Cfg} {song : Song} {old : Instrument} {v : Nat} {ds : List Nat}
    (count : ds.length = if drumTag c = 0x54#8 ∧ v = kindDrumset then drumCount else 0) :
    (kindSet c old v ds).kind = v ∧ tagValues c song (kindSet c old v ds) 0x54#8 = v :: ds := by
  by_cases drums : drumTag c = 0x54#8 ∧ v = kindDrumset
  · rw [kindSet, if_pos drums]
    exact ⟨rfl, congrArg (v :: ·) (if_pos ⟨drums.1.symm, drums.2⟩)⟩
  · rw [if_neg drums] at count
    obtain rfl := List.length_eq_zero_iff.mp count
    rw [kindSet, if_neg drums]
    exact ⟨rfl, congrArg (v :: ·) (if_neg fun h => drums ⟨h.1.symm, h.2⟩)⟩

end Sys2Proof.Machine

namespace Sys2Proof.Proofs

open Sys2Proof.Machine

/-- Settles O56: fields and codes by their readers; a record by its payload and the setter of its tag; patterns by the walk
of the reader over what the writer wrote. -/
theorem bitCodecRoundTrips : Obligations.BitCodecRoundTrips := by
  refine ⟨symbolValue_symbolOf, fun k v rest fits => readBits_writeBits fits rest, decodeBase64_encodeBase64,
    fun m b v => ⟨writeLongTail_below, writeLongTail_reads⟩,
    fun k d => ⟨writePitchInterval_zero k, writePitchInterval_reads k⟩,
    fun s song ins old at' tag op pre post records latest place => ⟨fun mem code text legal counts => ?song,
      fun found kind cursor => ⟨fun mem noS noH code text legal four => ?instrument, fun text size inside => ?harmonics,
        fun text other size inside => ?spectrum, fun text drumset size inside => ?drums⟩,
      fun next found text legal => ?start⟩,
    fun c song channels legal same => writeChannels_of_legal legal same,
    fun s song bits pre post records latest place legal counts same written short text =>
      exec_record records rfl (patternsTag_written latest place legal counts same written short text),
    fun c top barParts n => importNote_exportNote⟩
  case song =>
    have read := payload_shapedRecord latest place (plainSongTags_hasShape mem) legal text
    exact songRecord_reads records latest mem (decodeTag_of_tagCode code) counts
      (by rw [← legalValues_song mem]; exact legal) read
  case instrument =>
    have here : s.codec.AtInstrument at' old := ⟨latest ▸ by decide, cursor, found⟩
    obtain ⟨shape, shaped, noT⟩ := plainInstrumentTags_shaped mem noS noH
    have read := payload_shapedRecord latest place shape legal text
    obtain ⟨f, note, run, keeps⟩ := stores_of_mem (song := song) records latest here.cursorKind_eq four
      (decodeTag_of_tagCode code) shaped
    obtain ⟨status, pos, new, stands, newKind, values⟩ := placedTag_keeps (note := note) here noT read legal keeps
    exact ⟨_, run, status.trans records, pos, new, stands, newKind.trans kind, values⟩
  case harmonics =>
    have here : s.codec.AtInstrument at' old := ⟨latest ▸ by decide, cursor, found⟩
    exact ⟨_, exec_record records rfl (controlTag_written here rfl size (fun v hv => lt_pointWidth (inside v hv)) place text),
      records, rfl, _, codecInstrument_modify found rfl, rfl⟩
  case spectrum =>
    have here : s.codec.AtInstrument at' old := ⟨latest ▸ by decide, cursor, found⟩
    have same : old.kind ≠ kindDrumset := kind.symm ▸ other
    have record := instrumentRecord_spectrum Config.cfg (shapeContext s.codec) song ins
    rw [if_neg other] at record
    refine ⟨_, exec_record records rfl (spectrumTag_written here (if_neg same) size (fun v hv => lt_pointWidth (inside v hv))
      place (by rw [← record]; exact text)), records, by rw [record], _, codecInstrument_modify found rfl, if_neg same⟩
  case drums =>
    have here : s.codec.AtInstrument at' old := ⟨latest ▸ by decide, cursor, found⟩
    have same : old.kind = kindDrumset := kind.trans drumset
    have record := instrumentRecord_spectrum Config.cfg (shapeContext s.codec) song ins
    rw [if_pos drumset] at record
    have total : ins.drumSpectrumWaves.flatten.length = drumCount * spectrumPoints := by
      rw [List.length_flatten, List.map_congr_left fun w hw => (inside w hw).1, List.map_const', size, List.sum_replicate]
      rfl
    have cut : chunks spectrumPoints drumCount ins.drumSpectrumWaves.flatten = ins.drumSpectrumWaves :=
      (congrArg (chunks spectrumPoints · _) size.symm).trans (chunks_of_flatten fun w hw => (inside w hw).1)
    refine ⟨_, exec_record records rfl (spectrumTag_written here (if_pos same) total (fun v hv => ?_) place
      (by rw [← record]; exact text)), records, by rw [record], _, codecInstrument_modify found rfl,
      (if_pos same).trans (by rw [cut])⟩
    obtain ⟨w, hw, hvw⟩ := List.mem_flatten.mp hv
    exact lt_pointWidth ((inside w hw).2 v hvw)
  case start =>
    have modern : 3 ≤ s.codec.version := latest ▸ by decide
    have read := payload_shapedRecord latest place rfl legal text
    obtain ⟨ds, values, small, count, inside⟩ := kind_of_legalValues legal
    have now : s.codec.atStart Config.cfg = s.codec := if_neg (by rw [latest]; decide)
    rw [values] at read
    have begun := beginInstrument_stores modern next found read (setKind_values small count inside)
    obtain ⟨kind, newValues⟩ := kindSet_values (song := song) (old := old) count
    exact ⟨_, exec_record records rfl
        ((startInstrument_eq.trans (congrArg (beginInstrument Config.cfg) now)).trans begun), records, rfl, rfl, _,
      codecInstrument_modify found rfl, kind, newValues.trans values.symm⟩

end Sys2Proof.Proofs
end
